-- ==== Sys2Proof/Word.lean ====
section
/-! DEFINITION. The words of the TK2 and their plainest arithmetic (R1: little-endian, bits numbered from 0). -/

namespace Sys2Proof

/-- A byte of memory. -/
abbrev Byte := BitVec 8

/-- A 32-bit register or instruction word. -/
abbrev Word := BitVec 32

/-- A 64-bit register, pair or address. -/
abbrev Dword := BitVec 64

/-- A 256-bit vector register. -/
abbrev Vec := BitVec 256

/-- A 5-bit register field of an instruction. -/
abbrev Reg := BitVec 5

end Sys2Proof
end

