-- ==== Sys2Proof/Syntax.lean ====
section
/-! DEFINITION. The syntax of the TK2: one constructor for each row of the spec's table of operations and
events. The first 236 are the encoded instructions, with the fields of their encodings (R343) as bits; the
other 117 are the events of 95_what_each_step_holds, with the plain data that names the unit, or carries the
outside world's input. -/

namespace Sys2Proof

/-- What a translation fault holds until the front end settles it (R110, R111): a thread slot or a mover channel. -/
inductive FaultTarget where
  | thread (core slot : Nat)
  | channel (core chan : Nat)
  deriving DecidableEq, Repr

/-- What an access from outside does (R123, R332): a read of some bytes, a write, or an AtomicOp that the device completes,
of 64 bits when `wide`, else of 32. -/
inductive HostOp where
  | read (len : Nat)
  | write (data : List (BitVec 8))
  | fetchAdd (wide : Bool) (v : BitVec 64)
  | swap (wide : Bool) (v : BitVec 64)
  | cas (wide : Bool) (old new : BitVec 64)
  deriving DecidableEq, Repr

/-- An access that comes over port A, or over port B (R123, R332): its address and what it does. -/
structure HostAccess where
  portB : Bool
  pa : Nat
  op : HostOp
  deriving DecidableEq, Repr

/-- A mirrored publish that arrives over port B (R223): the slot, the primary's header fields and the data bytes. -/
structure MirrorPublish where
  slot : Nat
  ver : BitVec 64
  ptime : BitVec 64
  writer : BitVec 32
  ufl : BitVec 8
  len : BitVec 32
  data : List (BitVec 8)
  deriving DecidableEq, Repr

/-- A mirrored keep region that arrives over port B (R223): the reflex tile, the binding tag and the region's bytes. -/
structure KeepMirror where
  tile : Nat
  tag : BitVec 16
  data : List (BitVec 8)
  deriving DecidableEq, Repr

/-- A timed-stream record (R227): its header fields and its payload. -/
structure Record where
  time : BitVec 64
  seq : BitVec 32
  stream : Nat
  flags : BitVec 8
  payload : List (BitVec 8)
  deriving DecidableEq, Repr

/-- A line event of a die-cache slice (R263, R265): the line, its place and the access that raised it. -/
structure LineEvent where
  slice : Nat
  pa : BitVec 64
  va : BitVec 64
  way : Nat
  requester : BitVec 32
  asid : BitVec 16
  dirty : Bool
  deriving DecidableEq, Repr

/-- A request for a front-end service (R290): its number, the ASID and mode of the sender, whether the driver wrote
it, the sender's path 0x00 core for translated reads, and the eight payload words. -/
structure ServiceReq where
  number : Nat
  asid : BitVec 16
  supervisor : Bool
  driver : Bool
  words : List (BitVec 32)
  deriving DecidableEq, Repr

/-- The code object that a request of service 0x32 brings (R276, R290, R362; log entry 53): a core that is to fetch it,
the address of its code section, the words of that section, the entry headers among them, the indexes of the words at which
its handlers begin, its live-map table, its other sections with their addresses, whether it is Gust-eligible, and the handle
that firmware gives it. -/
structure CodeObject where
  core : Nat
  base : BitVec 64
  words : List (BitVec 32)
  handlers : List Nat
  liveMap : List (BitVec 128)
  sections : List (BitVec 64 × List (BitVec 8))
  gustEligible : Bool
  handle : BitVec 32
  deriving DecidableEq, Repr

/-- The units of R315 that an error record can name. -/
inductive UnitKind where
  | reasoning | reflex | agent | frontEnd | timeUnit | portA | portB | mailbox
  deriving DecidableEq, Repr

/-- A unit and its number, where an error is detected (R312, R315). -/
structure ErrUnit where
  kind : UnitKind
  index : Nat
  deriving DecidableEq, Repr

/-- A part of a firmware image: where its bytes stand in the image, how many there are, and where the manifest holds
their hash. -/
structure BootPart where
  off : Nat
  len : Nat
  hash : Nat
  deriving DecidableEq, Repr

/-- Where a firmware image holds what the boot ROM checks (R337, log entry 80): its length, the offset and length of the
manifest and of the public key, the offsets of the signature and of the security version, and its parts. -/
structure BootImage where
  len : Nat
  manifest : Nat
  manifestLen : Nat
  key : Nat
  keyLen : Nat
  signature : Nat
  version : Nat
  parts : List BootPart
  deriving DecidableEq, Repr

/-- The instructions and events of the TK2, one constructor per row of the spec's table. -/
inductive Instr where
  /-- ADD (R367). -/
  | add (d : BitVec 5) (s : BitVec 5) (t : BitVec 5)
  /-- SUB (R433). -/
  | sub (d : BitVec 5) (s : BitVec 5) (t : BitVec 5)
  /-- AND (R367). -/
  | and (d : BitVec 5) (s : BitVec 5) (t : BitVec 5)
  /-- OR (R433). -/
  | or (d : BitVec 5) (s : BitVec 5) (t : BitVec 5)
  /-- XOR (R497). -/
  | xor (d : BitVec 5) (s : BitVec 5) (t : BitVec 5)
  /-- ANDN (R367). -/
  | andn (d : BitVec 5) (s : BitVec 5) (t : BitVec 5)
  /-- SLL (R433). -/
  | sll (d : BitVec 5) (s : BitVec 5) (t : BitVec 5)
  /-- SRL (R433). -/
  | srl (d : BitVec 5) (s : BitVec 5) (t : BitVec 5)
  /-- SRA (R433). -/
  | sra (d : BitVec 5) (s : BitVec 5) (t : BitVec 5)
  /-- ROL (R433). -/
  | rol (d : BitVec 5) (s : BitVec 5) (t : BitVec 5)
  /-- SLT (R433). -/
  | slt (d : BitVec 5) (s : BitVec 5) (t : BitVec 5)
  /-- SLTU (R433). -/
  | sltu (d : BitVec 5) (s : BitVec 5) (t : BitVec 5)
  /-- MIN (R421). -/
  | min (d : BitVec 5) (s : BitVec 5) (t : BitVec 5)
  /-- MAX (R421). -/
  | max (d : BitVec 5) (s : BitVec 5) (t : BitVec 5)
  /-- MINU (R421). -/
  | minu (d : BitVec 5) (s : BitVec 5) (t : BitVec 5)
  /-- MAXU (R421). -/
  | maxu (d : BitVec 5) (s : BitVec 5) (t : BitVec 5)
  /-- MUL (R421). -/
  | mul (d : BitVec 5) (s : BitVec 5) (t : BitVec 5)
  /-- MULH (R421). -/
  | mulh (d : BitVec 5) (s : BitVec 5) (t : BitVec 5)
  /-- MULHU (R421). -/
  | mulhu (d : BitVec 5) (s : BitVec 5) (t : BitVec 5)
  /-- DIV (R369). -/
  | div (d : BitVec 5) (s : BitVec 5) (t : BitVec 5)
  /-- DIVU (R369). -/
  | divu (d : BitVec 5) (s : BitVec 5) (t : BitVec 5)
  /-- REM (R434). -/
  | rem (d : BitVec 5) (s : BitVec 5) (t : BitVec 5)
  /-- REMU (R434). -/
  | remu (d : BitVec 5) (s : BitVec 5) (t : BitVec 5)
  /-- CLZ (R367). -/
  | clz (d : BitVec 5) (s : BitVec 5)
  /-- CTZ (R367). -/
  | ctz (d : BitVec 5) (s : BitVec 5)
  /-- POPC (R433). -/
  | popc (d : BitVec 5) (s : BitVec 5)
  /-- SEXT_B (R433). -/
  | sextB (d : BitVec 5) (s : BitVec 5)
  /-- SEXT_H (R433). -/
  | sextH (d : BitVec 5) (s : BitVec 5)
  /-- ZEXT_B (R499). -/
  | zextB (d : BitVec 5) (s : BitVec 5)
  /-- ZEXT_H (R499). -/
  | zextH (d : BitVec 5) (s : BitVec 5)
  /-- BFX (R368). -/
  | bfx (d : BitVec 5) (s : BitVec 5) (t : BitVec 5)
  /-- BFI (R368). -/
  | bfi (d : BitVec 5) (s : BitVec 5) (t : BitVec 5)
  /-- ADDI (R367). -/
  | addi (d : BitVec 5) (s : BitVec 5) (i : BitVec 16)
  /-- ANDI (R367). -/
  | andi (d : BitVec 5) (s : BitVec 5) (i : BitVec 16)
  /-- ORI (R433). -/
  | ori (d : BitVec 5) (s : BitVec 5) (i : BitVec 16)
  /-- XORI (R497). -/
  | xori (d : BitVec 5) (s : BitVec 5) (i : BitVec 16)
  /-- SLTI (R433). -/
  | slti (d : BitVec 5) (s : BitVec 5) (i : BitVec 16)
  /-- SLTIU (R433). -/
  | sltiu (d : BitVec 5) (s : BitVec 5) (i : BitVec 16)
  /-- LUI (R419). -/
  | lui (d : BitVec 5) (i : BitVec 16)
  /-- SLLI (R433). -/
  | slli (d : BitVec 5) (s : BitVec 5) (h : BitVec 5)
  /-- SRLI (R433). -/
  | srli (d : BitVec 5) (s : BitVec 5) (h : BitVec 5)
  /-- SRAI (R433). -/
  | srai (d : BitVec 5) (s : BitVec 5) (h : BitVec 5)
  /-- ADDPI (R370). -/
  | addpi (d : BitVec 5) (s : BitVec 5) (i : BitVec 16)
  /-- ADDP (R370). -/
  | addp (d : BitVec 5) (s : BitVec 5) (t : BitVec 5)
  /-- SUBP (R456). -/
  | subp (d : BitVec 5) (s : BitVec 5) (t : BitVec 5)
  /-- MOVP (R428). -/
  | movp (d : BitVec 5) (s : BitVec 5)
  /-- BEQ (R381). -/
  | beq (s : BitVec 5) (t : BitVec 5) (o : BitVec 16)
  /-- BNE (R381). -/
  | bne (s : BitVec 5) (t : BitVec 5) (o : BitVec 16)
  /-- BLT (R381). -/
  | blt (s : BitVec 5) (t : BitVec 5) (o : BitVec 16)
  /-- BGE (R381). -/
  | bge (s : BitVec 5) (t : BitVec 5) (o : BitVec 16)
  /-- BLTU (R381). -/
  | bltu (s : BitVec 5) (t : BitVec 5) (o : BitVec 16)
  /-- BGEU (R381). -/
  | bgeu (s : BitVec 5) (t : BitVec 5) (o : BitVec 16)
  /-- BKANY (R381). -/
  | bkany (k : BitVec 3) (o : BitVec 16)
  /-- BKALL (R381). -/
  | bkall (k : BitVec 3) (o : BitVec 16)
  /-- BKNONE (R381). -/
  | bknone (k : BitVec 3) (o : BitVec 16)
  /-- BCEOS (R380). -/
  | bceos (v : BitVec 5) (o : BitVec 16)
  /-- J (R407). -/
  | j (o : BitVec 25)
  /-- JAL (R407). -/
  | jal (o : BitVec 25)
  /-- JALR (R407). -/
  | jalr (d : BitVec 5) (s : BitVec 5) (o : BitVec 10)
  /-- JALR_FAR (R407). -/
  | jalrFar (d : BitVec 5) (s : BitVec 5) (o : BitVec 10)
  /-- DBNZ (R389). -/
  | dbnz (s : BitVec 5) (o : BitVec 16)
  /-- LB (R412). -/
  | lb (d : BitVec 5) (b : BitVec 4) (o : BitVec 15)
  /-- LBU (R412). -/
  | lbu (d : BitVec 5) (b : BitVec 4) (o : BitVec 15)
  /-- LH (R412). -/
  | lh (d : BitVec 5) (b : BitVec 4) (o : BitVec 15)
  /-- LHU (R412). -/
  | lhu (d : BitVec 5) (b : BitVec 4) (o : BitVec 15)
  /-- LW (R412). -/
  | lw (d : BitVec 5) (b : BitVec 4) (o : BitVec 15)
  /-- LD (R412). -/
  | ld (d : BitVec 5) (b : BitVec 4) (o : BitVec 15)
  /-- SB (R443). -/
  | sb (d : BitVec 5) (b : BitVec 4) (o : BitVec 15)
  /-- SH (R443). -/
  | sh (d : BitVec 5) (b : BitVec 4) (o : BitVec 15)
  /-- SW (R443). -/
  | sw (d : BitVec 5) (b : BitVec 4) (o : BitVec 15)
  /-- SD (R443). -/
  | sd (d : BitVec 5) (b : BitVec 4) (o : BitVec 15)
  /-- VLD (R486). -/
  | vld (d : BitVec 5) (b : BitVec 4) (k : BitVec 2) (o : BitVec 15)
  /-- VST (R486). -/
  | vst (d : BitVec 5) (b : BitVec 4) (k : BitVec 2) (o : BitVec 15)
  /-- PF (R435). -/
  | pf (b : BitVec 4) (h : BitVec 2) (o : BitVec 15)
  /-- AMOADD_W (R373). -/
  | amoaddW (d : BitVec 5) (s : BitVec 5) (t : BitVec 5) (c : BitVec 2) (a : BitVec 1) (l : BitVec 1)
  /-- AMOADD_D (R373). -/
  | amoaddD (d : BitVec 5) (s : BitVec 5) (t : BitVec 5) (c : BitVec 2) (a : BitVec 1) (l : BitVec 1)
  /-- AMOAND_W (R373). -/
  | amoandW (d : BitVec 5) (s : BitVec 5) (t : BitVec 5) (c : BitVec 2) (a : BitVec 1) (l : BitVec 1)
  /-- AMOAND_D (R373). -/
  | amoandD (d : BitVec 5) (s : BitVec 5) (t : BitVec 5) (c : BitVec 2) (a : BitVec 1) (l : BitVec 1)
  /-- AMOOR_W (R373). -/
  | amoorW (d : BitVec 5) (s : BitVec 5) (t : BitVec 5) (c : BitVec 2) (a : BitVec 1) (l : BitVec 1)
  /-- AMOOR_D (R373). -/
  | amoorD (d : BitVec 5) (s : BitVec 5) (t : BitVec 5) (c : BitVec 2) (a : BitVec 1) (l : BitVec 1)
  /-- AMOXOR_W (R373). -/
  | amoxorW (d : BitVec 5) (s : BitVec 5) (t : BitVec 5) (c : BitVec 2) (a : BitVec 1) (l : BitVec 1)
  /-- AMOXOR_D (R373). -/
  | amoxorD (d : BitVec 5) (s : BitVec 5) (t : BitVec 5) (c : BitVec 2) (a : BitVec 1) (l : BitVec 1)
  /-- AMOMIN_W (R373). -/
  | amominW (d : BitVec 5) (s : BitVec 5) (t : BitVec 5) (c : BitVec 2) (a : BitVec 1) (l : BitVec 1)
  /-- AMOMIN_D (R373). -/
  | amominD (d : BitVec 5) (s : BitVec 5) (t : BitVec 5) (c : BitVec 2) (a : BitVec 1) (l : BitVec 1)
  /-- AMOMAX_W (R373). -/
  | amomaxW (d : BitVec 5) (s : BitVec 5) (t : BitVec 5) (c : BitVec 2) (a : BitVec 1) (l : BitVec 1)
  /-- AMOMAX_D (R373). -/
  | amomaxD (d : BitVec 5) (s : BitVec 5) (t : BitVec 5) (c : BitVec 2) (a : BitVec 1) (l : BitVec 1)
  /-- AMOMINU_W (R373). -/
  | amominuW (d : BitVec 5) (s : BitVec 5) (t : BitVec 5) (c : BitVec 2) (a : BitVec 1) (l : BitVec 1)
  /-- AMOMINU_D (R373). -/
  | amominuD (d : BitVec 5) (s : BitVec 5) (t : BitVec 5) (c : BitVec 2) (a : BitVec 1) (l : BitVec 1)
  /-- AMOMAXU_W (R373). -/
  | amomaxuW (d : BitVec 5) (s : BitVec 5) (t : BitVec 5) (c : BitVec 2) (a : BitVec 1) (l : BitVec 1)
  /-- AMOMAXU_D (R373). -/
  | amomaxuD (d : BitVec 5) (s : BitVec 5) (t : BitVec 5) (c : BitVec 2) (a : BitVec 1) (l : BitVec 1)
  /-- AMOSWAP_W (R373). -/
  | amoswapW (d : BitVec 5) (s : BitVec 5) (t : BitVec 5) (c : BitVec 2) (a : BitVec 1) (l : BitVec 1)
  /-- AMOSWAP_D (R373). -/
  | amoswapD (d : BitVec 5) (s : BitVec 5) (t : BitVec 5) (c : BitVec 2) (a : BitVec 1) (l : BitVec 1)
  /-- AMOFADD (R373). -/
  | amofadd (d : BitVec 5) (s : BitVec 5) (t : BitVec 5) (c : BitVec 2) (a : BitVec 1) (l : BitVec 1)
  /-- CAS_W (R373). -/
  | casW (d : BitVec 5) (s : BitVec 5) (t : BitVec 5) (c : BitVec 2) (a : BitVec 1) (l : BitVec 1)
  /-- CAS_D (R373). -/
  | casD (d : BitVec 5) (s : BitVec 5) (t : BitVec 5) (c : BitVec 2) (a : BitVec 1) (l : BitVec 1)
  /-- LR_W (R418). -/
  | lrW (d : BitVec 5) (s : BitVec 5) (c : BitVec 2) (a : BitVec 1) (l : BitVec 1)
  /-- LR_D (R418). -/
  | lrD (d : BitVec 5) (s : BitVec 5) (c : BitVec 2) (a : BitVec 1) (l : BitVec 1)
  /-- SC_W (R451). -/
  | scW (d : BitVec 5) (s : BitVec 5) (t : BitVec 5) (c : BitVec 2) (a : BitVec 1) (l : BitVec 1)
  /-- SC_D (R451). -/
  | scD (d : BitVec 5) (s : BitVec 5) (t : BitVec 5) (c : BitVec 2) (a : BitVec 1) (l : BitVec 1)
  /-- FENCE (R398). -/
  | fence (p : BitVec 2) (s : BitVec 2) (c : BitVec 2)
  /-- FENCEI (R399). -/
  | fencei
  /-- BARV (R378). -/
  | barv (d : BitVec 5) (s : BitVec 5) (c : BitVec 2)
  /-- BARW (R378). -/
  | barw (s : BitVec 5) (t : BitVec 5) (c : BitVec 2)
  /-- TRIG (R463). -/
  | trig
  /-- WAITDEP (R495). -/
  | waitdep (d : BitVec 5)
  /-- WRS (R496). -/
  | wrs (d : BitVec 5) (s : BitVec 5)
  /-- FPUT (R401). -/
  | fput (d : BitVec 5) (s : BitVec 5) (t : BitVec 5)
  /-- FGET (R401). -/
  | fget (d : BitVec 5) (s : BitVec 5)
  /-- FRESET (R401). -/
  | freset (d : BitVec 5) (s : BitVec 5)
  /-- VADD (R471). -/
  | vadd (d : BitVec 5) (a : BitVec 5) (b : BitVec 5) (k : BitVec 3) (y : BitVec 3) (u : BitVec 1)
  /-- VSUB (R471). -/
  | vsub (d : BitVec 5) (a : BitVec 5) (b : BitVec 5) (k : BitVec 3) (y : BitVec 3) (u : BitVec 1)
  /-- VMUL (R471). -/
  | vmul (d : BitVec 5) (a : BitVec 5) (b : BitVec 5) (k : BitVec 3) (y : BitVec 3) (u : BitVec 1)
  /-- VMIN (R471). -/
  | vmin (d : BitVec 5) (a : BitVec 5) (b : BitVec 5) (k : BitVec 3) (y : BitVec 3) (u : BitVec 1)
  /-- VMAX (R471). -/
  | vmax (d : BitVec 5) (a : BitVec 5) (b : BitVec 5) (k : BitVec 3) (y : BitVec 3) (u : BitVec 1)
  /-- VABS (R471). -/
  | vabs (d : BitVec 5) (a : BitVec 5) (k : BitVec 3) (y : BitVec 3)
  /-- VNEG (R471). -/
  | vneg (d : BitVec 5) (a : BitVec 5) (k : BitVec 3) (y : BitVec 3)
  /-- VAND (R471). -/
  | vand (d : BitVec 5) (a : BitVec 5) (b : BitVec 5) (k : BitVec 3) (y : BitVec 3)
  /-- VOR (R471). -/
  | vor (d : BitVec 5) (a : BitVec 5) (b : BitVec 5) (k : BitVec 3) (y : BitVec 3)
  /-- VXOR (R471). -/
  | vxor (d : BitVec 5) (a : BitVec 5) (b : BitVec 5) (k : BitVec 3) (y : BitVec 3)
  /-- VANDN (R471). -/
  | vandn (d : BitVec 5) (a : BitVec 5) (b : BitVec 5) (k : BitVec 3) (y : BitVec 3)
  /-- VSLL (R471). -/
  | vsll (d : BitVec 5) (a : BitVec 5) (b : BitVec 5) (k : BitVec 3) (y : BitVec 3)
  /-- VSRL (R471). -/
  | vsrl (d : BitVec 5) (a : BitVec 5) (b : BitVec 5) (k : BitVec 3) (y : BitVec 3)
  /-- VSRA (R471). -/
  | vsra (d : BitVec 5) (a : BitVec 5) (b : BitVec 5) (k : BitVec 3) (y : BitVec 3)
  /-- VCLAMP (R471). -/
  | vclamp (d : BitVec 5) (a : BitVec 5) (b : BitVec 5) (k : BitVec 3) (y : BitVec 3) (u : BitVec 1)
  /-- VDOT (R473). -/
  | vdot (d : BitVec 5) (a : BitVec 5) (b : BitVec 5) (k : BitVec 3) (y : BitVec 3) (u : BitVec 1)
  /-- VADD_F (R472). -/
  | vaddF (d : BitVec 5) (a : BitVec 5) (b : BitVec 5) (k : BitVec 3) (y : BitVec 3)
  /-- VSUB_F (R472). -/
  | vsubF (d : BitVec 5) (a : BitVec 5) (b : BitVec 5) (k : BitVec 3) (y : BitVec 3)
  /-- VMUL_F (R472). -/
  | vmulF (d : BitVec 5) (a : BitVec 5) (b : BitVec 5) (k : BitVec 3) (y : BitVec 3)
  /-- VMIN_F (R472). -/
  | vminF (d : BitVec 5) (a : BitVec 5) (b : BitVec 5) (k : BitVec 3) (y : BitVec 3)
  /-- VMAX_F (R472). -/
  | vmaxF (d : BitVec 5) (a : BitVec 5) (b : BitVec 5) (k : BitVec 3) (y : BitVec 3)
  /-- VABS_F (R472). -/
  | vabsF (d : BitVec 5) (a : BitVec 5) (k : BitVec 3) (y : BitVec 3)
  /-- VNEG_F (R472). -/
  | vnegF (d : BitVec 5) (a : BitVec 5) (k : BitVec 3) (y : BitVec 3)
  /-- VFMA (R472). -/
  | vfma (d : BitVec 5) (a : BitVec 5) (b : BitVec 5) (k : BitVec 3) (y : BitVec 3)
  /-- VFMS (R472). -/
  | vfms (d : BitVec 5) (a : BitVec 5) (b : BitVec 5) (k : BitVec 3) (y : BitVec 3)
  /-- VCLAMP_F (R472). -/
  | vclampF (d : BitVec 5) (a : BitVec 5) (b : BitVec 5) (k : BitVec 3) (y : BitVec 3)
  /-- VDOT_F (R473). -/
  | vdotF (d : BitVec 5) (a : BitVec 5) (b : BitVec 5) (k : BitVec 3) (y : BitVec 3)
  /-- VCMP_EQ (R479). -/
  | vcmpEq (d : BitVec 3) (a : BitVec 5) (b : BitVec 5) (k : BitVec 3) (y : BitVec 3) (u : BitVec 1)
  /-- VCMP_NE (R479). -/
  | vcmpNe (d : BitVec 3) (a : BitVec 5) (b : BitVec 5) (k : BitVec 3) (y : BitVec 3) (u : BitVec 1)
  /-- VCMP_LT (R479). -/
  | vcmpLt (d : BitVec 3) (a : BitVec 5) (b : BitVec 5) (k : BitVec 3) (y : BitVec 3) (u : BitVec 1)
  /-- VCMP_LE (R479). -/
  | vcmpLe (d : BitVec 3) (a : BitVec 5) (b : BitVec 5) (k : BitVec 3) (y : BitVec 3) (u : BitVec 1)
  /-- VCMP_GT (R479). -/
  | vcmpGt (d : BitVec 3) (a : BitVec 5) (b : BitVec 5) (k : BitVec 3) (y : BitVec 3) (u : BitVec 1)
  /-- VCMP_GE (R479). -/
  | vcmpGe (d : BitVec 3) (a : BitVec 5) (b : BitVec 5) (k : BitVec 3) (y : BitVec 3) (u : BitVec 1)
  /-- VSEL (R479). -/
  | vsel (d : BitVec 5) (a : BitVec 5) (b : BitVec 5) (k : BitVec 3) (y : BitVec 3)
  /-- KMOV_X (R410). -/
  | kmovX (d : BitVec 5) (a : BitVec 3)
  /-- KAND (R410). -/
  | kand (d : BitVec 3) (a : BitVec 3) (b : BitVec 3)
  /-- KOR (R410). -/
  | kor (d : BitVec 3) (a : BitVec 3) (b : BitVec 3)
  /-- KXOR (R410). -/
  | kxor (d : BitVec 3) (a : BitVec 3) (b : BitVec 3)
  /-- KNOT (R410). -/
  | knot (d : BitVec 3) (a : BitVec 3)
  /-- KMOV_K (R410). -/
  | kmovK (d : BitVec 3) (a : BitVec 3)
  /-- KPOPC (R410). -/
  | kpopc (d : BitVec 5) (a : BitVec 3)
  /-- KFIRST (R410). -/
  | kfirst (d : BitVec 5) (a : BitVec 3)
  /-- KGEN (R410). -/
  | kgen (d : BitVec 3) (s : BitVec 5)
  /-- VCVT (R482). -/
  | vcvt (d : BitVec 5) (a : BitVec 5) (s : BitVec 4) (k : BitVec 3) (e : BitVec 4)
  /-- VEXP2 (R484). -/
  | vexp2 (d : BitVec 5) (a : BitVec 5) (k : BitVec 3) (y : BitVec 3)
  /-- VLOG2 (R484). -/
  | vlog2 (d : BitVec 5) (a : BitVec 5) (k : BitVec 3) (y : BitVec 3)
  /-- VRCP (R484). -/
  | vrcp (d : BitVec 5) (a : BitVec 5) (k : BitVec 3) (y : BitVec 3)
  /-- VRSQRT (R484). -/
  | vrsqrt (d : BitVec 5) (a : BitVec 5) (k : BitVec 3) (y : BitVec 3)
  /-- VPOPC (R484). -/
  | vpopc (d : BitVec 5) (a : BitVec 5) (k : BitVec 3) (y : BitVec 3)
  /-- VREDSUM (R475). -/
  | vredsum (d : BitVec 5) (a : BitVec 5) (k : BitVec 3) (y : BitVec 3) (u : BitVec 1)
  /-- VREDMAX (R475). -/
  | vredmax (d : BitVec 5) (a : BitVec 5) (k : BitVec 3) (y : BitVec 3) (u : BitVec 1)
  /-- VREDMIN (R475). -/
  | vredmin (d : BitVec 5) (a : BitVec 5) (k : BitVec 3) (y : BitVec 3) (u : BitVec 1)
  /-- VARGMAX (R475). -/
  | vargmax (d : BitVec 5) (a : BitVec 5) (k : BitVec 3) (y : BitVec 3) (u : BitVec 1)
  /-- VSCAN (R476). -/
  | vscan (d : BitVec 5) (a : BitVec 5) (k : BitVec 3) (y : BitVec 3)
  /-- VPERM (R491). -/
  | vperm (d : BitVec 5) (a : BitVec 5) (b : BitVec 5) (k : BitVec 3) (y : BitVec 3)
  /-- VSLIDE (R491). -/
  | vslide (d : BitVec 5) (a : BitVec 5) (t : BitVec 5) (k : BitVec 3) (y : BitVec 3)
  /-- VTOPK (R493). -/
  | vtopk (d : BitVec 5) (a : BitVec 5) (b : BitVec 5) (k : BitVec 3) (y : BitVec 3) (u : BitVec 1)
  /-- VBCAST (R477). -/
  | vbcast (d : BitVec 5) (s : BitVec 5) (k : BitVec 3) (y : BitVec 3)
  /-- VMVX (R477). -/
  | vmvx (d : BitVec 5) (a : BitVec 5) (t : BitVec 5) (y : BitVec 3)
  /-- VINS (R477). -/
  | vins (d : BitVec 5) (s : BitVec 5) (t : BitVec 5) (y : BitVec 3)
  /-- VMOV (R477). -/
  | vmov (d : BitVec 5) (a : BitVec 5) (k : BitVec 3) (y : BitVec 3)
  /-- VLDG (R489). -/
  | vldg (d : BitVec 5) (p : BitVec 5) (b : BitVec 5) (k : BitVec 3) (y : BitVec 3)
  /-- VSTS (R489). -/
  | vsts (d : BitVec 5) (p : BitVec 5) (b : BitVec 5) (k : BitVec 3) (y : BitVec 3)
  /-- MMA (R162). -/
  | mma (s : BitVec 5) (t : BitVec 5)
  /-- MMV (R167). -/
  | mmv (s : BitVec 5) (t : BitVec 5)
  /-- MLDB (R425). -/
  | mldb (s : BitVec 5) (t : BitVec 5)
  /-- MLDB_S (R425). -/
  | mldbS (v : BitVec 5) (t : BitVec 5)
  /-- MST (R169). -/
  | mst (s : BitVec 5) (t : BitVec 5)
  /-- MRD (R170). -/
  | mrd (d : BitVec 5) (s : BitVec 5) (t : BitVec 5)
  /-- MZERO (R170). -/
  | mzero (t : BitVec 5)
  /-- MRING (R165). -/
  | mring (d : BitVec 5) (s : BitVec 5) (t : BitVec 5)
  /-- MVGO (R430). -/
  | mvgo (d : BitVec 5) (s : BitVec 5)
  /-- MVRED (R181). -/
  | mvred (d : BitVec 5) (s : BitVec 5)
  /-- MVST (R183). -/
  | mvst (d : BitVec 5) (s : BitVec 5)
  /-- MVKILL (R183). -/
  | mvkill (s : BitVec 5)
  /-- SBIND (R447). -/
  | sbind (d : BitVec 5) (s : BitVec 5) (t : BitVec 5)
  /-- CBIND (R386). -/
  | cbind (d : BitVec 5) (s : BitVec 5) (t : BitVec 5)
  /-- SUNBIND (R449). -/
  | sunbind (d : BitVec 5)
  /-- CRET (R386). -/
  | cret (d : BitVec 5)
  /-- CEOS (R386). -/
  | ceos (d : BitVec 5)
  /-- CWAIT (R385). -/
  | cwait (d : BitVec 5) (s : BitVec 5) (t : BitVec 5)
  /-- CADD (R385). -/
  | cadd (s : BitVec 5) (t : BitVec 5)
  /-- CSET (R385). -/
  | cset (s : BitVec 5) (t : BitVec 5)
  /-- CRD (R385). -/
  | crd (d : BitVec 5) (s : BitVec 5)
  /-- MW (R431). -/
  | mw (d : BitVec 3) (s : BitVec 5)
  /-- SEND (R454). -/
  | send (d : BitVec 5) (s : BitVec 5) (t : BitVec 5)
  /-- SENDW (R454). -/
  | sendw (d : BitVec 5) (s : BitVec 5) (t : BitVec 5)
  /-- EXIT (R393). -/
  | exit (s : BitVec 5) (t : BitVec 5)
  /-- BIND (R383). -/
  | bind (d : BitVec 5) (s : BitVec 5) (t : BitVec 5)
  /-- UNBIND (R464). -/
  | unbind (d : BitVec 5) (s : BitVec 5)
  /-- YIELD (R498). -/
  | yield
  /-- MBOPEN (R206). -/
  | mbopen (d : BitVec 5) (s : BitVec 5)
  /-- MBPUB (R206). -/
  | mbpub (d : BitVec 5) (s : BitVec 5) (t : BitVec 5)
  /-- MBLD (R207). -/
  | mbld (d : BitVec 5) (s : BitVec 5) (t : BitVec 5)
  /-- MBSNAP (R208). -/
  | mbsnap (d : BitVec 5) (s : BitVec 5) (t : BitVec 5)
  /-- MBVER (R207). -/
  | mbver (d : BitVec 5) (s : BitVec 5)
  /-- TNOW (R461). -/
  | tnow (d : BitVec 5)
  /-- TUNTIL (R462). -/
  | tuntil (d : BitVec 5) (s : BitVec 5) (t : BitVec 5)
  /-- SWGET (R458). -/
  | swget (d : BitVec 5) (s : BitVec 5) (t : BitVec 5)
  /-- SWADV (R459). -/
  | swadv (d : BitVec 5) (s : BitVec 5) (t : BitVec 5)
  /-- GUST (R404). -/
  | gust (d : BitVec 5) (s : BitVec 5)
  /-- GUSTREL (R404). -/
  | gustrel (s : BitVec 5)
  /-- GUSTQ (R404). -/
  | gustq (d : BitVec 5) (s : BitVec 5)
  /-- QPOST (R438). -/
  | qpost (d : BitVec 5)
  /-- QCLAIM (R439). -/
  | qclaim (d : BitVec 5) (s : BitVec 5)
  /-- HACC (R405). -/
  | hacc (s : BitVec 5) (t : BitVec 5)
  /-- LPIN (R268). -/
  | lpin (d : BitVec 5) (s : BitVec 5)
  /-- LUNPIN (R268). -/
  | lunpin (d : BitVec 5) (s : BitVec 5)
  /-- LFILL (R268). -/
  | lfill (d : BitVec 5) (s : BitVec 5) (t : BitVec 5)
  /-- LDROP (R268). -/
  | ldrop (d : BitVec 5) (s : BitVec 5) (t : BitVec 5)
  /-- LPROBE (R268). -/
  | lprobe (d : BitVec 5) (s : BitVec 5)
  /-- GLAUNCH (R403). -/
  | glaunch (d : BitVec 5) (s : BitVec 5)
  /-- GABORT (R403). -/
  | gabort (d : BitVec 5) (s : BitVec 5) (t : BitVec 5)
  /-- ECALL (R390). -/
  | ecall
  /-- EBREAK (R390). -/
  | ebreak
  /-- ERET (R390). -/
  | eret
  /-- HALT (R406). -/
  | halt
  /-- TINV (R113). -/
  | tinv (s : BitVec 5) (t : BitVec 5)
  /-- CSRR (R387). -/
  | csrr (d : BitVec 5) (c : BitVec 8)
  /-- CSRW (R387). -/
  | csrw (s : BitVec 5) (c : BitVec 8)
  /-- CSRS (R387). -/
  | csrs (s : BitVec 5) (c : BitVec 8)
  /-- CSRC (R387). -/
  | csrc (s : BitVec 5) (c : BitVec 8)
  /-- EWR (R392). -/
  | ewr (s : BitVec 5) (n : BitVec 6)
  /-- ERD (R392). -/
  | erd (d : BitVec 5) (n : BitVec 6)
  /-- SAFE (R441). -/
  | safe (h : BitVec 4) (n : BitVec 8)
  /-- PFX_EXT (R73). -/
  | pfxExt (p : BitVec 24)
  /-- PFX_OPT (R74). -/
  | pfxOpt (p : BitVec 24)
  /-- ILLEGAL_ENCODING (R300): An unassigned or malformed word traps ILLEGAL with no effect. -/
  | illegalEncoding (w : BitVec 32)
  /-- MESSAGE_ARRIVAL (R34): A message reaching a tile's inbox port is placed in a slot, the spill ring, the overflow queue or the unbound hold. -/
  | messageArrival (i : Nat)
  /-- INBOX_PORT_ACCEPT (R28): A message waiting at the inbox port is accepted once the destination has room. -/
  | inboxPortAccept (core : Nat)
  /-- MESSAGE_DISPATCH (R34): When a slot frees or an ONE activation ends, the oldest runnable pending message starts. -/
  | messageDispatch (core : Nat)
  /-- CREDIT_RETURN (R28): A message credit returns to the sending core after the destination accepted the message. -/
  | creditReturn (i : Nat)
  /-- SUCCESSOR_SEND (R41): The successor queue sends its next successor once a credit is available. -/
  | successorSend (core : Nat)
  /-- UNBOUND_HOLD_EXPIRY (R50): A message unbound for 10 ms goes to the error queue and is discarded. -/
  | unboundHoldExpiry (core : Nat)
  /-- GANG_REQUEST_ACCEPT (R46): The placement unit accepts or rejects a gang launch request and resolves its producers. -/
  | gangRequestAccept
  /-- PLACEMENT_PASS (R286): On a launch arrival or freed slot the placement unit tries pending launches by class. -/
  | placementPass
  /-- GANG_MEMBER_START (R288): A member's first instruction is released when device time reaches the start time T. -/
  | gangMemberStart (core slot : Nat)
  /-- TRIGGER_NOTICE (R463): A member's trigger notice reaches the placement unit after its earlier accesses performed. -/
  | triggerNotice (i : Nat)
  /-- L1_RESIZE_COMPLETE (R85): An l1cfg change finishes writing back lines and repartitions the SRAM. -/
  | l1ResizeComplete (core : Nat)
  /-- PAGE_WALK_COMPLETE (R109): A page-table walk finishes, filling the TLB or raising a translation fault. -/
  | pageWalkComplete (core slot : Nat)
  /-- TRANSLATION_REPLAY (R110): The front end replays a translation fault and the thread or channel resumes. -/
  | translationReplay (t : FaultTarget)
  /-- TRANSLATION_ABORT (R110): The front end aborts a translation fault, trapping the thread XLAT or stopping the channel. -/
  | translationAbort (t : FaultTarget)
  /-- STORE_BUFFER_PERFORM (R119): The oldest store-buffer entry leaves and performs. -/
  | storeBufferPerform (core slot : Nat)
  /-- HOST_MEMORY_ACCESS (R123): A host access to device memory through port A performs at the home slice. -/
  | hostMemoryAccess (a : HostAccess)
  /-- MATRIX_COMMAND_COMPLETE (R163): A matrix command finishes, writing the bank, merging flags and freeing the unit and slot. -/
  | matrixCommandComplete (core : Nat)
  /-- LATCH_FILL_COMPLETE (R425): A latch buffer fill writes its last byte and the buffer becomes FULL. -/
  | latchFillComplete (core buf : Nat)
  /-- HANDOFF_CLAIM (R166): A pending hand-off claims an EMPTY buffer at the successor. -/
  | handoffClaim (core : Nat)
  /-- HANDOFF_COMPLETE (R166): A hand-off's last byte arrives and the successor's buffer becomes FULL. -/
  | handoffComplete (core : Nat)
  /-- MOVER_ELEMENT (R178): A mover channel completes one element, adding counts or stopping on a fault. -/
  | moverElement (core chan : Nat)
  /-- CHANNEL_BEAT_ARRIVAL (R188): A channel beat arrives in a receiver buffer. -/
  | channelBeatArrival (i : Nat)
  /-- CHANNEL_CREDIT_RETURN (R188): A credit returned by cret reaches the channel's sender. -/
  | channelCreditReturn (i : Nat)
  /-- REMOTE_CADD_ARRIVAL (R192): A remote counter add performs at the target tile or its saved image. -/
  | remoteCaddArrival (i : Nat)
  /-- SQUALL_SCAN (R195): Every 100 µs Squall reads wait records and reports new cycles and chains. -/
  | squallScan
  /-- TICK_DELIVERY (R200): At least 2 µs before its due time a tick firing is delivered to its reflex tile. -/
  | tickDelivery (e : Nat)
  /-- TICK_START (R200): At the due time the held tick activation starts. -/
  | tickStart (core slot : Nat)
  /-- BUDGET_EXPIRY (R201): A reflex activation's cycle count reaches its budget and traps BUDGET. -/
  | budgetExpiry (core slot : Nat)
  /-- BUDGET_KILL (R201): A reflex activation 256 cc past its budget is killed. -/
  | budgetKill (core slot : Nat)
  /-- MBSNAP_COPY_COMPLETE (R208): A mailbox snapshot copy ends, unpinning the buffer and adding to the counter. -/
  | mbsnapCopyComplete (i : Nat)
  /-- GUST_CODE_START (R215): Once a seized tile's slots have stopped and its context is saved, Gust code starts on slot 0. -/
  | gustCodeStart (core : Nat)
  /-- GUST_HOLD_EXPIRY (R218): A seizure held for HOLD µs ends, sets EXPIRED and writes GUSTHOLD. -/
  | gustHoldExpiry (p : Nat)
  /-- GUST_RELOCATION (R219): A member suspended 200 µs with RELOC set moves to a free eligible tile. -/
  | gustRelocation (core : Nat)
  /-- HEARTBEAT_SEND (R223): Every 100 µs a heartbeat is sent to the peer device. -/
  | heartbeatSend
  /-- HEARTBEAT_RECEIVE (R223): A heartbeat arrives from the peer device. -/
  | heartbeatReceive
  /-- HEARTBEAT_WINDOW_EXPIRY (R224): A 100 µs window ends and missed heartbeats may cause takeover or self-fencing. -/
  | heartbeatWindowExpiry
  /-- FATAL_ERROR_MESSAGE (R224): A fatal-error message from the primary arrives at the spare and forces takeover. -/
  | fatalErrorMessage
  /-- HSCTL_TAKE (R224): A write of TAKE on a spare forces takeover. -/
  | hsctlTake
  /-- MIRROR_PUBLISH_RECEIVE (R223): A mirrored publish arrives and the spare's mailbox publishes it with the primary's VER. -/
  | mirrorPublishReceive (p : MirrorPublish)
  /-- KEEP_REGION_MIRROR_RECEIVE (R223): A mirrored keep region arrives and the spare writes it whole. -/
  | keepRegionMirrorReceive (k : KeepMirror)
  /-- TIME_SOURCE_CORRECTION (R225): A correction from the selected time source slews or steps device time. -/
  | timeSourceCorrection (ns : Int)
  /-- STREAM_RECORD_ARRIVAL (R227): A record arriving from a MAC frame is stored in its stream window or dropped. -/
  | streamRecordArrival (mac : Nat) (r : Record)
  /-- INGEST_RECORD_COMMIT (R334): A host write covering byte 0 of an ingest aperture commits the record. -/
  | ingestRecordCommit (stream : Nat)
  /-- DECODE_TICK (R229): A decode tick falls due and fires when the window holds data up to its time. -/
  | decodeTick (stream : Nat)
  /-- DECODE_TICK_LATE (R229): A decode tick not yet covered fires at t plus the lateness budget with LATE set. -/
  | decodeTickLate (stream : Nat)
  /-- TUNTIL_TIMER_EXPIRY (R232): A tile timer reaches its time, adds 1 to its counter and frees. -/
  | tuntilTimerExpiry (core i : Nat)
  /-- EGRESS_LAUNCH (R234): The MAC begins a frame's preamble at its launch time. -/
  | egressLaunch (q : Nat)
  /-- SERVICE_STEP_SCHEDULER (R237): Service 0x20 starts or stops the step scheduler. -/
  | serviceStepScheduler (r : ServiceReq)
  /-- STEP_BOUNDARY (R241): After the verification gang exits and the futures fill, the scheduler settles, batches and submits the next step. -/
  | stepBoundary
  /-- SAMPLING_QUEUE_POST (R250): A row descriptor arrives at the sampling queue and goes to a waiting claimer or is queued. -/
  | samplingQueuePost (i : Nat)
  /-- LINE_MISS_EVENT (R265): A die-cache miss starts the owner's miss handler, possibly holding the fill. -/
  | lineMissEvent (e : LineEvent)
  /-- LINE_FILL_EVENT (R265): A line installation starts the owner's fill handler. -/
  | lineFillEvent (e : LineEvent)
  /-- LINE_EVICTION_EVENT (R265): Replacement choosing a victim starts the owner's eviction handler and holds the victim. -/
  | lineEvictionEvent (e : LineEvent)
  /-- AGENT_BUDGET_EXPIRY (R266): An agent handler reaching its budget is killed and OVR raised. -/
  | agentBudgetExpiry (core slot : Nat)
  /-- LOADER_START (R269): A GO write to ldctl starts a loader table. -/
  | loaderStart (slice : Nat)
  /-- LOADER_DESCRIPTOR_COMPLETE (R269): A loader descriptor finishes moving its bytes and counting, or is skipped. -/
  | loaderDescriptorComplete (slice : Nat)
  /-- FGET_PARK_RETRY (R272): An fget whose park was refused is sent again 1 µs later. -/
  | fgetParkRetry (core slot : Nat)
  /-- FUTURE_WAKE (R273): A wake for a parked fget reaches its tile and the waiter becomes READY. -/
  | futureWake (core slot : Nat)
  /-- QUEUE_PACKET_START (R277): A free front-end slot starts the program of the next ready queue's packet. -/
  | queuePacketStart (core slot : Nat)
  /-- DOORBELL_WRITE (R281): An aligned 8-byte doorbell write updates a queue's LASTSEQ and WIDX or counts stale. -/
  | doorbellWrite (q : Nat) (v : BitVec 64)
  /-- RECONCILE_PASS (R282): Every 50 µs firmware applies each active queue's shadow word as a doorbell. -/
  | reconcilePass
  /-- SERVICE_INSTALL_CONTEXT (R291): Service 0x02 installs or removes an ASID's context. -/
  | serviceInstallContext (r : ServiceReq)
  /-- SERVICE_SHOOTDOWN (R114): Service 0x10 sends a TLB invalidation to every TLB on the die. -/
  | serviceShootdown (r : ServiceReq)
  /-- SHOOTDOWN_COMPLETE (R114): Once all cores acknowledge and affected stores and elements are done, the named counter receives 1. -/
  | shootdownComplete
  /-- SERVICE_CREATE_QUEUE (R278): Service 0x30 creates a queue from a queue descriptor. -/
  | serviceCreateQueue (r : ServiceReq)
  /-- SERVICE_DESTROY_QUEUE (R289): Service 0x31 makes a queue DRAINING and rolls back or aborts its launches. -/
  | serviceDestroyQueue (r : ServiceReq)
  /-- QUEUE_DESTROY_COMPLETE (R289): When the last member of the queue's gangs ends, the queue becomes FREE and the counter receives 1. -/
  | queueDestroyComplete (q : Nat)
  /-- SERVICE_LOAD_CODE_OBJECT (R290): Service 0x32 verifies, measures and registers a code object. -/
  | serviceLoadCodeObject (r : ServiceReq) (o : CodeObject)
  /-- SERVICE_MIGRATE_PAGE (R293): Service 0x33 migrates an auto page to a new domain. -/
  | serviceMigratePage (r : ServiceReq)
  /-- SERVICE_SET_FRAME_OWNER (R290): Service 0x34 sets the frame owner table. -/
  | serviceSetFrameOwner (r : ServiceReq)
  /-- SERVICE_UNKNOWN (R290): An unknown or disallowed service request is discarded with an error record. -/
  | serviceUnknown (r : ServiceReq)
  /-- THERMAL_CONTROL_TICK (R296): Every 1 ms the controller raises or lowers the shedding level and applies its actions. -/
  | thermalControlTick (temp power : Nat)
  /-- PARTITION_ENTRY_WRITE (R304): A write to a partition entry's ASID, TILES or SPILLPA is accepted or refused with ERR. -/
  | partitionEntryWrite (n : Nat) (v : BitVec 512)
  /-- PARTITION_HALT (R306): CMD HALT stops every slot of the partition at safe points. -/
  | partitionHalt (n : Nat)
  /-- PARTITION_RESUME (R305): CMD RESUME lets halted slots continue. -/
  | partitionResume (n : Nat)
  /-- PARTITION_SAVE (R307): CMD SAVE writes each tile's context into its context area. -/
  | partitionSave (n : Nat)
  /-- PARTITION_RESTORE (R305): CMD RESTORE reloads the context areas. -/
  | partitionRestore (n : Nat)
  /-- PARTITION_SPILL (R309): CMD SPILL copies the tiles' SRAM and context to DRAM and frees the tiles. -/
  | partitionSpill (n : Nat)
  /-- PARTITION_FILL (R309): CMD FILL copies a spilled area back onto the tiles TILES names. -/
  | partitionFill (n : Nat)
  /-- PARTITION_COMMAND_COMPLETE (R305): A partition command finishes, setting STATE and adding to the completion counter. -/
  | partitionCommandComplete (n : Nat)
  /-- CORRECTABLE_ERROR (R312): A correctable error is corrected, counted and recorded. -/
  | correctableError (u : ErrUnit) (addr : Nat)
  /-- UNCORRECTABLE_ERROR (R313): An uncorrectable error poisons its granule and writes a UE record. -/
  | uncorrectableError (u : ErrUnit) (addr : Nat)
  /-- FATAL_ERROR (R314): A fatal error stops dispatch, halts reasoning partitions and fences or awaits reset. -/
  | fatalError (u : ErrUnit) (addr : Nat)
  /-- ERRQ_WRITE (R317): A write to errq configures or enables the error queue. -/
  | errqWrite (v : BitVec 256)
  /-- MSIX_WINDOW_EXPIRY (R335): A 10 µs MSI-X window ends and raises the vector again if events were held. -/
  | msixWindowExpiry (vec : Nat)
  /-- DBG_HALTREQ (R321): A write setting HALTREQ stops slots at activation boundaries and holds dispatch. -/
  | dbgHaltreq (core : Nat)
  /-- DBG_RESUME (R322): A RESUME write releases every stopped slot. -/
  | dbgResume (core : Nat)
  /-- DBG_STEP (R322): A STEP write lets one stopped slot issue one instruction. -/
  | dbgStep (core : Nat)
  /-- DBG_BKSYNC (R325): A BKSYNC write starts reloading break bits from the bitmap. -/
  | dbgBksync (core : Nat)
  /-- BKSYNC_COMPLETE (R325): The break-bit reload finishes and BKBUSY clears. -/
  | bksyncComplete (core : Nat)
  /-- DBGDAT_ACCESS (R324): A dbgdat access reads or writes the selected register of a stopped slot. -/
  | dbgdatAccess (core : Nat) (w : Option (BitVec 64))
  /-- LOG_DWELL_EXPIRY (R327): A slot state that has lasted DWELL cc is written to the core log. -/
  | logDwellExpiry (core slot : Nat)
  /-- LOGCTL_WRITE (R329): A logctl write enables or configures the core log. -/
  | logctlWrite (core : Nat) (v : BitVec 64)
  /-- PMSEL_WRITE (R330): A pmsel write selects performance counter events. -/
  | pmselWrite (core : Nat) (v : BitVec 64)
  /-- TICK_ENTRY_WRITE (R199): A tick-table entry write enables, disables or reconfigures an entry. -/
  | tickEntryWrite (e : Nat) (v : BitVec 256)
  /-- MAILBOX_SLOT_WRITE (R202): A mailbox slot entry write configures or discards a slot. -/
  | mailboxSlotWrite (n : Nat) (v : BitVec 128)
  /-- GUST_POOL_WRITE (R212): A write to the Gust pool mask sets the pool when allowed. -/
  | gustPoolWrite (v : BitVec 256)
  /-- GUST_PROFILE_WRITE (R212): A profile write registers a profile and fixes its tile set, or clears it. -/
  | gustProfileWrite (p : Nat) (v : BitVec 128)
  /-- TMCTL_WRITE (R225): A tmctl write selects the time source or clears STEP. -/
  | tmctlWrite (v : BitVec 32)
  /-- TIMED_STREAM_WRITE (R226): A timed-stream entry write configures a stream and pins its window. -/
  | timedStreamWrite (stream : Nat) (v : BitVec 512)
  /-- TREE_TEMPLATE_WRITE (R245): A tree template write validates and sets or clears the template. -/
  | treeTemplateWrite (j : Nat) (v : BitVec 2048)
  /-- EVENT_TABLE_ROW_WRITE (R264): A slice event-table row write validates and enables a tenant row. -/
  | eventTableRowWrite (slice r : Nat) (v : BitVec 128)
  /-- SQCFG_WRITE (R194): A sqcfg write sets Squall's enable and threshold. -/
  | sqcfgWrite (v : BitVec 32)
  /-- SHEDCTL_WRITE (R295): A shedctl write sets the temperature limit and power envelope. -/
  | shedctlWrite (v : BitVec 32)
  /-- FEATACC_WRITE (R336): The first featacc write accepts the offered features. -/
  | feataccWrite (v : BitVec 256)
  /-- PERST_RELEASE (R337): Release of PERST# starts the boot ROM, which links port A. -/
  | perstRelease
  /-- BOOT_GO (R338): A GO write starts copying and verifying the firmware image. -/
  | bootGo
  /-- BOOT_VERIFY_COMPLETE (R337): Image verification ends, starting firmware or refusing it. -/
  | bootVerifyComplete (r : BootImage)
  /-- ATTEST_REQUEST (R340): A write to attcmd bit 0 starts an attestation report. -/
  | attestRequest
  /-- ATTEST_COMPLETE (R340): The signed report is written and BUSY clears. -/
  | attestComplete
  /-- REGISTER_WRITE (R445): A write to a device register without behaviour of its own updates its RW fields. -/
  | registerWrite (off size : Nat) (v : Nat)
  /-- REQUEST_RESPONSE (R402): The response to a request that has left the core (a load, atomic, lr, sc, future operation, remote or port access, device-register access or unit query such as gabort) arrives, performs its result and releases the waiting or interlocked slot. -/
  | requestResponse (core slot : Nat)
  /-- WRS_TIMEOUT (R496): The time limit of a parked wrs runs out and the thread wakes with xd = 2, including the fixed 1 µs on paths 0x08 and 0x09. -/
  | wrsTimeout (core slot : Nat)
  /-- BARRIER_ARRIVAL (R378): A gang barrier arrival, or an exit counted as one, reaches the placement unit, may complete the phase and wakes the members blocked in barw. -/
  | barrierArrival (i : Nat)
  /-- PERST_ASSERT (R337): The host asserts PERST# or removes power, resetting the device and losing all state. -/
  | perstAssert
  /-- SOURCE_LOCK_LOSS (R225): The selected time source stops supplying usable corrections and tmctl.LOCK clears. -/
  | sourceLockLoss
  deriving DecidableEq, Repr

end Sys2Proof
end

