-- ==== Sys2Proof/Decode.lean ====
section
/-! DEFINITION. The decoder and the encoder of the TK2's 32-bit instruction words (R342 to R357), written from the
encoding tables of the reference entries. A word is decoded by the row of its major opcode whose fixed fields it
carries; operand values that make a word illegal (R344) are refused by WellFormed, so that the trap can name them. -/

namespace Sys2Proof

/-- The `n` bits of `w` from bit `lo` upward (R1). -/
def wordField (w lo n : Nat) : Nat := w / 2 ^ lo % 2 ^ n

/-- One row of the encoding tables: the fixed fields (low bit, width, value) and the instruction built from a word. -/
structure DecodeRow where
  fixed : List (Nat × Nat × Nat)
  build : Nat → Instr

/-- The word carries every fixed field of the row. -/
def DecodeRow.fits (r : DecodeRow) (w : Nat) : Bool :=
  r.fixed.all fun f => wordField w f.1 f.2.1 == f.2.2

/-- A bit field of a word as a bit vector. -/
def wordBits (w lo n : Nat) : BitVec n := BitVec.ofNat n (wordField w lo n)

/-- The rows of major opcode 0x01, part 1 (R348). -/
def rows01a : List DecodeRow := [
  ⟨[(26, 6, 1), (0, 11, 0)], fun w => .add (wordBits w 21 5) (wordBits w 16 5) (wordBits w 11 5)⟩,
  ⟨[(26, 6, 1), (0, 11, 1)], fun w => .sub (wordBits w 21 5) (wordBits w 16 5) (wordBits w 11 5)⟩,
  ⟨[(26, 6, 1), (0, 11, 2)], fun w => .and (wordBits w 21 5) (wordBits w 16 5) (wordBits w 11 5)⟩,
  ⟨[(26, 6, 1), (0, 11, 3)], fun w => .or (wordBits w 21 5) (wordBits w 16 5) (wordBits w 11 5)⟩,
  ⟨[(26, 6, 1), (0, 11, 4)], fun w => .xor (wordBits w 21 5) (wordBits w 16 5) (wordBits w 11 5)⟩,
  ⟨[(26, 6, 1), (0, 11, 5)], fun w => .andn (wordBits w 21 5) (wordBits w 16 5) (wordBits w 11 5)⟩,
  ⟨[(26, 6, 1), (0, 11, 6)], fun w => .sll (wordBits w 21 5) (wordBits w 16 5) (wordBits w 11 5)⟩,
  ⟨[(26, 6, 1), (0, 11, 7)], fun w => .srl (wordBits w 21 5) (wordBits w 16 5) (wordBits w 11 5)⟩,
  ⟨[(26, 6, 1), (0, 11, 8)], fun w => .sra (wordBits w 21 5) (wordBits w 16 5) (wordBits w 11 5)⟩,
  ⟨[(26, 6, 1), (0, 11, 9)], fun w => .rol (wordBits w 21 5) (wordBits w 16 5) (wordBits w 11 5)⟩,
  ⟨[(26, 6, 1), (0, 11, 10)], fun w => .slt (wordBits w 21 5) (wordBits w 16 5) (wordBits w 11 5)⟩,
  ⟨[(26, 6, 1), (0, 11, 11)], fun w => .sltu (wordBits w 21 5) (wordBits w 16 5) (wordBits w 11 5)⟩,
  ⟨[(26, 6, 1), (0, 11, 12)], fun w => .min (wordBits w 21 5) (wordBits w 16 5) (wordBits w 11 5)⟩,
  ⟨[(26, 6, 1), (0, 11, 13)], fun w => .max (wordBits w 21 5) (wordBits w 16 5) (wordBits w 11 5)⟩,
  ⟨[(26, 6, 1), (0, 11, 14)], fun w => .minu (wordBits w 21 5) (wordBits w 16 5) (wordBits w 11 5)⟩,
  ⟨[(26, 6, 1), (0, 11, 15)], fun w => .maxu (wordBits w 21 5) (wordBits w 16 5) (wordBits w 11 5)⟩,
  ⟨[(26, 6, 1), (0, 11, 16)], fun w => .mul (wordBits w 21 5) (wordBits w 16 5) (wordBits w 11 5)⟩,
  ⟨[(26, 6, 1), (0, 11, 17)], fun w => .mulh (wordBits w 21 5) (wordBits w 16 5) (wordBits w 11 5)⟩,
  ⟨[(26, 6, 1), (0, 11, 18)], fun w => .mulhu (wordBits w 21 5) (wordBits w 16 5) (wordBits w 11 5)⟩,
  ⟨[(26, 6, 1), (0, 11, 19)], fun w => .div (wordBits w 21 5) (wordBits w 16 5) (wordBits w 11 5)⟩,
  ⟨[(26, 6, 1), (0, 11, 20)], fun w => .divu (wordBits w 21 5) (wordBits w 16 5) (wordBits w 11 5)⟩,
  ⟨[(26, 6, 1), (0, 11, 21)], fun w => .rem (wordBits w 21 5) (wordBits w 16 5) (wordBits w 11 5)⟩,
  ⟨[(26, 6, 1), (0, 11, 22)], fun w => .remu (wordBits w 21 5) (wordBits w 16 5) (wordBits w 11 5)⟩,
  ⟨[(26, 6, 1), (0, 16, 24)], fun w => .clz (wordBits w 21 5) (wordBits w 16 5)⟩]

/-- The rows of major opcode 0x01, part 2 (R348). -/
def rows01b : List DecodeRow := [
  ⟨[(26, 6, 1), (0, 16, 25)], fun w => .ctz (wordBits w 21 5) (wordBits w 16 5)⟩,
  ⟨[(26, 6, 1), (0, 16, 26)], fun w => .popc (wordBits w 21 5) (wordBits w 16 5)⟩,
  ⟨[(26, 6, 1), (0, 16, 27)], fun w => .sextB (wordBits w 21 5) (wordBits w 16 5)⟩,
  ⟨[(26, 6, 1), (0, 16, 28)], fun w => .sextH (wordBits w 21 5) (wordBits w 16 5)⟩,
  ⟨[(26, 6, 1), (0, 16, 29)], fun w => .zextB (wordBits w 21 5) (wordBits w 16 5)⟩,
  ⟨[(26, 6, 1), (0, 16, 30)], fun w => .zextH (wordBits w 21 5) (wordBits w 16 5)⟩,
  ⟨[(26, 6, 1), (0, 11, 32)], fun w => .bfx (wordBits w 21 5) (wordBits w 16 5) (wordBits w 11 5)⟩,
  ⟨[(26, 6, 1), (0, 11, 33)], fun w => .bfi (wordBits w 21 5) (wordBits w 16 5) (wordBits w 11 5)⟩]

/-- The rows of major opcode 0x02 (R348). -/
def rows02 : List DecodeRow := [
  ⟨[(26, 6, 2)], fun w => .addi (wordBits w 21 5) (wordBits w 16 5) (wordBits w 0 16)⟩]

/-- The rows of major opcode 0x03 (R348). -/
def rows03 : List DecodeRow := [
  ⟨[(26, 6, 3)], fun w => .andi (wordBits w 21 5) (wordBits w 16 5) (wordBits w 0 16)⟩]

/-- The rows of major opcode 0x04 (R348). -/
def rows04 : List DecodeRow := [
  ⟨[(26, 6, 4)], fun w => .ori (wordBits w 21 5) (wordBits w 16 5) (wordBits w 0 16)⟩]

/-- The rows of major opcode 0x05 (R348). -/
def rows05 : List DecodeRow := [
  ⟨[(26, 6, 5)], fun w => .xori (wordBits w 21 5) (wordBits w 16 5) (wordBits w 0 16)⟩]

/-- The rows of major opcode 0x06 (R348). -/
def rows06 : List DecodeRow := [
  ⟨[(26, 6, 6)], fun w => .slti (wordBits w 21 5) (wordBits w 16 5) (wordBits w 0 16)⟩]

/-- The rows of major opcode 0x07 (R348). -/
def rows07 : List DecodeRow := [
  ⟨[(26, 6, 7)], fun w => .sltiu (wordBits w 21 5) (wordBits w 16 5) (wordBits w 0 16)⟩]

/-- The rows of major opcode 0x08 (R348). -/
def rows08 : List DecodeRow := [
  ⟨[(26, 6, 8), (16, 5, 0)], fun w => .lui (wordBits w 21 5) (wordBits w 0 16)⟩]

/-- The rows of major opcode 0x09 (R348). -/
def rows09 : List DecodeRow := [
  ⟨[(26, 6, 9), (5, 11, 0)], fun w => .slli (wordBits w 21 5) (wordBits w 16 5) (wordBits w 0 5)⟩,
  ⟨[(26, 6, 9), (5, 11, 1)], fun w => .srli (wordBits w 21 5) (wordBits w 16 5) (wordBits w 0 5)⟩,
  ⟨[(26, 6, 9), (5, 11, 2)], fun w => .srai (wordBits w 21 5) (wordBits w 16 5) (wordBits w 0 5)⟩]

/-- The rows of major opcode 0x0A (R348). -/
def rows0A : List DecodeRow := [
  ⟨[(26, 6, 10)], fun w => .addpi (wordBits w 21 5) (wordBits w 16 5) (wordBits w 0 16)⟩]

/-- The rows of major opcode 0x0B (R348). -/
def rows0B : List DecodeRow := [
  ⟨[(26, 6, 11), (0, 11, 0)], fun w => .addp (wordBits w 21 5) (wordBits w 16 5) (wordBits w 11 5)⟩,
  ⟨[(26, 6, 11), (0, 11, 1)], fun w => .subp (wordBits w 21 5) (wordBits w 16 5) (wordBits w 11 5)⟩,
  ⟨[(26, 6, 11), (0, 16, 2)], fun w => .movp (wordBits w 21 5) (wordBits w 16 5)⟩]

/-- The rows of major opcode 0x10 (R348). -/
def rows10 : List DecodeRow := [
  ⟨[(26, 6, 16)], fun w => .beq (wordBits w 21 5) (wordBits w 16 5) (wordBits w 0 16)⟩]

/-- The rows of major opcode 0x11 (R348). -/
def rows11 : List DecodeRow := [
  ⟨[(26, 6, 17)], fun w => .bne (wordBits w 21 5) (wordBits w 16 5) (wordBits w 0 16)⟩]

/-- The rows of major opcode 0x12 (R348). -/
def rows12 : List DecodeRow := [
  ⟨[(26, 6, 18)], fun w => .blt (wordBits w 21 5) (wordBits w 16 5) (wordBits w 0 16)⟩]

/-- The rows of major opcode 0x13 (R348). -/
def rows13 : List DecodeRow := [
  ⟨[(26, 6, 19)], fun w => .bge (wordBits w 21 5) (wordBits w 16 5) (wordBits w 0 16)⟩]

/-- The rows of major opcode 0x14 (R348). -/
def rows14 : List DecodeRow := [
  ⟨[(26, 6, 20)], fun w => .bltu (wordBits w 21 5) (wordBits w 16 5) (wordBits w 0 16)⟩]

/-- The rows of major opcode 0x15 (R348). -/
def rows15 : List DecodeRow := [
  ⟨[(26, 6, 21)], fun w => .bgeu (wordBits w 21 5) (wordBits w 16 5) (wordBits w 0 16)⟩]

/-- The rows of major opcode 0x16 (R348). -/
def rows16 : List DecodeRow := [
  ⟨[(24, 8, 88), (16, 5, 0)], fun w => .bkany (wordBits w 21 3) (wordBits w 0 16)⟩,
  ⟨[(24, 8, 89), (16, 5, 0)], fun w => .bkall (wordBits w 21 3) (wordBits w 0 16)⟩,
  ⟨[(24, 8, 90), (16, 5, 0)], fun w => .bknone (wordBits w 21 3) (wordBits w 0 16)⟩]

/-- The rows of major opcode 0x17 (R348). -/
def rows17 : List DecodeRow := [
  ⟨[(26, 6, 23), (16, 5, 0)], fun w => .bceos (wordBits w 21 5) (wordBits w 0 16)⟩]

/-- The rows of major opcode 0x18 (R348). -/
def rows18 : List DecodeRow := [
  ⟨[(25, 7, 48)], fun w => .j (wordBits w 0 25)⟩,
  ⟨[(25, 7, 49)], fun w => .jal (wordBits w 0 25)⟩]

/-- The rows of major opcode 0x19 (R348). -/
def rows19 : List DecodeRow := [
  ⟨[(26, 6, 25), (10, 6, 0)], fun w => .jalr (wordBits w 21 5) (wordBits w 16 5) (wordBits w 0 10)⟩,
  ⟨[(26, 6, 25), (10, 6, 1)], fun w => .jalrFar (wordBits w 21 5) (wordBits w 16 5) (wordBits w 0 10)⟩]

/-- The rows of major opcode 0x1A (R348). -/
def rows1A : List DecodeRow := [
  ⟨[(26, 6, 26), (16, 5, 0)], fun w => .dbnz (wordBits w 21 5) (wordBits w 0 16)⟩]

/-- The rows of major opcode 0x20 (R348). -/
def rows20 : List DecodeRow := [
  ⟨[(26, 6, 32), (15, 2, 0)], fun w => .lb (wordBits w 21 5) (wordBits w 17 4) (wordBits w 0 15)⟩]

/-- The rows of major opcode 0x21 (R348). -/
def rows21 : List DecodeRow := [
  ⟨[(26, 6, 33), (15, 2, 0)], fun w => .lbu (wordBits w 21 5) (wordBits w 17 4) (wordBits w 0 15)⟩]

/-- The rows of major opcode 0x22 (R348). -/
def rows22 : List DecodeRow := [
  ⟨[(26, 6, 34), (15, 2, 0)], fun w => .lh (wordBits w 21 5) (wordBits w 17 4) (wordBits w 0 15)⟩]

/-- The rows of major opcode 0x23 (R348). -/
def rows23 : List DecodeRow := [
  ⟨[(26, 6, 35), (15, 2, 0)], fun w => .lhu (wordBits w 21 5) (wordBits w 17 4) (wordBits w 0 15)⟩]

/-- The rows of major opcode 0x24 (R348). -/
def rows24 : List DecodeRow := [
  ⟨[(26, 6, 36), (15, 2, 0)], fun w => .lw (wordBits w 21 5) (wordBits w 17 4) (wordBits w 0 15)⟩]

/-- The rows of major opcode 0x25 (R348). -/
def rows25 : List DecodeRow := [
  ⟨[(26, 6, 37), (15, 2, 0)], fun w => .ld (wordBits w 21 5) (wordBits w 17 4) (wordBits w 0 15)⟩]

/-- The rows of major opcode 0x26 (R348). -/
def rows26 : List DecodeRow := [
  ⟨[(26, 6, 38), (15, 2, 0)], fun w => .sb (wordBits w 21 5) (wordBits w 17 4) (wordBits w 0 15)⟩]

/-- The rows of major opcode 0x27 (R348). -/
def rows27 : List DecodeRow := [
  ⟨[(26, 6, 39), (15, 2, 0)], fun w => .sh (wordBits w 21 5) (wordBits w 17 4) (wordBits w 0 15)⟩]

/-- The rows of major opcode 0x28 (R348). -/
def rows28 : List DecodeRow := [
  ⟨[(26, 6, 40), (15, 2, 0)], fun w => .sw (wordBits w 21 5) (wordBits w 17 4) (wordBits w 0 15)⟩]

/-- The rows of major opcode 0x29 (R348). -/
def rows29 : List DecodeRow := [
  ⟨[(26, 6, 41), (15, 2, 0)], fun w => .sd (wordBits w 21 5) (wordBits w 17 4) (wordBits w 0 15)⟩]

/-- The rows of major opcode 0x2A (R348). -/
def rows2A : List DecodeRow := [
  ⟨[(26, 6, 42)], fun w => .vld (wordBits w 21 5) (wordBits w 17 4) (wordBits w 15 2) (wordBits w 0 15)⟩]

/-- The rows of major opcode 0x2B (R348). -/
def rows2B : List DecodeRow := [
  ⟨[(26, 6, 43)], fun w => .vst (wordBits w 21 5) (wordBits w 17 4) (wordBits w 15 2) (wordBits w 0 15)⟩]

/-- The rows of major opcode 0x2C (R348). -/
def rows2C : List DecodeRow := [
  ⟨[(21, 11, 1408)], fun w => .pf (wordBits w 17 4) (wordBits w 15 2) (wordBits w 0 15)⟩]

/-- The rows of major opcode 0x2D, part 1 (R348). -/
def rows2Da : List DecodeRow := [
  ⟨[(26, 6, 45), (4, 7, 0)], fun w => .amoaddW (wordBits w 21 5) (wordBits w 16 5) (wordBits w 11 5) (wordBits w 2 2) (wordBits w 1 1) (wordBits w 0 1)⟩,
  ⟨[(26, 6, 45), (4, 7, 16)], fun w => .amoaddD (wordBits w 21 5) (wordBits w 16 5) (wordBits w 11 5) (wordBits w 2 2) (wordBits w 1 1) (wordBits w 0 1)⟩,
  ⟨[(26, 6, 45), (4, 7, 1)], fun w => .amoandW (wordBits w 21 5) (wordBits w 16 5) (wordBits w 11 5) (wordBits w 2 2) (wordBits w 1 1) (wordBits w 0 1)⟩,
  ⟨[(26, 6, 45), (4, 7, 17)], fun w => .amoandD (wordBits w 21 5) (wordBits w 16 5) (wordBits w 11 5) (wordBits w 2 2) (wordBits w 1 1) (wordBits w 0 1)⟩,
  ⟨[(26, 6, 45), (4, 7, 2)], fun w => .amoorW (wordBits w 21 5) (wordBits w 16 5) (wordBits w 11 5) (wordBits w 2 2) (wordBits w 1 1) (wordBits w 0 1)⟩,
  ⟨[(26, 6, 45), (4, 7, 18)], fun w => .amoorD (wordBits w 21 5) (wordBits w 16 5) (wordBits w 11 5) (wordBits w 2 2) (wordBits w 1 1) (wordBits w 0 1)⟩,
  ⟨[(26, 6, 45), (4, 7, 3)], fun w => .amoxorW (wordBits w 21 5) (wordBits w 16 5) (wordBits w 11 5) (wordBits w 2 2) (wordBits w 1 1) (wordBits w 0 1)⟩,
  ⟨[(26, 6, 45), (4, 7, 19)], fun w => .amoxorD (wordBits w 21 5) (wordBits w 16 5) (wordBits w 11 5) (wordBits w 2 2) (wordBits w 1 1) (wordBits w 0 1)⟩,
  ⟨[(26, 6, 45), (4, 7, 4)], fun w => .amominW (wordBits w 21 5) (wordBits w 16 5) (wordBits w 11 5) (wordBits w 2 2) (wordBits w 1 1) (wordBits w 0 1)⟩,
  ⟨[(26, 6, 45), (4, 7, 20)], fun w => .amominD (wordBits w 21 5) (wordBits w 16 5) (wordBits w 11 5) (wordBits w 2 2) (wordBits w 1 1) (wordBits w 0 1)⟩,
  ⟨[(26, 6, 45), (4, 7, 5)], fun w => .amomaxW (wordBits w 21 5) (wordBits w 16 5) (wordBits w 11 5) (wordBits w 2 2) (wordBits w 1 1) (wordBits w 0 1)⟩,
  ⟨[(26, 6, 45), (4, 7, 21)], fun w => .amomaxD (wordBits w 21 5) (wordBits w 16 5) (wordBits w 11 5) (wordBits w 2 2) (wordBits w 1 1) (wordBits w 0 1)⟩,
  ⟨[(26, 6, 45), (4, 7, 6)], fun w => .amominuW (wordBits w 21 5) (wordBits w 16 5) (wordBits w 11 5) (wordBits w 2 2) (wordBits w 1 1) (wordBits w 0 1)⟩,
  ⟨[(26, 6, 45), (4, 7, 22)], fun w => .amominuD (wordBits w 21 5) (wordBits w 16 5) (wordBits w 11 5) (wordBits w 2 2) (wordBits w 1 1) (wordBits w 0 1)⟩,
  ⟨[(26, 6, 45), (4, 7, 7)], fun w => .amomaxuW (wordBits w 21 5) (wordBits w 16 5) (wordBits w 11 5) (wordBits w 2 2) (wordBits w 1 1) (wordBits w 0 1)⟩,
  ⟨[(26, 6, 45), (4, 7, 23)], fun w => .amomaxuD (wordBits w 21 5) (wordBits w 16 5) (wordBits w 11 5) (wordBits w 2 2) (wordBits w 1 1) (wordBits w 0 1)⟩,
  ⟨[(26, 6, 45), (4, 7, 8)], fun w => .amoswapW (wordBits w 21 5) (wordBits w 16 5) (wordBits w 11 5) (wordBits w 2 2) (wordBits w 1 1) (wordBits w 0 1)⟩,
  ⟨[(26, 6, 45), (4, 7, 24)], fun w => .amoswapD (wordBits w 21 5) (wordBits w 16 5) (wordBits w 11 5) (wordBits w 2 2) (wordBits w 1 1) (wordBits w 0 1)⟩,
  ⟨[(26, 6, 45), (4, 7, 9)], fun w => .amofadd (wordBits w 21 5) (wordBits w 16 5) (wordBits w 11 5) (wordBits w 2 2) (wordBits w 1 1) (wordBits w 0 1)⟩,
  ⟨[(26, 6, 45), (4, 7, 10)], fun w => .casW (wordBits w 21 5) (wordBits w 16 5) (wordBits w 11 5) (wordBits w 2 2) (wordBits w 1 1) (wordBits w 0 1)⟩,
  ⟨[(26, 6, 45), (4, 7, 26)], fun w => .casD (wordBits w 21 5) (wordBits w 16 5) (wordBits w 11 5) (wordBits w 2 2) (wordBits w 1 1) (wordBits w 0 1)⟩,
  ⟨[(26, 6, 45), (4, 12, 11)], fun w => .lrW (wordBits w 21 5) (wordBits w 16 5) (wordBits w 2 2) (wordBits w 1 1) (wordBits w 0 1)⟩,
  ⟨[(26, 6, 45), (4, 12, 27)], fun w => .lrD (wordBits w 21 5) (wordBits w 16 5) (wordBits w 2 2) (wordBits w 1 1) (wordBits w 0 1)⟩,
  ⟨[(26, 6, 45), (4, 7, 12)], fun w => .scW (wordBits w 21 5) (wordBits w 16 5) (wordBits w 11 5) (wordBits w 2 2) (wordBits w 1 1) (wordBits w 0 1)⟩]

/-- The rows of major opcode 0x2D, part 2 (R348). -/
def rows2Db : List DecodeRow := [
  ⟨[(26, 6, 45), (4, 7, 28)], fun w => .scD (wordBits w 21 5) (wordBits w 16 5) (wordBits w 11 5) (wordBits w 2 2) (wordBits w 1 1) (wordBits w 0 1)⟩,
  ⟨[(18, 14, 11520), (13, 3, 0), (4, 7, 32), (0, 2, 0)], fun w => .fence (wordBits w 16 2) (wordBits w 11 2) (wordBits w 2 2)⟩,
  ⟨[(0, 32, 3019899408)], fun _ => .fencei⟩,
  ⟨[(26, 6, 45), (4, 12, 34), (0, 2, 0)], fun w => .barv (wordBits w 21 5) (wordBits w 16 5) (wordBits w 2 2)⟩,
  ⟨[(21, 11, 1440), (4, 7, 35), (0, 2, 0)], fun w => .barw (wordBits w 16 5) (wordBits w 11 5) (wordBits w 2 2)⟩,
  ⟨[(0, 32, 3019899456)], fun _ => .trig⟩,
  ⟨[(26, 6, 45), (0, 21, 592)], fun w => .waitdep (wordBits w 21 5)⟩,
  ⟨[(26, 6, 45), (0, 16, 608)], fun w => .wrs (wordBits w 21 5) (wordBits w 16 5)⟩,
  ⟨[(26, 6, 45), (0, 11, 1536)], fun w => .fput (wordBits w 21 5) (wordBits w 16 5) (wordBits w 11 5)⟩,
  ⟨[(26, 6, 45), (0, 16, 1600)], fun w => .fget (wordBits w 21 5) (wordBits w 16 5)⟩,
  ⟨[(26, 6, 45), (0, 16, 1664)], fun w => .freset (wordBits w 21 5) (wordBits w 16 5)⟩]

/-- The rows of major opcode 0x30 (R348). -/
def rows30 : List DecodeRow := [
  ⟨[(26, 6, 48), (0, 4, 0)], fun w => .vadd (wordBits w 21 5) (wordBits w 16 5) (wordBits w 11 5) (wordBits w 8 3) (wordBits w 5 3) (wordBits w 4 1)⟩,
  ⟨[(26, 6, 48), (0, 4, 1)], fun w => .vsub (wordBits w 21 5) (wordBits w 16 5) (wordBits w 11 5) (wordBits w 8 3) (wordBits w 5 3) (wordBits w 4 1)⟩,
  ⟨[(26, 6, 48), (0, 4, 2)], fun w => .vmul (wordBits w 21 5) (wordBits w 16 5) (wordBits w 11 5) (wordBits w 8 3) (wordBits w 5 3) (wordBits w 4 1)⟩,
  ⟨[(26, 6, 48), (0, 4, 3)], fun w => .vmin (wordBits w 21 5) (wordBits w 16 5) (wordBits w 11 5) (wordBits w 8 3) (wordBits w 5 3) (wordBits w 4 1)⟩,
  ⟨[(26, 6, 48), (0, 4, 4)], fun w => .vmax (wordBits w 21 5) (wordBits w 16 5) (wordBits w 11 5) (wordBits w 8 3) (wordBits w 5 3) (wordBits w 4 1)⟩,
  ⟨[(26, 6, 48), (11, 5, 0), (0, 5, 5)], fun w => .vabs (wordBits w 21 5) (wordBits w 16 5) (wordBits w 8 3) (wordBits w 5 3)⟩,
  ⟨[(26, 6, 48), (11, 5, 0), (0, 5, 6)], fun w => .vneg (wordBits w 21 5) (wordBits w 16 5) (wordBits w 8 3) (wordBits w 5 3)⟩,
  ⟨[(26, 6, 48), (0, 5, 7)], fun w => .vand (wordBits w 21 5) (wordBits w 16 5) (wordBits w 11 5) (wordBits w 8 3) (wordBits w 5 3)⟩,
  ⟨[(26, 6, 48), (0, 5, 8)], fun w => .vor (wordBits w 21 5) (wordBits w 16 5) (wordBits w 11 5) (wordBits w 8 3) (wordBits w 5 3)⟩,
  ⟨[(26, 6, 48), (0, 5, 9)], fun w => .vxor (wordBits w 21 5) (wordBits w 16 5) (wordBits w 11 5) (wordBits w 8 3) (wordBits w 5 3)⟩,
  ⟨[(26, 6, 48), (0, 5, 10)], fun w => .vandn (wordBits w 21 5) (wordBits w 16 5) (wordBits w 11 5) (wordBits w 8 3) (wordBits w 5 3)⟩,
  ⟨[(26, 6, 48), (0, 5, 11)], fun w => .vsll (wordBits w 21 5) (wordBits w 16 5) (wordBits w 11 5) (wordBits w 8 3) (wordBits w 5 3)⟩,
  ⟨[(26, 6, 48), (0, 5, 12)], fun w => .vsrl (wordBits w 21 5) (wordBits w 16 5) (wordBits w 11 5) (wordBits w 8 3) (wordBits w 5 3)⟩,
  ⟨[(26, 6, 48), (0, 5, 13)], fun w => .vsra (wordBits w 21 5) (wordBits w 16 5) (wordBits w 11 5) (wordBits w 8 3) (wordBits w 5 3)⟩,
  ⟨[(26, 6, 48), (0, 4, 14)], fun w => .vclamp (wordBits w 21 5) (wordBits w 16 5) (wordBits w 11 5) (wordBits w 8 3) (wordBits w 5 3) (wordBits w 4 1)⟩,
  ⟨[(26, 6, 48), (0, 4, 15)], fun w => .vdot (wordBits w 21 5) (wordBits w 16 5) (wordBits w 11 5) (wordBits w 8 3) (wordBits w 5 3) (wordBits w 4 1)⟩]

/-- The rows of major opcode 0x31 (R348). -/
def rows31 : List DecodeRow := [
  ⟨[(26, 6, 49), (0, 5, 0)], fun w => .vaddF (wordBits w 21 5) (wordBits w 16 5) (wordBits w 11 5) (wordBits w 8 3) (wordBits w 5 3)⟩,
  ⟨[(26, 6, 49), (0, 5, 1)], fun w => .vsubF (wordBits w 21 5) (wordBits w 16 5) (wordBits w 11 5) (wordBits w 8 3) (wordBits w 5 3)⟩,
  ⟨[(26, 6, 49), (0, 5, 2)], fun w => .vmulF (wordBits w 21 5) (wordBits w 16 5) (wordBits w 11 5) (wordBits w 8 3) (wordBits w 5 3)⟩,
  ⟨[(26, 6, 49), (0, 5, 3)], fun w => .vminF (wordBits w 21 5) (wordBits w 16 5) (wordBits w 11 5) (wordBits w 8 3) (wordBits w 5 3)⟩,
  ⟨[(26, 6, 49), (0, 5, 4)], fun w => .vmaxF (wordBits w 21 5) (wordBits w 16 5) (wordBits w 11 5) (wordBits w 8 3) (wordBits w 5 3)⟩,
  ⟨[(26, 6, 49), (11, 5, 0), (0, 5, 5)], fun w => .vabsF (wordBits w 21 5) (wordBits w 16 5) (wordBits w 8 3) (wordBits w 5 3)⟩,
  ⟨[(26, 6, 49), (11, 5, 0), (0, 5, 6)], fun w => .vnegF (wordBits w 21 5) (wordBits w 16 5) (wordBits w 8 3) (wordBits w 5 3)⟩,
  ⟨[(26, 6, 49), (0, 5, 7)], fun w => .vfma (wordBits w 21 5) (wordBits w 16 5) (wordBits w 11 5) (wordBits w 8 3) (wordBits w 5 3)⟩,
  ⟨[(26, 6, 49), (0, 5, 8)], fun w => .vfms (wordBits w 21 5) (wordBits w 16 5) (wordBits w 11 5) (wordBits w 8 3) (wordBits w 5 3)⟩,
  ⟨[(26, 6, 49), (0, 5, 9)], fun w => .vclampF (wordBits w 21 5) (wordBits w 16 5) (wordBits w 11 5) (wordBits w 8 3) (wordBits w 5 3)⟩,
  ⟨[(26, 6, 49), (0, 5, 10)], fun w => .vdotF (wordBits w 21 5) (wordBits w 16 5) (wordBits w 11 5) (wordBits w 8 3) (wordBits w 5 3)⟩]

/-- The rows of major opcode 0x32 (R348). -/
def rows32 : List DecodeRow := [
  ⟨[(24, 8, 200), (0, 4, 0)], fun w => .vcmpEq (wordBits w 21 3) (wordBits w 16 5) (wordBits w 11 5) (wordBits w 8 3) (wordBits w 5 3) (wordBits w 4 1)⟩,
  ⟨[(24, 8, 200), (0, 4, 1)], fun w => .vcmpNe (wordBits w 21 3) (wordBits w 16 5) (wordBits w 11 5) (wordBits w 8 3) (wordBits w 5 3) (wordBits w 4 1)⟩,
  ⟨[(24, 8, 200), (0, 4, 2)], fun w => .vcmpLt (wordBits w 21 3) (wordBits w 16 5) (wordBits w 11 5) (wordBits w 8 3) (wordBits w 5 3) (wordBits w 4 1)⟩,
  ⟨[(24, 8, 200), (0, 4, 3)], fun w => .vcmpLe (wordBits w 21 3) (wordBits w 16 5) (wordBits w 11 5) (wordBits w 8 3) (wordBits w 5 3) (wordBits w 4 1)⟩,
  ⟨[(24, 8, 200), (0, 4, 4)], fun w => .vcmpGt (wordBits w 21 3) (wordBits w 16 5) (wordBits w 11 5) (wordBits w 8 3) (wordBits w 5 3) (wordBits w 4 1)⟩,
  ⟨[(24, 8, 200), (0, 4, 5)], fun w => .vcmpGe (wordBits w 21 3) (wordBits w 16 5) (wordBits w 11 5) (wordBits w 8 3) (wordBits w 5 3) (wordBits w 4 1)⟩,
  ⟨[(26, 6, 50), (0, 5, 6)], fun w => .vsel (wordBits w 21 5) (wordBits w 16 5) (wordBits w 11 5) (wordBits w 8 3) (wordBits w 5 3)⟩,
  ⟨[(26, 6, 50), (19, 2, 0), (0, 16, 7)], fun w => .kmovX (wordBits w 21 5) (wordBits w 16 3)⟩,
  ⟨[(24, 8, 200), (19, 2, 0), (14, 2, 0), (0, 11, 8)], fun w => .kand (wordBits w 21 3) (wordBits w 16 3) (wordBits w 11 3)⟩,
  ⟨[(24, 8, 200), (19, 2, 0), (14, 2, 0), (0, 11, 9)], fun w => .kor (wordBits w 21 3) (wordBits w 16 3) (wordBits w 11 3)⟩,
  ⟨[(24, 8, 200), (19, 2, 0), (14, 2, 0), (0, 11, 10)], fun w => .kxor (wordBits w 21 3) (wordBits w 16 3) (wordBits w 11 3)⟩,
  ⟨[(24, 8, 200), (19, 2, 0), (0, 16, 11)], fun w => .knot (wordBits w 21 3) (wordBits w 16 3)⟩,
  ⟨[(24, 8, 200), (19, 2, 0), (0, 16, 12)], fun w => .kmovK (wordBits w 21 3) (wordBits w 16 3)⟩,
  ⟨[(26, 6, 50), (19, 2, 0), (0, 16, 13)], fun w => .kpopc (wordBits w 21 5) (wordBits w 16 3)⟩,
  ⟨[(26, 6, 50), (19, 2, 0), (0, 16, 14)], fun w => .kfirst (wordBits w 21 5) (wordBits w 16 3)⟩,
  ⟨[(24, 8, 200), (0, 16, 15)], fun w => .kgen (wordBits w 21 3) (wordBits w 16 5)⟩]

/-- The rows of major opcode 0x33 (R348). -/
def rows33 : List DecodeRow := [
  ⟨[(26, 6, 51), (15, 1, 0), (4, 4, 0)], fun w => .vcvt (wordBits w 21 5) (wordBits w 16 5) (wordBits w 11 4) (wordBits w 8 3) (wordBits w 0 4)⟩,
  ⟨[(26, 6, 51), (11, 5, 0), (0, 5, 16)], fun w => .vexp2 (wordBits w 21 5) (wordBits w 16 5) (wordBits w 8 3) (wordBits w 5 3)⟩,
  ⟨[(26, 6, 51), (11, 5, 0), (0, 5, 17)], fun w => .vlog2 (wordBits w 21 5) (wordBits w 16 5) (wordBits w 8 3) (wordBits w 5 3)⟩,
  ⟨[(26, 6, 51), (11, 5, 0), (0, 5, 18)], fun w => .vrcp (wordBits w 21 5) (wordBits w 16 5) (wordBits w 8 3) (wordBits w 5 3)⟩,
  ⟨[(26, 6, 51), (11, 5, 0), (0, 5, 19)], fun w => .vrsqrt (wordBits w 21 5) (wordBits w 16 5) (wordBits w 8 3) (wordBits w 5 3)⟩,
  ⟨[(26, 6, 51), (11, 5, 0), (0, 5, 20)], fun w => .vpopc (wordBits w 21 5) (wordBits w 16 5) (wordBits w 8 3) (wordBits w 5 3)⟩]

/-- The rows of major opcode 0x34 (R348). -/
def rows34 : List DecodeRow := [
  ⟨[(26, 6, 52), (11, 5, 0), (0, 4, 0)], fun w => .vredsum (wordBits w 21 5) (wordBits w 16 5) (wordBits w 8 3) (wordBits w 5 3) (wordBits w 4 1)⟩,
  ⟨[(26, 6, 52), (11, 5, 0), (0, 4, 1)], fun w => .vredmax (wordBits w 21 5) (wordBits w 16 5) (wordBits w 8 3) (wordBits w 5 3) (wordBits w 4 1)⟩,
  ⟨[(26, 6, 52), (11, 5, 0), (0, 4, 2)], fun w => .vredmin (wordBits w 21 5) (wordBits w 16 5) (wordBits w 8 3) (wordBits w 5 3) (wordBits w 4 1)⟩,
  ⟨[(26, 6, 52), (11, 5, 0), (0, 4, 3)], fun w => .vargmax (wordBits w 21 5) (wordBits w 16 5) (wordBits w 8 3) (wordBits w 5 3) (wordBits w 4 1)⟩,
  ⟨[(26, 6, 52), (11, 5, 0), (0, 5, 4)], fun w => .vscan (wordBits w 21 5) (wordBits w 16 5) (wordBits w 8 3) (wordBits w 5 3)⟩,
  ⟨[(26, 6, 52), (0, 5, 5)], fun w => .vperm (wordBits w 21 5) (wordBits w 16 5) (wordBits w 11 5) (wordBits w 8 3) (wordBits w 5 3)⟩,
  ⟨[(26, 6, 52), (0, 5, 6)], fun w => .vslide (wordBits w 21 5) (wordBits w 16 5) (wordBits w 11 5) (wordBits w 8 3) (wordBits w 5 3)⟩,
  ⟨[(26, 6, 52), (0, 4, 7)], fun w => .vtopk (wordBits w 21 5) (wordBits w 16 5) (wordBits w 11 5) (wordBits w 8 3) (wordBits w 5 3) (wordBits w 4 1)⟩,
  ⟨[(26, 6, 52), (11, 5, 0), (0, 5, 8)], fun w => .vbcast (wordBits w 21 5) (wordBits w 16 5) (wordBits w 8 3) (wordBits w 5 3)⟩,
  ⟨[(26, 6, 52), (8, 3, 0), (0, 5, 9)], fun w => .vmvx (wordBits w 21 5) (wordBits w 16 5) (wordBits w 11 5) (wordBits w 5 3)⟩,
  ⟨[(26, 6, 52), (8, 3, 0), (0, 5, 10)], fun w => .vins (wordBits w 21 5) (wordBits w 16 5) (wordBits w 11 5) (wordBits w 5 3)⟩,
  ⟨[(26, 6, 52), (11, 5, 0), (0, 5, 11)], fun w => .vmov (wordBits w 21 5) (wordBits w 16 5) (wordBits w 8 3) (wordBits w 5 3)⟩]

/-- The rows of major opcode 0x35 (R348). -/
def rows35 : List DecodeRow := [
  ⟨[(26, 6, 53), (0, 5, 0)], fun w => .vldg (wordBits w 21 5) (wordBits w 16 5) (wordBits w 11 5) (wordBits w 8 3) (wordBits w 5 3)⟩,
  ⟨[(26, 6, 53), (0, 5, 1)], fun w => .vsts (wordBits w 21 5) (wordBits w 16 5) (wordBits w 11 5) (wordBits w 8 3) (wordBits w 5 3)⟩]

/-- The rows of major opcode 0x38, part 1 (R348). -/
def rows38a : List DecodeRow := [
  ⟨[(21, 11, 1792), (0, 11, 1)], fun w => .mma (wordBits w 16 5) (wordBits w 11 5)⟩,
  ⟨[(21, 11, 1792), (0, 11, 2)], fun w => .mmv (wordBits w 16 5) (wordBits w 11 5)⟩,
  ⟨[(21, 11, 1792), (0, 11, 3)], fun w => .mldb (wordBits w 16 5) (wordBits w 11 5)⟩,
  ⟨[(21, 11, 1792), (0, 11, 4)], fun w => .mldbS (wordBits w 16 5) (wordBits w 11 5)⟩,
  ⟨[(21, 11, 1792), (0, 11, 5)], fun w => .mst (wordBits w 16 5) (wordBits w 11 5)⟩,
  ⟨[(26, 6, 56), (0, 11, 6)], fun w => .mrd (wordBits w 21 5) (wordBits w 16 5) (wordBits w 11 5)⟩,
  ⟨[(16, 16, 57344), (0, 11, 7)], fun w => .mzero (wordBits w 11 5)⟩,
  ⟨[(26, 6, 56), (0, 11, 8)], fun w => .mring (wordBits w 21 5) (wordBits w 16 5) (wordBits w 11 5)⟩,
  ⟨[(26, 6, 56), (0, 16, 257)], fun w => .mvgo (wordBits w 21 5) (wordBits w 16 5)⟩,
  ⟨[(26, 6, 56), (0, 16, 258)], fun w => .mvred (wordBits w 21 5) (wordBits w 16 5)⟩,
  ⟨[(26, 6, 56), (0, 16, 259)], fun w => .mvst (wordBits w 21 5) (wordBits w 16 5)⟩,
  ⟨[(21, 11, 1792), (0, 16, 260)], fun w => .mvkill (wordBits w 16 5)⟩,
  ⟨[(26, 6, 56), (0, 11, 261)], fun w => .sbind (wordBits w 21 5) (wordBits w 16 5) (wordBits w 11 5)⟩,
  ⟨[(26, 6, 56), (0, 11, 262)], fun w => .cbind (wordBits w 21 5) (wordBits w 16 5) (wordBits w 11 5)⟩,
  ⟨[(26, 6, 56), (0, 21, 263)], fun w => .sunbind (wordBits w 21 5)⟩,
  ⟨[(26, 6, 56), (0, 21, 264)], fun w => .cret (wordBits w 21 5)⟩,
  ⟨[(26, 6, 56), (0, 21, 265)], fun w => .ceos (wordBits w 21 5)⟩,
  ⟨[(26, 6, 56), (0, 11, 513)], fun w => .cwait (wordBits w 21 5) (wordBits w 16 5) (wordBits w 11 5)⟩,
  ⟨[(21, 11, 1792), (0, 11, 514)], fun w => .cadd (wordBits w 16 5) (wordBits w 11 5)⟩,
  ⟨[(21, 11, 1792), (0, 11, 515)], fun w => .cset (wordBits w 16 5) (wordBits w 11 5)⟩,
  ⟨[(26, 6, 56), (0, 16, 516)], fun w => .crd (wordBits w 21 5) (wordBits w 16 5)⟩,
  ⟨[(24, 8, 224), (0, 16, 769)], fun w => .mw (wordBits w 21 3) (wordBits w 16 5)⟩,
  ⟨[(26, 6, 56), (0, 11, 770)], fun w => .send (wordBits w 21 5) (wordBits w 16 5) (wordBits w 11 5)⟩,
  ⟨[(26, 6, 56), (0, 11, 771)], fun w => .sendw (wordBits w 21 5) (wordBits w 16 5) (wordBits w 11 5)⟩]

/-- The rows of major opcode 0x38, part 2 (R348). -/
def rows38b : List DecodeRow := [
  ⟨[(21, 11, 1792), (0, 11, 772)], fun w => .exit (wordBits w 16 5) (wordBits w 11 5)⟩,
  ⟨[(26, 6, 56), (0, 11, 773)], fun w => .bind (wordBits w 21 5) (wordBits w 16 5) (wordBits w 11 5)⟩,
  ⟨[(26, 6, 56), (0, 16, 774)], fun w => .unbind (wordBits w 21 5) (wordBits w 16 5)⟩,
  ⟨[(0, 32, 3758097159)], fun _ => .yield⟩,
  ⟨[(26, 6, 56), (0, 16, 1025)], fun w => .mbopen (wordBits w 21 5) (wordBits w 16 5)⟩,
  ⟨[(26, 6, 56), (0, 11, 1026)], fun w => .mbpub (wordBits w 21 5) (wordBits w 16 5) (wordBits w 11 5)⟩,
  ⟨[(26, 6, 56), (0, 11, 1027)], fun w => .mbld (wordBits w 21 5) (wordBits w 16 5) (wordBits w 11 5)⟩,
  ⟨[(26, 6, 56), (0, 11, 1028)], fun w => .mbsnap (wordBits w 21 5) (wordBits w 16 5) (wordBits w 11 5)⟩,
  ⟨[(26, 6, 56), (0, 16, 1029)], fun w => .mbver (wordBits w 21 5) (wordBits w 16 5)⟩,
  ⟨[(26, 6, 56), (0, 21, 1281)], fun w => .tnow (wordBits w 21 5)⟩,
  ⟨[(26, 6, 56), (0, 11, 1282)], fun w => .tuntil (wordBits w 21 5) (wordBits w 16 5) (wordBits w 11 5)⟩,
  ⟨[(26, 6, 56), (0, 11, 1283)], fun w => .swget (wordBits w 21 5) (wordBits w 16 5) (wordBits w 11 5)⟩,
  ⟨[(26, 6, 56), (0, 11, 1284)], fun w => .swadv (wordBits w 21 5) (wordBits w 16 5) (wordBits w 11 5)⟩,
  ⟨[(26, 6, 56), (0, 16, 1537)], fun w => .gust (wordBits w 21 5) (wordBits w 16 5)⟩,
  ⟨[(21, 11, 1792), (0, 16, 1538)], fun w => .gustrel (wordBits w 16 5)⟩,
  ⟨[(26, 6, 56), (0, 16, 1539)], fun w => .gustq (wordBits w 21 5) (wordBits w 16 5)⟩,
  ⟨[(26, 6, 56), (0, 21, 1540)], fun w => .qpost (wordBits w 21 5)⟩,
  ⟨[(26, 6, 56), (0, 16, 1541)], fun w => .qclaim (wordBits w 21 5) (wordBits w 16 5)⟩,
  ⟨[(21, 11, 1792), (0, 11, 1542)], fun w => .hacc (wordBits w 16 5) (wordBits w 11 5)⟩,
  ⟨[(26, 6, 56), (0, 16, 1793)], fun w => .lpin (wordBits w 21 5) (wordBits w 16 5)⟩,
  ⟨[(26, 6, 56), (0, 16, 1794)], fun w => .lunpin (wordBits w 21 5) (wordBits w 16 5)⟩,
  ⟨[(26, 6, 56), (0, 11, 1795)], fun w => .lfill (wordBits w 21 5) (wordBits w 16 5) (wordBits w 11 5)⟩,
  ⟨[(26, 6, 56), (0, 11, 1796)], fun w => .ldrop (wordBits w 21 5) (wordBits w 16 5) (wordBits w 11 5)⟩,
  ⟨[(26, 6, 56), (0, 16, 1797)], fun w => .lprobe (wordBits w 21 5) (wordBits w 16 5)⟩]

/-- The rows of major opcode 0x38, part 3 (R348). -/
def rows38c : List DecodeRow := [
  ⟨[(26, 6, 56), (0, 16, 1808)], fun w => .glaunch (wordBits w 21 5) (wordBits w 16 5)⟩,
  ⟨[(26, 6, 56), (0, 11, 1809)], fun w => .gabort (wordBits w 21 5) (wordBits w 16 5) (wordBits w 11 5)⟩]

/-- The rows of major opcode 0x39 (R348). -/
def rows39 : List DecodeRow := [
  ⟨[(0, 32, 3825205249)], fun _ => .ecall⟩,
  ⟨[(0, 32, 3825205250)], fun _ => .ebreak⟩,
  ⟨[(0, 32, 3825205251)], fun _ => .eret⟩,
  ⟨[(0, 32, 3825205252)], fun _ => .halt⟩,
  ⟨[(21, 11, 1824), (0, 11, 5)], fun w => .tinv (wordBits w 16 5) (wordBits w 11 5)⟩,
  ⟨[(26, 6, 57), (8, 13, 1)], fun w => .csrr (wordBits w 21 5) (wordBits w 0 8)⟩,
  ⟨[(21, 11, 1824), (8, 8, 2)], fun w => .csrw (wordBits w 16 5) (wordBits w 0 8)⟩,
  ⟨[(21, 11, 1824), (8, 8, 3)], fun w => .csrs (wordBits w 16 5) (wordBits w 0 8)⟩,
  ⟨[(21, 11, 1824), (8, 8, 4)], fun w => .csrc (wordBits w 16 5) (wordBits w 0 8)⟩,
  ⟨[(21, 11, 1824), (6, 10, 20)], fun w => .ewr (wordBits w 16 5) (wordBits w 0 6)⟩,
  ⟨[(26, 6, 57), (6, 15, 24)], fun w => .erd (wordBits w 21 5) (wordBits w 0 6)⟩,
  ⟨[(15, 17, 116736), (8, 3, 7)], fun w => .safe (wordBits w 11 4) (wordBits w 0 8)⟩]

/-- The rows of major opcode 0x3F (R348). -/
def rows3F : List DecodeRow := [
  ⟨[(24, 8, 252)], fun w => .pfxExt (wordBits w 0 24)⟩,
  ⟨[(24, 8, 253)], fun w => .pfxOpt (wordBits w 0 24)⟩]

/-- The rows of one major opcode; a reserved opcode has none (R348). -/
def rowsOf (op : Nat) : List DecodeRow :=
  match op with
  | 1 => rows01a ++ rows01b
  | 2 => rows02
  | 3 => rows03
  | 4 => rows04
  | 5 => rows05
  | 6 => rows06
  | 7 => rows07
  | 8 => rows08
  | 9 => rows09
  | 10 => rows0A
  | 11 => rows0B
  | 16 => rows10
  | 17 => rows11
  | 18 => rows12
  | 19 => rows13
  | 20 => rows14
  | 21 => rows15
  | 22 => rows16
  | 23 => rows17
  | 24 => rows18
  | 25 => rows19
  | 26 => rows1A
  | 32 => rows20
  | 33 => rows21
  | 34 => rows22
  | 35 => rows23
  | 36 => rows24
  | 37 => rows25
  | 38 => rows26
  | 39 => rows27
  | 40 => rows28
  | 41 => rows29
  | 42 => rows2A
  | 43 => rows2B
  | 44 => rows2C
  | 45 => rows2Da ++ rows2Db
  | 48 => rows30
  | 49 => rows31
  | 50 => rows32
  | 51 => rows33
  | 52 => rows34
  | 53 => rows35
  | 56 => rows38a ++ rows38b ++ rows38c
  | 57 => rows39
  | 63 => rows3F
  | _ => []

/-- The instruction of a word, or none where the opcode map assigns it none (R300, R348). -/
def decode (w : Word) : Option Instr :=
  ((rowsOf (wordField w.toNat 26 6)).find? (·.fits w.toNat)).map (·.build w.toNat)

/-- The four bytes of a word in memory order (R1, R342). -/
def wordBytes (w : Word) : List Byte :=
  [w.extractLsb' 0 8, w.extractLsb' 8 8, w.extractLsb' 16 8, w.extractLsb' 24 8]

/-- The word held little-endian by the first four bytes of a list; missing bytes read as zero (R1, R342). -/
def wordOfBytes (bs : List Byte) : Word :=
  BitVec.ofNat 32 ((bs.getD 0 0).toNat + (bs.getD 1 0).toNat * 2 ^ 8 + (bs.getD 2 0).toNat * 2 ^ 16
    + (bs.getD 3 0).toNat * 2 ^ 24)

/-- The instruction that stands at the head of a list of bytes, and the bytes after it (R342). -/
def decodeBytes (bs : List Byte) : Option (Instr × List Byte) :=
  (decode (wordOfBytes bs)).map fun i => (i, bs.drop 4)

/-- The instruction decoded from a word numbered as the table of operations numbers its bits. -/
def decodeTableWord (nbits w : Nat) : Option Instr :=
  (decodeBytes (wordBytes (BitVec.ofNat 32 (w % 2 ^ nbits)))).map Prod.fst

/-- The word of an instruction (R342 to R357). An event has no encoding; the word of the first event is the word it
names. -/
def encode : Instr → Word
  | .add d s t => BitVec.ofNat 32 (0x04000000 + d.toNat * 2097152 + s.toNat * 65536 + t.toNat * 2048)
  | .sub d s t => BitVec.ofNat 32 (0x04000001 + d.toNat * 2097152 + s.toNat * 65536 + t.toNat * 2048)
  | .and d s t => BitVec.ofNat 32 (0x04000002 + d.toNat * 2097152 + s.toNat * 65536 + t.toNat * 2048)
  | .or d s t => BitVec.ofNat 32 (0x04000003 + d.toNat * 2097152 + s.toNat * 65536 + t.toNat * 2048)
  | .xor d s t => BitVec.ofNat 32 (0x04000004 + d.toNat * 2097152 + s.toNat * 65536 + t.toNat * 2048)
  | .andn d s t => BitVec.ofNat 32 (0x04000005 + d.toNat * 2097152 + s.toNat * 65536 + t.toNat * 2048)
  | .sll d s t => BitVec.ofNat 32 (0x04000006 + d.toNat * 2097152 + s.toNat * 65536 + t.toNat * 2048)
  | .srl d s t => BitVec.ofNat 32 (0x04000007 + d.toNat * 2097152 + s.toNat * 65536 + t.toNat * 2048)
  | .sra d s t => BitVec.ofNat 32 (0x04000008 + d.toNat * 2097152 + s.toNat * 65536 + t.toNat * 2048)
  | .rol d s t => BitVec.ofNat 32 (0x04000009 + d.toNat * 2097152 + s.toNat * 65536 + t.toNat * 2048)
  | .slt d s t => BitVec.ofNat 32 (0x0400000A + d.toNat * 2097152 + s.toNat * 65536 + t.toNat * 2048)
  | .sltu d s t => BitVec.ofNat 32 (0x0400000B + d.toNat * 2097152 + s.toNat * 65536 + t.toNat * 2048)
  | .min d s t => BitVec.ofNat 32 (0x0400000C + d.toNat * 2097152 + s.toNat * 65536 + t.toNat * 2048)
  | .max d s t => BitVec.ofNat 32 (0x0400000D + d.toNat * 2097152 + s.toNat * 65536 + t.toNat * 2048)
  | .minu d s t => BitVec.ofNat 32 (0x0400000E + d.toNat * 2097152 + s.toNat * 65536 + t.toNat * 2048)
  | .maxu d s t => BitVec.ofNat 32 (0x0400000F + d.toNat * 2097152 + s.toNat * 65536 + t.toNat * 2048)
  | .mul d s t => BitVec.ofNat 32 (0x04000010 + d.toNat * 2097152 + s.toNat * 65536 + t.toNat * 2048)
  | .mulh d s t => BitVec.ofNat 32 (0x04000011 + d.toNat * 2097152 + s.toNat * 65536 + t.toNat * 2048)
  | .mulhu d s t => BitVec.ofNat 32 (0x04000012 + d.toNat * 2097152 + s.toNat * 65536 + t.toNat * 2048)
  | .div d s t => BitVec.ofNat 32 (0x04000013 + d.toNat * 2097152 + s.toNat * 65536 + t.toNat * 2048)
  | .divu d s t => BitVec.ofNat 32 (0x04000014 + d.toNat * 2097152 + s.toNat * 65536 + t.toNat * 2048)
  | .rem d s t => BitVec.ofNat 32 (0x04000015 + d.toNat * 2097152 + s.toNat * 65536 + t.toNat * 2048)
  | .remu d s t => BitVec.ofNat 32 (0x04000016 + d.toNat * 2097152 + s.toNat * 65536 + t.toNat * 2048)
  | .clz d s => BitVec.ofNat 32 (0x04000018 + d.toNat * 2097152 + s.toNat * 65536)
  | .ctz d s => BitVec.ofNat 32 (0x04000019 + d.toNat * 2097152 + s.toNat * 65536)
  | .popc d s => BitVec.ofNat 32 (0x0400001A + d.toNat * 2097152 + s.toNat * 65536)
  | .sextB d s => BitVec.ofNat 32 (0x0400001B + d.toNat * 2097152 + s.toNat * 65536)
  | .sextH d s => BitVec.ofNat 32 (0x0400001C + d.toNat * 2097152 + s.toNat * 65536)
  | .zextB d s => BitVec.ofNat 32 (0x0400001D + d.toNat * 2097152 + s.toNat * 65536)
  | .zextH d s => BitVec.ofNat 32 (0x0400001E + d.toNat * 2097152 + s.toNat * 65536)
  | .bfx d s t => BitVec.ofNat 32 (0x04000020 + d.toNat * 2097152 + s.toNat * 65536 + t.toNat * 2048)
  | .bfi d s t => BitVec.ofNat 32 (0x04000021 + d.toNat * 2097152 + s.toNat * 65536 + t.toNat * 2048)
  | .addi d s i => BitVec.ofNat 32 (0x08000000 + d.toNat * 2097152 + s.toNat * 65536 + i.toNat)
  | .andi d s i => BitVec.ofNat 32 (0x0C000000 + d.toNat * 2097152 + s.toNat * 65536 + i.toNat)
  | .ori d s i => BitVec.ofNat 32 (0x10000000 + d.toNat * 2097152 + s.toNat * 65536 + i.toNat)
  | .xori d s i => BitVec.ofNat 32 (0x14000000 + d.toNat * 2097152 + s.toNat * 65536 + i.toNat)
  | .slti d s i => BitVec.ofNat 32 (0x18000000 + d.toNat * 2097152 + s.toNat * 65536 + i.toNat)
  | .sltiu d s i => BitVec.ofNat 32 (0x1C000000 + d.toNat * 2097152 + s.toNat * 65536 + i.toNat)
  | .lui d i => BitVec.ofNat 32 (0x20000000 + d.toNat * 2097152 + i.toNat)
  | .slli d s h => BitVec.ofNat 32 (0x24000000 + d.toNat * 2097152 + s.toNat * 65536 + h.toNat)
  | .srli d s h => BitVec.ofNat 32 (0x24000020 + d.toNat * 2097152 + s.toNat * 65536 + h.toNat)
  | .srai d s h => BitVec.ofNat 32 (0x24000040 + d.toNat * 2097152 + s.toNat * 65536 + h.toNat)
  | .addpi d s i => BitVec.ofNat 32 (0x28000000 + d.toNat * 2097152 + s.toNat * 65536 + i.toNat)
  | .addp d s t => BitVec.ofNat 32 (0x2C000000 + d.toNat * 2097152 + s.toNat * 65536 + t.toNat * 2048)
  | .subp d s t => BitVec.ofNat 32 (0x2C000001 + d.toNat * 2097152 + s.toNat * 65536 + t.toNat * 2048)
  | .movp d s => BitVec.ofNat 32 (0x2C000002 + d.toNat * 2097152 + s.toNat * 65536)
  | .beq s t o => BitVec.ofNat 32 (0x40000000 + s.toNat * 2097152 + t.toNat * 65536 + o.toNat)
  | .bne s t o => BitVec.ofNat 32 (0x44000000 + s.toNat * 2097152 + t.toNat * 65536 + o.toNat)
  | .blt s t o => BitVec.ofNat 32 (0x48000000 + s.toNat * 2097152 + t.toNat * 65536 + o.toNat)
  | .bge s t o => BitVec.ofNat 32 (0x4C000000 + s.toNat * 2097152 + t.toNat * 65536 + o.toNat)
  | .bltu s t o => BitVec.ofNat 32 (0x50000000 + s.toNat * 2097152 + t.toNat * 65536 + o.toNat)
  | .bgeu s t o => BitVec.ofNat 32 (0x54000000 + s.toNat * 2097152 + t.toNat * 65536 + o.toNat)
  | .bkany k o => BitVec.ofNat 32 (0x58000000 + k.toNat * 2097152 + o.toNat)
  | .bkall k o => BitVec.ofNat 32 (0x59000000 + k.toNat * 2097152 + o.toNat)
  | .bknone k o => BitVec.ofNat 32 (0x5A000000 + k.toNat * 2097152 + o.toNat)
  | .bceos v o => BitVec.ofNat 32 (0x5C000000 + v.toNat * 2097152 + o.toNat)
  | .j o => BitVec.ofNat 32 (0x60000000 + o.toNat)
  | .jal o => BitVec.ofNat 32 (0x62000000 + o.toNat)
  | .jalr d s o => BitVec.ofNat 32 (0x64000000 + d.toNat * 2097152 + s.toNat * 65536 + o.toNat)
  | .jalrFar d s o => BitVec.ofNat 32 (0x64000400 + d.toNat * 2097152 + s.toNat * 65536 + o.toNat)
  | .dbnz s o => BitVec.ofNat 32 (0x68000000 + s.toNat * 2097152 + o.toNat)
  | .lb d b o => BitVec.ofNat 32 (0x80000000 + d.toNat * 2097152 + b.toNat * 131072 + o.toNat)
  | .lbu d b o => BitVec.ofNat 32 (0x84000000 + d.toNat * 2097152 + b.toNat * 131072 + o.toNat)
  | .lh d b o => BitVec.ofNat 32 (0x88000000 + d.toNat * 2097152 + b.toNat * 131072 + o.toNat)
  | .lhu d b o => BitVec.ofNat 32 (0x8C000000 + d.toNat * 2097152 + b.toNat * 131072 + o.toNat)
  | .lw d b o => BitVec.ofNat 32 (0x90000000 + d.toNat * 2097152 + b.toNat * 131072 + o.toNat)
  | .ld d b o => BitVec.ofNat 32 (0x94000000 + d.toNat * 2097152 + b.toNat * 131072 + o.toNat)
  | .sb d b o => BitVec.ofNat 32 (0x98000000 + d.toNat * 2097152 + b.toNat * 131072 + o.toNat)
  | .sh d b o => BitVec.ofNat 32 (0x9C000000 + d.toNat * 2097152 + b.toNat * 131072 + o.toNat)
  | .sw d b o => BitVec.ofNat 32 (0xA0000000 + d.toNat * 2097152 + b.toNat * 131072 + o.toNat)
  | .sd d b o => BitVec.ofNat 32 (0xA4000000 + d.toNat * 2097152 + b.toNat * 131072 + o.toNat)
  | .vld d b k o => BitVec.ofNat 32 (0xA8000000 + d.toNat * 2097152 + b.toNat * 131072 + k.toNat * 32768 + o.toNat)
  | .vst d b k o => BitVec.ofNat 32 (0xAC000000 + d.toNat * 2097152 + b.toNat * 131072 + k.toNat * 32768 + o.toNat)
  | .pf b h o => BitVec.ofNat 32 (0xB0000000 + b.toNat * 131072 + h.toNat * 32768 + o.toNat)
  | .amoaddW d s t c a l => BitVec.ofNat 32 (0xB4000000 + d.toNat * 2097152 + s.toNat * 65536 + t.toNat * 2048 + c.toNat * 4 + a.toNat * 2 + l.toNat)
  | .amoaddD d s t c a l => BitVec.ofNat 32 (0xB4000100 + d.toNat * 2097152 + s.toNat * 65536 + t.toNat * 2048 + c.toNat * 4 + a.toNat * 2 + l.toNat)
  | .amoandW d s t c a l => BitVec.ofNat 32 (0xB4000010 + d.toNat * 2097152 + s.toNat * 65536 + t.toNat * 2048 + c.toNat * 4 + a.toNat * 2 + l.toNat)
  | .amoandD d s t c a l => BitVec.ofNat 32 (0xB4000110 + d.toNat * 2097152 + s.toNat * 65536 + t.toNat * 2048 + c.toNat * 4 + a.toNat * 2 + l.toNat)
  | .amoorW d s t c a l => BitVec.ofNat 32 (0xB4000020 + d.toNat * 2097152 + s.toNat * 65536 + t.toNat * 2048 + c.toNat * 4 + a.toNat * 2 + l.toNat)
  | .amoorD d s t c a l => BitVec.ofNat 32 (0xB4000120 + d.toNat * 2097152 + s.toNat * 65536 + t.toNat * 2048 + c.toNat * 4 + a.toNat * 2 + l.toNat)
  | .amoxorW d s t c a l => BitVec.ofNat 32 (0xB4000030 + d.toNat * 2097152 + s.toNat * 65536 + t.toNat * 2048 + c.toNat * 4 + a.toNat * 2 + l.toNat)
  | .amoxorD d s t c a l => BitVec.ofNat 32 (0xB4000130 + d.toNat * 2097152 + s.toNat * 65536 + t.toNat * 2048 + c.toNat * 4 + a.toNat * 2 + l.toNat)
  | .amominW d s t c a l => BitVec.ofNat 32 (0xB4000040 + d.toNat * 2097152 + s.toNat * 65536 + t.toNat * 2048 + c.toNat * 4 + a.toNat * 2 + l.toNat)
  | .amominD d s t c a l => BitVec.ofNat 32 (0xB4000140 + d.toNat * 2097152 + s.toNat * 65536 + t.toNat * 2048 + c.toNat * 4 + a.toNat * 2 + l.toNat)
  | .amomaxW d s t c a l => BitVec.ofNat 32 (0xB4000050 + d.toNat * 2097152 + s.toNat * 65536 + t.toNat * 2048 + c.toNat * 4 + a.toNat * 2 + l.toNat)
  | .amomaxD d s t c a l => BitVec.ofNat 32 (0xB4000150 + d.toNat * 2097152 + s.toNat * 65536 + t.toNat * 2048 + c.toNat * 4 + a.toNat * 2 + l.toNat)
  | .amominuW d s t c a l => BitVec.ofNat 32 (0xB4000060 + d.toNat * 2097152 + s.toNat * 65536 + t.toNat * 2048 + c.toNat * 4 + a.toNat * 2 + l.toNat)
  | .amominuD d s t c a l => BitVec.ofNat 32 (0xB4000160 + d.toNat * 2097152 + s.toNat * 65536 + t.toNat * 2048 + c.toNat * 4 + a.toNat * 2 + l.toNat)
  | .amomaxuW d s t c a l => BitVec.ofNat 32 (0xB4000070 + d.toNat * 2097152 + s.toNat * 65536 + t.toNat * 2048 + c.toNat * 4 + a.toNat * 2 + l.toNat)
  | .amomaxuD d s t c a l => BitVec.ofNat 32 (0xB4000170 + d.toNat * 2097152 + s.toNat * 65536 + t.toNat * 2048 + c.toNat * 4 + a.toNat * 2 + l.toNat)
  | .amoswapW d s t c a l => BitVec.ofNat 32 (0xB4000080 + d.toNat * 2097152 + s.toNat * 65536 + t.toNat * 2048 + c.toNat * 4 + a.toNat * 2 + l.toNat)
  | .amoswapD d s t c a l => BitVec.ofNat 32 (0xB4000180 + d.toNat * 2097152 + s.toNat * 65536 + t.toNat * 2048 + c.toNat * 4 + a.toNat * 2 + l.toNat)
  | .amofadd d s t c a l => BitVec.ofNat 32 (0xB4000090 + d.toNat * 2097152 + s.toNat * 65536 + t.toNat * 2048 + c.toNat * 4 + a.toNat * 2 + l.toNat)
  | .casW d s t c a l => BitVec.ofNat 32 (0xB40000A0 + d.toNat * 2097152 + s.toNat * 65536 + t.toNat * 2048 + c.toNat * 4 + a.toNat * 2 + l.toNat)
  | .casD d s t c a l => BitVec.ofNat 32 (0xB40001A0 + d.toNat * 2097152 + s.toNat * 65536 + t.toNat * 2048 + c.toNat * 4 + a.toNat * 2 + l.toNat)
  | .lrW d s c a l => BitVec.ofNat 32 (0xB40000B0 + d.toNat * 2097152 + s.toNat * 65536 + c.toNat * 4 + a.toNat * 2 + l.toNat)
  | .lrD d s c a l => BitVec.ofNat 32 (0xB40001B0 + d.toNat * 2097152 + s.toNat * 65536 + c.toNat * 4 + a.toNat * 2 + l.toNat)
  | .scW d s t c a l => BitVec.ofNat 32 (0xB40000C0 + d.toNat * 2097152 + s.toNat * 65536 + t.toNat * 2048 + c.toNat * 4 + a.toNat * 2 + l.toNat)
  | .scD d s t c a l => BitVec.ofNat 32 (0xB40001C0 + d.toNat * 2097152 + s.toNat * 65536 + t.toNat * 2048 + c.toNat * 4 + a.toNat * 2 + l.toNat)
  | .fence p s c => BitVec.ofNat 32 (0xB4000200 + p.toNat * 65536 + s.toNat * 2048 + c.toNat * 4)
  | .fencei => BitVec.ofNat 32 (0xB4000210)
  | .barv d s c => BitVec.ofNat 32 (0xB4000220 + d.toNat * 2097152 + s.toNat * 65536 + c.toNat * 4)
  | .barw s t c => BitVec.ofNat 32 (0xB4000230 + s.toNat * 65536 + t.toNat * 2048 + c.toNat * 4)
  | .trig => BitVec.ofNat 32 (0xB4000240)
  | .waitdep d => BitVec.ofNat 32 (0xB4000250 + d.toNat * 2097152)
  | .wrs d s => BitVec.ofNat 32 (0xB4000260 + d.toNat * 2097152 + s.toNat * 65536)
  | .fput d s t => BitVec.ofNat 32 (0xB4000600 + d.toNat * 2097152 + s.toNat * 65536 + t.toNat * 2048)
  | .fget d s => BitVec.ofNat 32 (0xB4000640 + d.toNat * 2097152 + s.toNat * 65536)
  | .freset d s => BitVec.ofNat 32 (0xB4000680 + d.toNat * 2097152 + s.toNat * 65536)
  | .vadd d a b k y u => BitVec.ofNat 32 (0xC0000000 + d.toNat * 2097152 + a.toNat * 65536 + b.toNat * 2048 + k.toNat * 256 + y.toNat * 32 + u.toNat * 16)
  | .vsub d a b k y u => BitVec.ofNat 32 (0xC0000001 + d.toNat * 2097152 + a.toNat * 65536 + b.toNat * 2048 + k.toNat * 256 + y.toNat * 32 + u.toNat * 16)
  | .vmul d a b k y u => BitVec.ofNat 32 (0xC0000002 + d.toNat * 2097152 + a.toNat * 65536 + b.toNat * 2048 + k.toNat * 256 + y.toNat * 32 + u.toNat * 16)
  | .vmin d a b k y u => BitVec.ofNat 32 (0xC0000003 + d.toNat * 2097152 + a.toNat * 65536 + b.toNat * 2048 + k.toNat * 256 + y.toNat * 32 + u.toNat * 16)
  | .vmax d a b k y u => BitVec.ofNat 32 (0xC0000004 + d.toNat * 2097152 + a.toNat * 65536 + b.toNat * 2048 + k.toNat * 256 + y.toNat * 32 + u.toNat * 16)
  | .vabs d a k y => BitVec.ofNat 32 (0xC0000005 + d.toNat * 2097152 + a.toNat * 65536 + k.toNat * 256 + y.toNat * 32)
  | .vneg d a k y => BitVec.ofNat 32 (0xC0000006 + d.toNat * 2097152 + a.toNat * 65536 + k.toNat * 256 + y.toNat * 32)
  | .vand d a b k y => BitVec.ofNat 32 (0xC0000007 + d.toNat * 2097152 + a.toNat * 65536 + b.toNat * 2048 + k.toNat * 256 + y.toNat * 32)
  | .vor d a b k y => BitVec.ofNat 32 (0xC0000008 + d.toNat * 2097152 + a.toNat * 65536 + b.toNat * 2048 + k.toNat * 256 + y.toNat * 32)
  | .vxor d a b k y => BitVec.ofNat 32 (0xC0000009 + d.toNat * 2097152 + a.toNat * 65536 + b.toNat * 2048 + k.toNat * 256 + y.toNat * 32)
  | .vandn d a b k y => BitVec.ofNat 32 (0xC000000A + d.toNat * 2097152 + a.toNat * 65536 + b.toNat * 2048 + k.toNat * 256 + y.toNat * 32)
  | .vsll d a b k y => BitVec.ofNat 32 (0xC000000B + d.toNat * 2097152 + a.toNat * 65536 + b.toNat * 2048 + k.toNat * 256 + y.toNat * 32)
  | .vsrl d a b k y => BitVec.ofNat 32 (0xC000000C + d.toNat * 2097152 + a.toNat * 65536 + b.toNat * 2048 + k.toNat * 256 + y.toNat * 32)
  | .vsra d a b k y => BitVec.ofNat 32 (0xC000000D + d.toNat * 2097152 + a.toNat * 65536 + b.toNat * 2048 + k.toNat * 256 + y.toNat * 32)
  | .vclamp d a b k y u => BitVec.ofNat 32 (0xC000000E + d.toNat * 2097152 + a.toNat * 65536 + b.toNat * 2048 + k.toNat * 256 + y.toNat * 32 + u.toNat * 16)
  | .vdot d a b k y u => BitVec.ofNat 32 (0xC000000F + d.toNat * 2097152 + a.toNat * 65536 + b.toNat * 2048 + k.toNat * 256 + y.toNat * 32 + u.toNat * 16)
  | .vaddF d a b k y => BitVec.ofNat 32 (0xC4000000 + d.toNat * 2097152 + a.toNat * 65536 + b.toNat * 2048 + k.toNat * 256 + y.toNat * 32)
  | .vsubF d a b k y => BitVec.ofNat 32 (0xC4000001 + d.toNat * 2097152 + a.toNat * 65536 + b.toNat * 2048 + k.toNat * 256 + y.toNat * 32)
  | .vmulF d a b k y => BitVec.ofNat 32 (0xC4000002 + d.toNat * 2097152 + a.toNat * 65536 + b.toNat * 2048 + k.toNat * 256 + y.toNat * 32)
  | .vminF d a b k y => BitVec.ofNat 32 (0xC4000003 + d.toNat * 2097152 + a.toNat * 65536 + b.toNat * 2048 + k.toNat * 256 + y.toNat * 32)
  | .vmaxF d a b k y => BitVec.ofNat 32 (0xC4000004 + d.toNat * 2097152 + a.toNat * 65536 + b.toNat * 2048 + k.toNat * 256 + y.toNat * 32)
  | .vabsF d a k y => BitVec.ofNat 32 (0xC4000005 + d.toNat * 2097152 + a.toNat * 65536 + k.toNat * 256 + y.toNat * 32)
  | .vnegF d a k y => BitVec.ofNat 32 (0xC4000006 + d.toNat * 2097152 + a.toNat * 65536 + k.toNat * 256 + y.toNat * 32)
  | .vfma d a b k y => BitVec.ofNat 32 (0xC4000007 + d.toNat * 2097152 + a.toNat * 65536 + b.toNat * 2048 + k.toNat * 256 + y.toNat * 32)
  | .vfms d a b k y => BitVec.ofNat 32 (0xC4000008 + d.toNat * 2097152 + a.toNat * 65536 + b.toNat * 2048 + k.toNat * 256 + y.toNat * 32)
  | .vclampF d a b k y => BitVec.ofNat 32 (0xC4000009 + d.toNat * 2097152 + a.toNat * 65536 + b.toNat * 2048 + k.toNat * 256 + y.toNat * 32)
  | .vdotF d a b k y => BitVec.ofNat 32 (0xC400000A + d.toNat * 2097152 + a.toNat * 65536 + b.toNat * 2048 + k.toNat * 256 + y.toNat * 32)
  | .vcmpEq d a b k y u => BitVec.ofNat 32 (0xC8000000 + d.toNat * 2097152 + a.toNat * 65536 + b.toNat * 2048 + k.toNat * 256 + y.toNat * 32 + u.toNat * 16)
  | .vcmpNe d a b k y u => BitVec.ofNat 32 (0xC8000001 + d.toNat * 2097152 + a.toNat * 65536 + b.toNat * 2048 + k.toNat * 256 + y.toNat * 32 + u.toNat * 16)
  | .vcmpLt d a b k y u => BitVec.ofNat 32 (0xC8000002 + d.toNat * 2097152 + a.toNat * 65536 + b.toNat * 2048 + k.toNat * 256 + y.toNat * 32 + u.toNat * 16)
  | .vcmpLe d a b k y u => BitVec.ofNat 32 (0xC8000003 + d.toNat * 2097152 + a.toNat * 65536 + b.toNat * 2048 + k.toNat * 256 + y.toNat * 32 + u.toNat * 16)
  | .vcmpGt d a b k y u => BitVec.ofNat 32 (0xC8000004 + d.toNat * 2097152 + a.toNat * 65536 + b.toNat * 2048 + k.toNat * 256 + y.toNat * 32 + u.toNat * 16)
  | .vcmpGe d a b k y u => BitVec.ofNat 32 (0xC8000005 + d.toNat * 2097152 + a.toNat * 65536 + b.toNat * 2048 + k.toNat * 256 + y.toNat * 32 + u.toNat * 16)
  | .vsel d a b k y => BitVec.ofNat 32 (0xC8000006 + d.toNat * 2097152 + a.toNat * 65536 + b.toNat * 2048 + k.toNat * 256 + y.toNat * 32)
  | .kmovX d a => BitVec.ofNat 32 (0xC8000007 + d.toNat * 2097152 + a.toNat * 65536)
  | .kand d a b => BitVec.ofNat 32 (0xC8000008 + d.toNat * 2097152 + a.toNat * 65536 + b.toNat * 2048)
  | .kor d a b => BitVec.ofNat 32 (0xC8000009 + d.toNat * 2097152 + a.toNat * 65536 + b.toNat * 2048)
  | .kxor d a b => BitVec.ofNat 32 (0xC800000A + d.toNat * 2097152 + a.toNat * 65536 + b.toNat * 2048)
  | .knot d a => BitVec.ofNat 32 (0xC800000B + d.toNat * 2097152 + a.toNat * 65536)
  | .kmovK d a => BitVec.ofNat 32 (0xC800000C + d.toNat * 2097152 + a.toNat * 65536)
  | .kpopc d a => BitVec.ofNat 32 (0xC800000D + d.toNat * 2097152 + a.toNat * 65536)
  | .kfirst d a => BitVec.ofNat 32 (0xC800000E + d.toNat * 2097152 + a.toNat * 65536)
  | .kgen d s => BitVec.ofNat 32 (0xC800000F + d.toNat * 2097152 + s.toNat * 65536)
  | .vcvt d a s k e => BitVec.ofNat 32 (0xCC000000 + d.toNat * 2097152 + a.toNat * 65536 + s.toNat * 2048 + k.toNat * 256 + e.toNat)
  | .vexp2 d a k y => BitVec.ofNat 32 (0xCC000010 + d.toNat * 2097152 + a.toNat * 65536 + k.toNat * 256 + y.toNat * 32)
  | .vlog2 d a k y => BitVec.ofNat 32 (0xCC000011 + d.toNat * 2097152 + a.toNat * 65536 + k.toNat * 256 + y.toNat * 32)
  | .vrcp d a k y => BitVec.ofNat 32 (0xCC000012 + d.toNat * 2097152 + a.toNat * 65536 + k.toNat * 256 + y.toNat * 32)
  | .vrsqrt d a k y => BitVec.ofNat 32 (0xCC000013 + d.toNat * 2097152 + a.toNat * 65536 + k.toNat * 256 + y.toNat * 32)
  | .vpopc d a k y => BitVec.ofNat 32 (0xCC000014 + d.toNat * 2097152 + a.toNat * 65536 + k.toNat * 256 + y.toNat * 32)
  | .vredsum d a k y u => BitVec.ofNat 32 (0xD0000000 + d.toNat * 2097152 + a.toNat * 65536 + k.toNat * 256 + y.toNat * 32 + u.toNat * 16)
  | .vredmax d a k y u => BitVec.ofNat 32 (0xD0000001 + d.toNat * 2097152 + a.toNat * 65536 + k.toNat * 256 + y.toNat * 32 + u.toNat * 16)
  | .vredmin d a k y u => BitVec.ofNat 32 (0xD0000002 + d.toNat * 2097152 + a.toNat * 65536 + k.toNat * 256 + y.toNat * 32 + u.toNat * 16)
  | .vargmax d a k y u => BitVec.ofNat 32 (0xD0000003 + d.toNat * 2097152 + a.toNat * 65536 + k.toNat * 256 + y.toNat * 32 + u.toNat * 16)
  | .vscan d a k y => BitVec.ofNat 32 (0xD0000004 + d.toNat * 2097152 + a.toNat * 65536 + k.toNat * 256 + y.toNat * 32)
  | .vperm d a b k y => BitVec.ofNat 32 (0xD0000005 + d.toNat * 2097152 + a.toNat * 65536 + b.toNat * 2048 + k.toNat * 256 + y.toNat * 32)
  | .vslide d a t k y => BitVec.ofNat 32 (0xD0000006 + d.toNat * 2097152 + a.toNat * 65536 + t.toNat * 2048 + k.toNat * 256 + y.toNat * 32)
  | .vtopk d a b k y u => BitVec.ofNat 32 (0xD0000007 + d.toNat * 2097152 + a.toNat * 65536 + b.toNat * 2048 + k.toNat * 256 + y.toNat * 32 + u.toNat * 16)
  | .vbcast d s k y => BitVec.ofNat 32 (0xD0000008 + d.toNat * 2097152 + s.toNat * 65536 + k.toNat * 256 + y.toNat * 32)
  | .vmvx d a t y => BitVec.ofNat 32 (0xD0000009 + d.toNat * 2097152 + a.toNat * 65536 + t.toNat * 2048 + y.toNat * 32)
  | .vins d s t y => BitVec.ofNat 32 (0xD000000A + d.toNat * 2097152 + s.toNat * 65536 + t.toNat * 2048 + y.toNat * 32)
  | .vmov d a k y => BitVec.ofNat 32 (0xD000000B + d.toNat * 2097152 + a.toNat * 65536 + k.toNat * 256 + y.toNat * 32)
  | .vldg d p b k y => BitVec.ofNat 32 (0xD4000000 + d.toNat * 2097152 + p.toNat * 65536 + b.toNat * 2048 + k.toNat * 256 + y.toNat * 32)
  | .vsts d p b k y => BitVec.ofNat 32 (0xD4000001 + d.toNat * 2097152 + p.toNat * 65536 + b.toNat * 2048 + k.toNat * 256 + y.toNat * 32)
  | .mma s t => BitVec.ofNat 32 (0xE0000001 + s.toNat * 65536 + t.toNat * 2048)
  | .mmv s t => BitVec.ofNat 32 (0xE0000002 + s.toNat * 65536 + t.toNat * 2048)
  | .mldb s t => BitVec.ofNat 32 (0xE0000003 + s.toNat * 65536 + t.toNat * 2048)
  | .mldbS v t => BitVec.ofNat 32 (0xE0000004 + v.toNat * 65536 + t.toNat * 2048)
  | .mst s t => BitVec.ofNat 32 (0xE0000005 + s.toNat * 65536 + t.toNat * 2048)
  | .mrd d s t => BitVec.ofNat 32 (0xE0000006 + d.toNat * 2097152 + s.toNat * 65536 + t.toNat * 2048)
  | .mzero t => BitVec.ofNat 32 (0xE0000007 + t.toNat * 2048)
  | .mring d s t => BitVec.ofNat 32 (0xE0000008 + d.toNat * 2097152 + s.toNat * 65536 + t.toNat * 2048)
  | .mvgo d s => BitVec.ofNat 32 (0xE0000101 + d.toNat * 2097152 + s.toNat * 65536)
  | .mvred d s => BitVec.ofNat 32 (0xE0000102 + d.toNat * 2097152 + s.toNat * 65536)
  | .mvst d s => BitVec.ofNat 32 (0xE0000103 + d.toNat * 2097152 + s.toNat * 65536)
  | .mvkill s => BitVec.ofNat 32 (0xE0000104 + s.toNat * 65536)
  | .sbind d s t => BitVec.ofNat 32 (0xE0000105 + d.toNat * 2097152 + s.toNat * 65536 + t.toNat * 2048)
  | .cbind d s t => BitVec.ofNat 32 (0xE0000106 + d.toNat * 2097152 + s.toNat * 65536 + t.toNat * 2048)
  | .sunbind d => BitVec.ofNat 32 (0xE0000107 + d.toNat * 2097152)
  | .cret d => BitVec.ofNat 32 (0xE0000108 + d.toNat * 2097152)
  | .ceos d => BitVec.ofNat 32 (0xE0000109 + d.toNat * 2097152)
  | .cwait d s t => BitVec.ofNat 32 (0xE0000201 + d.toNat * 2097152 + s.toNat * 65536 + t.toNat * 2048)
  | .cadd s t => BitVec.ofNat 32 (0xE0000202 + s.toNat * 65536 + t.toNat * 2048)
  | .cset s t => BitVec.ofNat 32 (0xE0000203 + s.toNat * 65536 + t.toNat * 2048)
  | .crd d s => BitVec.ofNat 32 (0xE0000204 + d.toNat * 2097152 + s.toNat * 65536)
  | .mw d s => BitVec.ofNat 32 (0xE0000301 + d.toNat * 2097152 + s.toNat * 65536)
  | .send d s t => BitVec.ofNat 32 (0xE0000302 + d.toNat * 2097152 + s.toNat * 65536 + t.toNat * 2048)
  | .sendw d s t => BitVec.ofNat 32 (0xE0000303 + d.toNat * 2097152 + s.toNat * 65536 + t.toNat * 2048)
  | .exit s t => BitVec.ofNat 32 (0xE0000304 + s.toNat * 65536 + t.toNat * 2048)
  | .bind d s t => BitVec.ofNat 32 (0xE0000305 + d.toNat * 2097152 + s.toNat * 65536 + t.toNat * 2048)
  | .unbind d s => BitVec.ofNat 32 (0xE0000306 + d.toNat * 2097152 + s.toNat * 65536)
  | .yield => BitVec.ofNat 32 (0xE0000307)
  | .mbopen d s => BitVec.ofNat 32 (0xE0000401 + d.toNat * 2097152 + s.toNat * 65536)
  | .mbpub d s t => BitVec.ofNat 32 (0xE0000402 + d.toNat * 2097152 + s.toNat * 65536 + t.toNat * 2048)
  | .mbld d s t => BitVec.ofNat 32 (0xE0000403 + d.toNat * 2097152 + s.toNat * 65536 + t.toNat * 2048)
  | .mbsnap d s t => BitVec.ofNat 32 (0xE0000404 + d.toNat * 2097152 + s.toNat * 65536 + t.toNat * 2048)
  | .mbver d s => BitVec.ofNat 32 (0xE0000405 + d.toNat * 2097152 + s.toNat * 65536)
  | .tnow d => BitVec.ofNat 32 (0xE0000501 + d.toNat * 2097152)
  | .tuntil d s t => BitVec.ofNat 32 (0xE0000502 + d.toNat * 2097152 + s.toNat * 65536 + t.toNat * 2048)
  | .swget d s t => BitVec.ofNat 32 (0xE0000503 + d.toNat * 2097152 + s.toNat * 65536 + t.toNat * 2048)
  | .swadv d s t => BitVec.ofNat 32 (0xE0000504 + d.toNat * 2097152 + s.toNat * 65536 + t.toNat * 2048)
  | .gust d s => BitVec.ofNat 32 (0xE0000601 + d.toNat * 2097152 + s.toNat * 65536)
  | .gustrel s => BitVec.ofNat 32 (0xE0000602 + s.toNat * 65536)
  | .gustq d s => BitVec.ofNat 32 (0xE0000603 + d.toNat * 2097152 + s.toNat * 65536)
  | .qpost d => BitVec.ofNat 32 (0xE0000604 + d.toNat * 2097152)
  | .qclaim d s => BitVec.ofNat 32 (0xE0000605 + d.toNat * 2097152 + s.toNat * 65536)
  | .hacc s t => BitVec.ofNat 32 (0xE0000606 + s.toNat * 65536 + t.toNat * 2048)
  | .lpin d s => BitVec.ofNat 32 (0xE0000701 + d.toNat * 2097152 + s.toNat * 65536)
  | .lunpin d s => BitVec.ofNat 32 (0xE0000702 + d.toNat * 2097152 + s.toNat * 65536)
  | .lfill d s t => BitVec.ofNat 32 (0xE0000703 + d.toNat * 2097152 + s.toNat * 65536 + t.toNat * 2048)
  | .ldrop d s t => BitVec.ofNat 32 (0xE0000704 + d.toNat * 2097152 + s.toNat * 65536 + t.toNat * 2048)
  | .lprobe d s => BitVec.ofNat 32 (0xE0000705 + d.toNat * 2097152 + s.toNat * 65536)
  | .glaunch d s => BitVec.ofNat 32 (0xE0000710 + d.toNat * 2097152 + s.toNat * 65536)
  | .gabort d s t => BitVec.ofNat 32 (0xE0000711 + d.toNat * 2097152 + s.toNat * 65536 + t.toNat * 2048)
  | .ecall => BitVec.ofNat 32 (0xE4000001)
  | .ebreak => BitVec.ofNat 32 (0xE4000002)
  | .eret => BitVec.ofNat 32 (0xE4000003)
  | .halt => BitVec.ofNat 32 (0xE4000004)
  | .tinv s t => BitVec.ofNat 32 (0xE4000005 + s.toNat * 65536 + t.toNat * 2048)
  | .csrr d c => BitVec.ofNat 32 (0xE4000100 + d.toNat * 2097152 + c.toNat)
  | .csrw s c => BitVec.ofNat 32 (0xE4000200 + s.toNat * 65536 + c.toNat)
  | .csrs s c => BitVec.ofNat 32 (0xE4000300 + s.toNat * 65536 + c.toNat)
  | .csrc s c => BitVec.ofNat 32 (0xE4000400 + s.toNat * 65536 + c.toNat)
  | .ewr s n => BitVec.ofNat 32 (0xE4000500 + s.toNat * 65536 + n.toNat)
  | .erd d n => BitVec.ofNat 32 (0xE4000600 + d.toNat * 2097152 + n.toNat)
  | .safe h n => BitVec.ofNat 32 (0xE4000700 + h.toNat * 2048 + n.toNat)
  | .pfxExt p => BitVec.ofNat 32 (0xFC000000 + p.toNat)
  | .pfxOpt p => BitVec.ofNat 32 (0xFD000000 + p.toNat)
  | .illegalEncoding w => w
  | .messageArrival _ => 0
  | .inboxPortAccept _ => 0
  | .messageDispatch _ => 0
  | .creditReturn _ => 0
  | .successorSend _ => 0
  | .unboundHoldExpiry _ => 0
  | .gangRequestAccept => 0
  | .placementPass => 0
  | .gangMemberStart _ _ => 0
  | .triggerNotice _ => 0
  | .l1ResizeComplete _ => 0
  | .pageWalkComplete _ _ => 0
  | .translationReplay _ => 0
  | .translationAbort _ => 0
  | .storeBufferPerform _ _ => 0
  | .hostMemoryAccess _ => 0
  | .matrixCommandComplete _ => 0
  | .latchFillComplete _ _ => 0
  | .handoffClaim _ => 0
  | .handoffComplete _ => 0
  | .moverElement _ _ => 0
  | .channelBeatArrival _ => 0
  | .channelCreditReturn _ => 0
  | .remoteCaddArrival _ => 0
  | .squallScan => 0
  | .tickDelivery _ => 0
  | .tickStart _ _ => 0
  | .budgetExpiry _ _ => 0
  | .budgetKill _ _ => 0
  | .mbsnapCopyComplete _ => 0
  | .gustCodeStart _ => 0
  | .gustHoldExpiry _ => 0
  | .gustRelocation _ => 0
  | .heartbeatSend => 0
  | .heartbeatReceive => 0
  | .heartbeatWindowExpiry => 0
  | .fatalErrorMessage => 0
  | .hsctlTake => 0
  | .mirrorPublishReceive _ => 0
  | .keepRegionMirrorReceive _ => 0
  | .timeSourceCorrection _ => 0
  | .streamRecordArrival _ _ => 0
  | .ingestRecordCommit _ => 0
  | .decodeTick _ => 0
  | .decodeTickLate _ => 0
  | .tuntilTimerExpiry _ _ => 0
  | .egressLaunch _ => 0
  | .serviceStepScheduler _ => 0
  | .stepBoundary => 0
  | .samplingQueuePost _ => 0
  | .lineMissEvent _ => 0
  | .lineFillEvent _ => 0
  | .lineEvictionEvent _ => 0
  | .agentBudgetExpiry _ _ => 0
  | .loaderStart _ => 0
  | .loaderDescriptorComplete _ => 0
  | .fgetParkRetry _ _ => 0
  | .futureWake _ _ => 0
  | .queuePacketStart _ _ => 0
  | .doorbellWrite _ _ => 0
  | .reconcilePass => 0
  | .serviceInstallContext _ => 0
  | .serviceShootdown _ => 0
  | .shootdownComplete => 0
  | .serviceCreateQueue _ => 0
  | .serviceDestroyQueue _ => 0
  | .queueDestroyComplete _ => 0
  | .serviceLoadCodeObject _ _ => 0
  | .serviceMigratePage _ => 0
  | .serviceSetFrameOwner _ => 0
  | .serviceUnknown _ => 0
  | .thermalControlTick _ _ => 0
  | .partitionEntryWrite _ _ => 0
  | .partitionHalt _ => 0
  | .partitionResume _ => 0
  | .partitionSave _ => 0
  | .partitionRestore _ => 0
  | .partitionSpill _ => 0
  | .partitionFill _ => 0
  | .partitionCommandComplete _ => 0
  | .correctableError _ _ => 0
  | .uncorrectableError _ _ => 0
  | .fatalError _ _ => 0
  | .errqWrite _ => 0
  | .msixWindowExpiry _ => 0
  | .dbgHaltreq _ => 0
  | .dbgResume _ => 0
  | .dbgStep _ => 0
  | .dbgBksync _ => 0
  | .bksyncComplete _ => 0
  | .dbgdatAccess _ _ => 0
  | .logDwellExpiry _ _ => 0
  | .logctlWrite _ _ => 0
  | .pmselWrite _ _ => 0
  | .tickEntryWrite _ _ => 0
  | .mailboxSlotWrite _ _ => 0
  | .gustPoolWrite _ => 0
  | .gustProfileWrite _ _ => 0
  | .tmctlWrite _ => 0
  | .timedStreamWrite _ _ => 0
  | .treeTemplateWrite _ _ => 0
  | .eventTableRowWrite _ _ _ => 0
  | .sqcfgWrite _ => 0
  | .shedctlWrite _ => 0
  | .feataccWrite _ => 0
  | .perstRelease => 0
  | .bootGo => 0
  | .bootVerifyComplete _ => 0
  | .attestRequest => 0
  | .attestComplete => 0
  | .registerWrite _ _ _ => 0
  | .requestResponse _ _ => 0
  | .wrsTimeout _ _ => 0
  | .barrierArrival _ => 0
  | .perstAssert => 0
  | .sourceLockLoss => 0

end Sys2Proof
end

