-- ==== Sys2Proof/Machine/FMap.lean ====
section
/-! DEFINITION. Finite maps held as plain data: lists of (key, value) pairs with strictly rising keys. Memory keeps one
canonical form, in which no entry equals what an unlisted key reads as, so that equal contents are equal data. -/

namespace Sys2Proof.Machine

/-- A sparse map from numbers, as a list of entries with strictly rising keys. -/
abbrev FMap (α : Type) := List (Nat × α)

variable {α : Type}

/-- The entry of a key, if the map lists it. -/
def FMap.find (m : FMap α) (k : Nat) : Option α :=
  match m with
  | [] => none
  | (j, v) :: r => if j = k then some v else if k < j then none else FMap.find r k

/-- The value of a key: what the map lists, else the value unlisted keys have. -/
def FMap.get (m : FMap α) (k : Nat) (dflt : α) : α := (FMap.find m k).getD dflt

/-- List a value at a key, replacing the entry of that key. -/
def FMap.put (m : FMap α) (k : Nat) (v : α) : FMap α :=
  match m with
  | [] => [(k, v)]
  | (j, w) :: r => if j = k then (k, v) :: r else if k < j then (k, v) :: (j, w) :: r else (j, w) :: FMap.put r k v

/-- Remove the entry of a key. -/
def FMap.del (m : FMap α) (k : Nat) : FMap α :=
  match m with
  | [] => []
  | (j, w) :: r => if j = k then r else if k < j then (j, w) :: r else (j, w) :: FMap.del r k

/-- Set a key's value in canonical form: the value that unlisted keys have is not listed. -/
def FMap.set [DecidableEq α] (m : FMap α) (k : Nat) (v dflt : α) : FMap α :=
  if v = dflt then FMap.del m k else FMap.put m k v

/-- Every key is above `k` and the keys rise. -/
def FMap.sortedAbove (m : FMap α) (k : Nat) : Bool :=
  match m with
  | [] => true
  | (j, _) :: r => decide (k < j) && FMap.sortedAbove r j

/-- The keys rise strictly. -/
def FMap.sorted (m : FMap α) : Bool :=
  match m with
  | [] => true
  | (j, _) :: r => FMap.sortedAbove r j

/-- The canonical form: strictly rising keys and no entry with the value of unlisted keys. -/
def FMap.canon [DecidableEq α] (m : FMap α) (dflt : α) : Bool :=
  FMap.sorted m && m.all fun e => decide (e.2 ≠ dflt)

end Sys2Proof.Machine
end

