-- ==== Sys2Proof/Machine/CoreState.lean ====
section
/-! DEFINITION. What one core of the TK2 holds: its thread slots with their registers, and the state its slots share.
Every structure is plain data; a field's default is its value after reset. -/

namespace Sys2Proof.Machine

/-- Why a slot waits, with the codes of R57; a wait for a latch buffer, for the matrix unit, or for the unit and a FULL
buffer counts as one on a stream register but stops as R70 case 2 lays down (R161, R425). -/
inductive Wait where
  | bound | latch | unit | unitBuf | counter | future | reservation | credit | memory | barrier | dependence | queueClaim | successors
  | interlock | fault | preempted | seized
  deriving DecidableEq, Repr

/-- The state of a thread slot (R57). -/
inductive RunState where
  | idle | ready | blocked (w : Wait) | matrix | suspended (w : Wait) | stopped
  deriving DecidableEq, Repr

/-- One bank of a slot's registers (R58, R66), sparse: a register not listed reads zero. The engine registers are the
ones that exist once per slot (R156, R177). -/
structure Bank where
  x : FMap Word := []
  v : FMap Vec := []
  k : FMap Word := []
  m : FMap Word := []
  e : FMap Dword := []
  pc : Dword := 0
  deriving DecidableEq, Repr

/-- The slot CSRs (R63, R64, R65); the two halves of a 64-bit CSR are stored once. -/
structure Csrs where
  fflags : BitVec 4 := 0
  aflags : BitVec 4 := 0
  frm : BitVec 2 := 0
  chst : BitVec 8 := 0
  ltile : Word := 0
  gsize : Word := 0
  gname : Word := 0
  depst : BitVec 4 := 0
  ser : Word := 0
  lmbase : Dword := 0
  lmcnt : Word := 0
  mode : Bool := false
  pmode : Bool := false
  bank : Bool := false
  gelig : Bool := false
  gustc : Bool := false
  epc : Dword := 0
  causePfx : Bool := false
  causeCode : Byte := 0
  tval : Dword := 0
  tvec : Dword := 0
  escr : Word := 0
  ctxid : Word := 0
  deriving DecidableEq, Repr

/-- A message (R25, R26) with what travels beside it: the header word's source fields (R35), the sender's slot (R30)
and address-space id, the credit it holds (sending core and class, R28), the gang member it starts (R45) and the one it is
addressed to (R27), the tick entry
or stream that fired it (R200, R229), its flags of R35, its arrival time and the time before which it may not start
(R200, R288). `heldAt` is the time it entered the unbound hold (R50); `ser` and `loaded` are the serial it took and the
binding it was written to a shadow bank for (R66, R326), and `counted` says that FIRED has counted it (R199). -/
structure Message where
  dest : Word := 0
  ctl : Word := 0
  payload : List Word := []
  srcIdx : Byte := 0
  srcKind : BitVec 3 := 0
  srcSlot : Nat := 0
  sup : Bool := false
  succ : Bool := false
  asid : BitVec 16 := 0
  credit : Option (Nat × Nat) := none
  gang : Option (Nat × Nat) := none
  member : Option (Nat × Nat) := none
  tick : Option Nat := none
  held : Bool := false
  spilled : Bool := false
  arrived : Nat := 0
  notBefore : Nat := 0
  heldAt : Nat := 0
  ser : Option Word := none
  loaded : Option (Nat × BitVec 128) := none
  counted : Bool := false
  deriving DecidableEq, Repr

/-- The kind of code an activation runs (R22, R215, R265, R277). -/
inductive CodeKind where
  | task
  | gust (profile member : Nat)
  | handler (row : Nat)
  | queueProgram (q : Nat)
  | firmware
  deriving DecidableEq, Repr

/-- A running activation (R23, R35): what it runs and for whom, its gang membership, its start time, its cycle count
(R201, R266), whether its entry header has been read (R68), the tick entry that started it, the cache line that is held
for its event with the number of the hold (R265), the window of its row as it stood at the start (R264) and the instructions its packet has retired (R277). -/
structure Activation where
  kind : CodeKind := .task
  bind : Nat := 0
  tag : BitVec 16 := 0
  budget : Nat := 0
  entry : Dword := 0
  asid : BitVec 16 := 0
  ctx : Word := 0
  gang : Option (Nat × Nat) := none
  start : Nat := 0
  cycles : Nat := 0
  headerDone : Bool := true
  budgetTaken : Bool := false
  tick : Option Nat := none
  line : Option (Nat × Nat) := none
  window : Nat × Nat := (0, 0)
  retired : Nat := 0
  deriving DecidableEq, Repr

/-- A reservation (R129): the path, the granule (numbered from the start of the location space), the width in bytes
and, on the host and peer paths, the value `lr` read (R127). -/
structure Reservation where
  path : Nat
  granule : Nat
  width : Nat
  value : Nat
  deriving DecidableEq, Repr

/-- The kind of access a translation is for (R106). -/
inductive AccessKind where
  | load | store | atomic | fetch
  deriving DecidableEq, Repr

/-- A translation a slot or channel waits for (R108): the path byte, the virtual address and the access kind; `shown` is the
address that a fault names where it is another one, which is so for the entry header (R68). -/
structure Walk where
  path : Nat
  va : Nat
  kind : AccessKind
  shown : Option Nat := none
  deriving DecidableEq, Repr

/-- The kinds of translation fault (R110). -/
inductive XlatKind where
  | invalid | format | home | perm
  deriving DecidableEq, Repr

/-- What the front end has answered for a translation fault (R110). -/
inductive FaultAnswer where
  | waiting | replay | abort
  deriving DecidableEq, Repr

/-- A word that has been fetched: the word, the pc it was fetched for, and the break bit that was filled with it (R125, R325). -/
structure FetchedWord where
  word : Word := 0
  pc : Nat := 0
  brk : Bool := false
  deriving DecidableEq, Repr

/-- A thread slot. `waitObj` is the wait record of a blocked slot: the bound register, the counter, or the scope, id and phase
of the barrier it waits on (R195). `fetched` holds the words the slot has fetched since its last `fencei` (R125); the slot
was free from `freeSince` until `takenAt`, or is free still (R200); `retiredAt` is the cycle of its last retirement
(R216). `faultPfx` says that the instruction of a translation fault had a prefix (R72, R110). `stopWhy` is the reason of a debug stop still to come, and `stopDue` says that it comes before the next
instruction (R321, R322); `locked` says that a stopped slot was interlocked (R321, R388). The first `seenBuf` entries of the
store buffer, the oldest ones, lie at or before one whose value the thread has read by forwarding (R117). -/
structure Thread where
  bank : Bank := {}
  other : Bank := {}
  csr : Csrs := {}
  run : RunState := .idle
  act : Option Activation := none
  shadow : Option Message := none
  pfx : Option Word := none
  sp : Bool := true
  ic : Nat := 0
  lc : Nat := 0
  safePt : Option (Dword × Nat) := none
  sbuf : List (List (Nat × Byte)) := []
  effCls : Nat := 0
  walk : Option Walk := none
  fault : Option Walk := none
  faultPfx : Bool := false
  answer : FaultAnswer := .waiting
  timer : Option Nat := none
  wake : Option Dword := none
  parked : Bool := false
  privBar : FMap Nat := []
  ctr : FMap Word := []
  staged : List (List Byte) := []
  abort : Bool := false
  blockedSince : Nat := 0
  waitObj : Nat := 0
  skipBreak : Bool := false
  ebkStop : Bool := false
  stopWhy : BitVec 3 := 0
  stopDue : Bool := false
  locked : Bool := false
  seenBuf : Nat := 0
  vectorDue : Bool := false
  saveKind : Nat := 0
  fetched : FMap FetchedWord := []
  freeSince : Nat := 0
  takenAt : Nat := 0
  retiredAt : Nat := 0
  deriving DecidableEq, Repr

/-- The states of a latch buffer, coded as in R156. -/
inductive BufState where
  | empty | filling | full | busy
  deriving DecidableEq, Repr

/-- A latch buffer: its state, the byte count it was filled with and its place in the order of FULL buffers (R159). -/
structure LatchBuf where
  st : BufState := .empty
  count : Nat := 0
  order : Nat := 0
  deriving DecidableEq, Repr

/-- Where a latch fill takes its bytes from (R425). -/
inductive FillSrc where
  | sram (off : Nat)
  | bound (slot reg : Nat)
  deriving DecidableEq, Repr

/-- A latch fill in progress (R425). -/
structure Fill where
  buf : Nat
  src : FillSrc
  total : Nat
  got : Nat
  slot : Nat
  deriving DecidableEq, Repr

/-- A hand-off (R166): the sender's buffer, the gang and logical id of the successor, the byte count, the buffer claimed
at the successor, and the issuer that an error record names. -/
structure Handoff where
  buf : Nat
  gang : Nat
  succ : Nat
  bytes : Nat
  claimed : Option (Nat × Nat) := none
  cmdDone : Bool := false
  slot : Nat := 0
  serial : Word := 0
  asid : BitVec 16 := 0
  deriving DecidableEq, Repr

/-- The matrix commands (R161). -/
inductive MatrixOp where
  | mma | mmv | mst | mrd (vd row block : Nat) (narrow : Bool) | mzero
  deriving DecidableEq, Repr

/-- A running matrix command with everything it sampled at issue (R157): the issuer, the base, the bank, the release of the
hold, the engine registers, the semiring, the rounding mode, the wrap or OCP choice and the latch buffer it consumes. -/
structure MatrixCmd where
  op : MatrixOp
  slot : Nat
  ctx : Word
  asid : BitVec 16
  serial : Word
  base : Nat
  bank : Nat
  rel : Bool
  k : Nat
  af : Nat
  bf : Nat
  scb : Nat
  astr : Nat
  stride : Nat
  ofmt : Nat
  nout : Nat
  sr : Nat
  mode : BitVec 2
  wrap : Bool
  buf : Option Nat := none
  deriving DecidableEq, Repr

/-- The matrix engine's state shared by a tile's slots (R156, R159, R161, R166, R168). Accumulator element (i, n) of
bank b has key 4096 b + 64 i + n; `ints` marks the banks whose accumulators are s32 (log entry 10), and `latFree` says that the
thread that wrote `mx.lat` had the raw access of supervisor or Gust code (R84, R88, R157). -/
structure Matrix where
  acc : FMap Word := []
  ints : BitVec 4 := 0
  held : FMap Nat := []
  lat : Dword := 0
  latFree : Bool := false
  ring : Dword := 0
  ringSlot : Option Nat := none
  buf0 : LatchBuf := {}
  buf1 : LatchBuf := {}
  fullSeq : Nat := 0
  fills : List Fill := []
  hands : List Handoff := []
  running : Option MatrixCmd := none
  deriving DecidableEq, Repr

/-- Who makes an access: a thread, or a command of an engine with what it took from its issuer (R181); `window` is the window
of an agent handler's row (R264). -/
structure Issuer where
  core : Nat
  slot : Nat
  sup : Bool
  gustProfile : Option Nat
  gang : Option (Nat × Nat)
  asid : BitVec 16
  tag : Option Nat
  window : Option (Nat × Nat)
  deriving DecidableEq, Repr

/-- A mover command (R177, R180): the descriptor registers it copied, whether it adds (`mvred`), the modes it sampled,
its issuer with the context id and serial that its flags and records name, and the next element. -/
structure MoverCmd where
  desc : List Dword
  red : Bool
  mode : BitVec 2
  ocp : Bool
  issuer : Issuer
  ctx : Word
  serial : Word
  idx : Nat := 0
  deriving DecidableEq, Repr

/-- The states of a mover channel (R176). -/
inductive MoverState where
  | idle | running | halted | stopped
  deriving DecidableEq, Repr

/-- A mover channel (R176, R183). -/
structure Mover where
  st : MoverState := .idle
  run : Option MoverCmd := none
  queued : Option MoverCmd := none
  err : Nat := 0
  killed : Bool := false
  killing : Bool := false
  done : Nat := 0
  walk : Option Walk := none
  deriving DecidableEq, Repr

/-- The peer of a mesh channel (R187). -/
inductive Peer where
  | member (id : Nat)
  | neighbour (dir : Nat)
  deriving DecidableEq, Repr

/-- What a bound register is bound to (R185, R187). -/
inductive BoundKind where
  | readStream (chan : Nat)
  | writeStream (chan : Nat)
  | chanIn (peer : Peer) (port bufs : Nat)
  | chanOut (peer : Peer) (port : Nat)
  deriving DecidableEq, Repr

/-- A bound register (R185 to R189): its slot and number, its entries (`none` is an end-of-stream beat), bytes that do
not yet make an entry, the read but unreturned buffers of an input end, the credits of an output end, whether its
pattern is complete, whether an `mldb.s` fill uses it, and whether Gust code made it. -/
structure Bound where
  slot : Nat
  reg : Nat
  kind : BoundKind
  fifo : List (Option Vec) := []
  part : List Byte := []
  readBufs : Nat := 0
  credits : Nat := 0
  linked : Bool := false
  finished : Bool := false
  filling : Bool := false
  gang : Option (Nat × Nat) := none
  gust : Bool := false
  deriving DecidableEq, Repr

/-- A TLB entry (R107): the root (0 generic, 1 host, 2 peer), the address-space id, the level of its leaf, the page's
virtual number at that level, and the leaf. -/
structure TlbEntry where
  root : Nat
  asid : BitVec 16
  level : Nat
  page : Nat
  leaf : Dword
  deriving DecidableEq, Repr

/-- A `tuntil` timer (R232, R462), with the slot whose counters it adds to on a slice agent (R261). -/
structure Timer where
  at_ : Nat
  ctr : Nat
  slot : Nat
  deriving DecidableEq, Repr

/-- A tile barrier (R377): completed phases, arrivals in the open phase and its arrival count. -/
structure TileBar where
  phase : Nat := 0
  arrived : Nat := 0
  need : Nat := 0
  deriving DecidableEq, Repr

/-- A successor waiting to leave (R40, R41): a message or a gang request with its descriptor bytes. -/
inductive Successor where
  | message (dst : Nat) (m : Message)
  | gang (desc : List Byte) (asid : BitVec 16)
  deriving DecidableEq, Repr

/-- A successor of Gust code, which its tile sends through the Gust bridge and with the bridge's credits (R29, R218). -/
def Successor.isGust : Successor → Bool
  | .message _ m => m.srcKind == 5
  | .gang _ _ => false

/-- A line event or message that waits for a slice agent's handler (R262, R265): the row it came for, the address-space id
of the line's owner, and the number of the hold when the line is held for this event. -/
inductive AgentWork where
  | line (kind : Nat) (row : Nat) (asid : BitVec 16) (hold : Option Nat) (e : LineEvent)
  | message (row : Nat) (m : Message)
  deriving DecidableEq, Repr

/-- The debug block (R319 to R325). -/
structure Debug where
  haltreq : Bool := false
  bken : Bool := false
  ebkclm : Bool := false
  trapstop : Bool := false
  allstop : Bool := false
  bkbusy : Bool := false
  err : Bool := false
  stepslot : BitVec 2 := 0
  reason : BitVec 3 := 0
  sel : Word := 0
  bkbase : Dword := 0
  bkmap : Dword := 0
  deriving DecidableEq, Repr

/-- What may still have to be logged (R327, R328): a slot's change of state, with the cycle and the device time of the
state's first cycle and the cycle in which it ended, or, with `words`, an activation record: its first word without DELTA
and the words behind it. -/
structure LogChange where
  slot : Nat
  st : Nat
  at_ : Nat
  ns : Nat
  ended : Option Nat := none
  words : Option (Nat × List Nat) := none
  deriving DecidableEq, Repr

/-- The core log (R327 to R329): its registers, the words lost since the last loss entry, the moment of the last entry, for
each slot the state last logged and the state it is in now, and what may still have to be logged, in order of moments. -/
structure CoreLog where
  en : Bool := false
  act : Bool := false
  log2n : BitVec 5 := 0
  dwell : BitVec 12 := 64
  base : BitVec 48 := 0
  widx : Word := 0
  lost : Word := 0
  ridx : Word := 0
  gap : Nat := 0
  last : Nat := 0
  logged : FMap Nat := []
  seen : FMap Nat := []
  queue : List LogChange := []
  deriving DecidableEq, Repr

/-- The part of a core's state that a partition save, a seizure or a relocation moves as the tile's context
(R69, R173, R193, R307). -/
structure TileCtx where
  threads : FMap Thread := []
  ctr : FMap Word := []
  binds : FMap (BitVec 128) := []
  clearing : FMap (List Nat) := []
  mx : Matrix := {}
  movers : FMap Mover := []
  bounds : List Bound := []
  timers : List Timer := []
  bars : FMap TileBar := []
  w4sc : Word := 0
  w3sc : Word := 0
  mxsc : Word := 0
  creditsUsed : FMap Nat := []
  deriving DecidableEq, Repr

/-- What a spilled tile's area holds, and what a relocation moves: the context and the queues of messages
(R219, R307, R309). -/
structure TileImage where
  ctx : TileCtx := {}
  slotcls : Byte := 0
  spbase : Word := 0
  spsize : Word := 0
  l1cfg : BitVec 2 := 0
  overMax : Nat := 1024
  serial : Word := 0
  pending : List Message := []
  overflow : List Message := []
  hold : List Message := []
  succQ : List Successor := []
  deriving DecidableEq, Repr

/-- A `pf` whose translation is being walked: its slot, address-space id, path, address and hint (R108, R435). -/
structure Prefetch where
  slot : Nat
  asid : BitVec 16
  path : Nat
  va : Nat
  hint : Nat
  deriving DecidableEq, Repr

/-- A core. `halting` holds from a HALT to the RESUME (R306); `gust` names the profile whose seizure has the tile,
`gustOn` says that its Gust code has started and `gustSaved` that the tenant's context comes back at the release (R215).
`lastSlot` is the slot that issued last (R54), and `lastTry` the one that had the last turn, if only to try again.
`icache` holds the words of the instruction cache, the newest first (R125), and `overMax` the size of the overflow queue,
which the driver sets (R34). -/
structure Core where
  cx : TileCtx := {}
  saved : Option TileCtx := none
  slotcls : Byte := 0
  spbase : Word := 0
  spsize : Word := 0
  l1cfg : BitVec 2 := 0
  l1pending : Option (BitVec 2) := none
  asid : BitVec 16 := 0
  serial : Word := 0
  lastSlot : Nat := 3
  lastTry : Nat := 3
  icache : List (Nat × FetchedWord) := []
  overMax : Nat := 1024
  tlb : List TlbEntry := []
  prefetches : List Prefetch := []
  gustUsed : FMap Nat := []
  inbox : List Message := []
  pending : List Message := []
  overflow : List Message := []
  hold : List Message := []
  succQ : List Successor := []
  reserved : FMap Nat := []
  work : List AgentWork := []
  halting : Bool := false
  gust : Option Nat := none
  gustOn : Bool := false
  gustSaved : Bool := false
  dbg : Debug := {}
  log : CoreLog := {}
  pmsel : Dword := 0
  pmc : FMap Dword := []
  deriving DecidableEq, Repr

end Sys2Proof.Machine
end

