-- ==== Sys2Proof/Machine/DeviceState.lean ====
section
/-! DEFINITION. What the TK2 holds outside its cores: the time unit, the version mailbox, Gust, the hot spare, the
generation block, the die-cache slices, the front end, partitions, the error queue, start-up and the host link. Every
structure is plain data; a field's default is its value after reset. -/

namespace Sys2Proof.Machine

/-- The time unit (R225): device time in PTP ns, core cycles since reset, and `tmctl` with a slew still to apply. -/
structure Clock where
  now : Nat := 0
  cc : Nat := 0
  lock : Bool := false
  stepped : Bool := false
  src : Nat := 0
  slew : Int := 0
  deriving DecidableEq, Repr

/-- A tick entry (R199, R200): its register, the sequence number and nominal time of the next firing, whether the last
firing delivered is still undispatched, and the firings replaced since the last dispatch. -/
structure Tick where
  reg : BitVec 256 := 0
  seq : Nat := 0
  next : Nat := 0
  undispatched : Bool := false
  replaced : Nat := 0
  deriving DecidableEq, Repr

/-- The states of a mailbox buffer (R204). -/
inductive MbBuf where
  | free | latest | opened
  deriving DecidableEq, Repr

/-- A mailbox buffer (R204): its state, the version it holds (0 for none), its pins and BAD. -/
structure MbBuffer where
  st : MbBuf := .free
  ver : Nat := 0
  pins : Nat := 0
  bad : Bool := false
  deriving DecidableEq, Repr

/-- A mailbox slot (R202 to R204): its entry, its version and its four buffers. -/
structure MbSlot where
  reg : BitVec 128 := 0
  ver : Nat := 0
  b0 : MbBuffer := {}
  b1 : MbBuffer := {}
  b2 : MbBuffer := {}
  b3 : MbBuffer := {}
  deriving DecidableEq, Repr

/-- An `mbsnap` copy in flight (R208): its slot and buffer, the copied header's flags, the destination, the tile context and
counter that it adds to, what its records name of the issuer (R311), and the bytes once they no longer lie in a pinned buffer
(R202, R203). -/
structure Snap where
  slot : Nat
  buf : Nat
  older : Bool
  stale : Bool
  dst : Nat
  core : Nat
  ctr : Nat
  thread : Nat
  gust : Bool
  tile : Nat
  asid : BitVec 16
  serial : Word
  bytes : Option (List Byte) := none
  deriving DecidableEq, Repr

/-- A Gust profile (R212, R214, R215): its register, its tile set, and its seizure when held: the time of acceptance,
the payload, the members whose code has started, the tile of each member, and EXPIRED. -/
structure GustProfile where
  reg : BitVec 128 := 0
  tiles : List Nat := []
  held : Bool := false
  expired : Bool := false
  accepted : Nat := 0
  payload : List Word := []
  started : List Nat := []
  deriving DecidableEq, Repr

/-- The hot-spare logic (R221, R223, R224). -/
structure Spare where
  role : BitVec 2 := 0
  selffence : Bool := false
  taken : Bool := false
  cause : BitVec 2 := 0
  missed : BitVec 8 := 0
  windowAt : Nat := 0
  keep : FMap (BitVec 128) := []
  outbox : List MirrorPublish := []
  keepOut : List KeepMirror := []
  keepIn : List KeepMirror := []
  heartbeats : Nat := 0
  fatalSent : Bool := false
  deriving DecidableEq, Repr

/-- A record held by a timed stream (R227, R228). -/
structure HeldRecord where
  time : BitVec 64
  seq : BitVec 32
  off : Nat
  size : Nat
  late : Bool
  consumed : Bool
  deriving DecidableEq, Repr

/-- A timed stream (R226 to R230): its register, its records in ring order, the ring's next offset, the sequence numbers and
times of the records that have come since the oldest held one, the number of the next decode tick, the ticks that fire late,
the latest time of a tick that has fired, and whether the last one is still undispatched. -/
structure Stream where
  reg : BitVec 512 := 0
  recs : List HeldRecord := []
  head : Nat := 0
  seen : List (BitVec 32 × BitVec 64) := []
  tick : Int := 0
  late : List Int := []
  fired : Option Nat := none
  undispatched : Bool := false
  deriving DecidableEq, Repr

/-- A frame committed to an egress queue (R234). -/
structure Frame where
  launch : Nat
  bytes : List Byte
  deriving DecidableEq, Repr

/-- An egress queue (R233 to R235): V, STANDBY and MAC, its counters, its frames in commit order, its staging area and
the slot that claims it (core, slot, context id). -/
structure Egress where
  v : Bool := false
  standby : Bool := false
  mac : Bool := false
  sent : Word := 0
  late : Word := 0
  dropped : Word := 0
  frames : List Frame := []
  stage : List (Nat × Byte) := []
  claim : Option (Nat × Nat × Word) := none
  deriving DecidableEq, Repr

/-- The step scheduler and its block (R237 to R242), the templates, histograms and bandit (R244 to R248). -/
structure Generation where
  owner : Option (BitVec 16) := none
  block : Nat := 0
  bmax : Nat := 0
  stopping : Bool := false
  submitted : Bool := false
  stepGang : Option Nat := none
  batch : List Nat := []
  waitUntil : Nat := 0
  templates : FMap (BitVec 2048) := []
  hbank : Bool := false
  hist : FMap Word := []
  banditN : FMap Word := []
  banditS : FMap Word := []
  choice : FMap Nat := []
  usedNodes : FMap Nat := []
  deriving DecidableEq, Repr

/-- An entry of the sampling queue (R249, R250). -/
structure QEntry where
  asid : BitVec 16
  cls : Nat
  words : List Word
  deriving DecidableEq, Repr

/-- A claimer in line (R251). -/
structure Claimer where
  core : Nat
  slot : Nat
  asid : BitVec 16
  cm : Nat
  deriving DecidableEq, Repr

/-- A line of a die-cache slice (R263, R265, R268): its flag DIRTY, owner, pins and way; whether it is held, by an intercept
while it is not yet present or by an eviction once it is; whether a fill of it is under way, and by the agent; its bytes as
installed, and those that DRAM holds. -/
structure Line where
  dirty : Bool := false
  owner : BitVec 16 := 0
  pins : Nat := 0
  way : Nat := 0
  held : Bool := false
  hold : Nat := 0
  present : Bool := true
  filling : Bool := false
  byAgent : Bool := false
  orig : List Byte := []
  back : List Byte := []
  deriving DecidableEq, Repr

/-- A thread parked on a future (R272). -/
structure Waiter where
  core : Nat
  slot : Nat
  asid : BitVec 16
  cell : Nat
  image : Option Nat := none
  deriving DecidableEq, Repr

/-- A page walk that slots of one core wait for (R108): the core, the address-space id, the root and the virtual page. -/
structure WalkReq where
  core : Nat
  asid : BitVec 16
  root : Nat
  page : Nat
  deriving DecidableEq, Repr

/-- A die-cache slice and its agent's control registers (R264, R269, R272): event-table rows, lines by the number of
their location, the sets whose next eviction raises no event (R265), the loader with the descriptor and the byte that it has come to, the wait table, the walks under way and the walk
queue (R108). -/
structure Slice where
  rows : FMap (BitVec 128) := []
  lines : FMap Line := []
  silent : List Nat := []
  holdSeq : Nat := 0
  ldctl : Dword := 0
  ldIdx : Nat := 0
  ldOff : Nat := 0
  wtovf : Dword := 0
  waiters : List Waiter := []
  walking : List WalkReq := []
  walkQ : List WalkReq := []
  deriving DecidableEq, Repr

/-- The states of a queue (R279). -/
inductive QueueState where
  | free | active | draining | faulted
  deriving DecidableEq, Repr

/-- A queue (R278, R279) with its destruction in progress (R289). -/
structure Queue where
  st : QueueState := .free
  ring : Nat := 0
  log2n : Nat := 0
  cls : Nat := 0
  budget : Nat := 0
  asid : BitVec 16 := 0
  ctxpg : Nat := 0
  shadow : Nat := 0
  prog : Word := 0
  lastseq : Word := 0
  widx : Word := 0
  ridx : Word := 0
  stale : BitVec 16 := 0
  recov : BitVec 16 := 0
  fcode : Nat := 0
  running : Bool := false
  destroy : List (Nat × Nat) := []
  destroyAbort : Bool := false
  deriving DecidableEq, Repr

/-- A program loaded by service 0x32 (R276, R290). -/
structure Program where
  entry : BitVec 64
  asid : BitVec 16
  queueProgram : Bool
  deriving DecidableEq, Repr

/-- An installed context (R102, R291, R292): its roots and its context id's generation. -/
structure Context where
  generic : Nat := 0
  host : Nat := 0
  peer : Nat := 0
  gen : Nat := 0
  live : Bool := true
  deriving DecidableEq, Repr

/-- How a gang member stands (R46, R47). -/
inductive MemberState where
  | running | exited | aborted
  deriving DecidableEq, Repr

/-- A gang member: its tile and slot, the tile it was placed on (R165), its state and whether it has triggered (R47). -/
structure Member where
  tile : Nat
  home : Nat
  slot : Nat
  st : MemberState := .running
  trig : Bool := false
  deriving DecidableEq, Repr

/-- The life of a gang (R46, R288). -/
inductive GangState where
  | pending | reserving | live | ended
  deriving DecidableEq, Repr

/-- A gang (R43 to R49): its descriptor's fields, the number of each producer gang, its members by logical id, the
arrivals of its barriers, the start time of its members, the tiles being reserved and whether any member ended by
abort. Arrivals of member m at barrier i have key 4096 z + 256 i + m, with z = 0 for `.die` and 1 for `.dom`. -/
structure Gang where
  no : Nat
  name : Word := 0
  asid : BitVec 16 := 0
  ctx : Word := 0
  n : Nat := 0
  shape : Nat := 0
  sparam : Nat := 0
  etag : BitVec 16 := 0
  cls : Nat := 0
  gust : Bool := false
  waitexit : Bool := false
  prods : List Nat := []
  depst : BitVec 4 := 0
  payload : List Word := []
  queue : Option Nat := none
  st : GangState := .pending
  members : FMap Member := []
  bars : FMap Nat := []
  start : Nat := 0
  tries : Nat := 0
  aborted : Bool := false
  parked : Bool := false
  deriving DecidableEq, Repr

/-- A gang request that waits at the placement unit's port (R41, R284); `step` marks that of the step scheduler (R241). -/
structure GangRequest where
  desc : List Byte
  asid : BitVec 16
  queue : Option Nat := none
  step : Bool := false
  deriving DecidableEq, Repr

/-- The states of a partition (R304, R305). -/
inductive PartState where
  | free | running | halting | halted | saved | spilled | busy
  deriving DecidableEq, Repr

/-- A partition (R304, R305): its fields, its state, and the command in progress with the state it leads to. -/
structure Partition where
  spillpa : BitVec 36 := 0
  asid : BitVec 16 := 0
  st : PartState := .free
  err : Bool := false
  cen : Bool := false
  ctile : BitVec 8 := 0
  ccnt : BitVec 6 := 0
  tiles : BitVec 256 := 0
  next : Option PartState := none
  spillTiles : BitVec 256 := 0
  images : List TileImage := []
  deriving DecidableEq, Repr

/-- The error queue's register (R317), with the overflow flag its next record carries. -/
structure ErrQueue where
  base : Dword := 0
  widx : Word := 0
  ridx : Word := 0
  lost : Word := 0
  en : Bool := false
  host : Bool := false
  log2n : BitVec 5 := 0
  ovf : Bool := false
  cecnt : Word := 0
  ceSeen : FMap Nat := []
  deriving DecidableEq, Repr

/-- Squall (R194, R195): `sqcfg` and the sets already reported, by their parties. -/
structure Squall where
  en : Bool := true
  thresh : BitVec 20 := 1000
  reported : List (List Nat) := []
  deriving DecidableEq, Repr

/-- The thermal controller (R295, R296). -/
structure Shed where
  level : Nat := 0
  tlim : Byte := 95
  env : Byte := 200
  temp : Byte := 0
  below : Nat := 0
  mclk : Nat := 800
  deriving DecidableEq, Repr

/-- Start-up, features, measurement and attestation (R336 to R340). -/
structure Boot where
  stage : Nat := 0
  fail : Nat := 0
  addr : Dword := 0
  m : BitVec 256 := 0
  logged : Nat := 0
  logfull : Bool := false
  nonce : BitVec 256 := 0
  out : Dword := 0
  busy : Bool := false
  attFail : Bool := false
  featacc : BitVec 256 := 1
  installed : Bool := false
  deriving DecidableEq, Repr

/-- The host link (R333 to R335): the bad-access count, the time each MSI-X vector's window ends with whether a raise is
owed, the raises made, the ingest apertures, the attempts of each port's CAS loops (R127), whether port B is an endpoint
(R332), and the data and the poison of the last completion that left a port (R313, R333). -/
structure HostLink where
  hostbad : Word := 0
  window : FMap Nat := []
  owed : FMap Nat := []
  raised : FMap Nat := []
  aperture : FMap (List (Nat × Byte)) := []
  portTries : FMap Nat := []
  pbEndpoint : Bool := false
  reply : List Byte := []
  replyPoison : Bool := false
  deriving DecidableEq, Repr

/-- What travels between units: messages to a core, beats and credits of mesh channels (`true` for those of Gust code),
remote counter adds, message credits, trigger notices and barrier arrivals. -/
structure Flight where
  messages : List (Nat × Message) := []
  credits : List (Nat × Nat × Bool) := []
  beats : List (Nat × Nat × Bool × Option Vec) := []
  chanCredits : List (Nat × Nat × Bool) := []
  cadds : List (Nat × Nat × Word) := []
  notices : List (Nat × Nat) := []
  arrivals : List (Nat × Nat × Nat × Nat) := []
  deriving DecidableEq, Repr

/-- A shoot-down that waits for its acknowledgements (R114). -/
structure Shootdown where
  asid : BitVec 16
  tile : Nat
  ctr : Nat
  deriving DecidableEq, Repr

end Sys2Proof.Machine
end

