-- ==== Sys2Proof/Machine/State.lean ====
section
/-! DEFINITION. The state of the whole device, its reset value, and the reasons a step can stop. -/

namespace Sys2Proof.Machine

/-- What happens next, when the schedule says so: an event of the table, or the turn of a thread slot. -/
inductive Turn where
  | event (i : Instr)
  | thread (core slot : Nat)
  deriving DecidableEq, Repr

/-- The state of the TK2. `agenda` is the schedule of turns still to come, and `cur` and `slot` name the thread whose
turn it is (log entry 2). `mem` holds every byte of storage at a location of the model's own numbering (log entry 4),
in canonical form; `lastQueue` names the queue of each class
that ran last (R275), and `frameSeq` counts the frames taken for migrated pages (log entry 6); `macFree` is the time at which each MAC has
sent its last frame (R234); `poison` lists the poisoned granules by their first
location (R313), and `resvs` the reservation of each slot (R129), keyed 4 × core + slot. -/
structure State where
  agenda : List Turn := []
  cur : Nat := 0
  slot : Nat := 3
  cores : FMap Core := []
  mem : List Host.Cell := []
  poison : List Nat := []
  resvs : FMap Reservation := []
  clock : Clock := {}
  ticks : FMap Tick := []
  mbs : FMap MbSlot := []
  snaps : List Snap := []
  gustPool : BitVec 256 := 0
  gusts : FMap GustProfile := []
  spare : Spare := {}
  streams : FMap Stream := []
  egress : FMap Egress := []
  macFree : FMap Nat := []
  gen : Generation := {}
  queue : List QEntry := []
  queuePort : List Message := []
  claimers : List Claimer := []
  slices : FMap Slice := []
  queues : FMap Queue := []
  lastQueue : FMap Nat := []
  programs : FMap Program := []
  handles : List (ServiceReq × Word) := []
  frames : List (Nat × Nat × BitVec 16) := []
  frameSeq : Nat := 0
  contexts : FMap Context := []
  gens : FMap Nat := []
  gangs : List Gang := []
  gangPort : List GangRequest := []
  parts : FMap Partition := []
  errq : ErrQueue := {}
  squall : Squall := {}
  shed : Shed := {}
  boot : Boot := {}
  link : HostLink := {}
  flight : Flight := {}
  services : List ServiceReq := []
  shootdowns : List Shootdown := []
  fatal : Bool := false
  deriving DecidableEq, Repr

/-- Why a step stops in a fault. -/
inductive Fault where
  /-- Raised by any event whose arguments name a unit the device does not have (R10); no such event exists, so stopping
  is safe. -/
  | malformedEvent
  deriving DecidableEq, Repr

/-- Why a step is refused. -/
inductive Refusal where
  /-- Raised by an instruction that has no meaning in the model yet; safe, since nothing can be proved of it. -/
  | notModelled (mnemonic : String)
  deriving DecidableEq, Repr

/-- The state right after reset: every field at its default (R63, R317, R337 and the sections named in the
inventory). Entry 0 of the partition table is RUNNING (R304). -/
def State.reset : State := { parts := [(0, { st := .running })] }

end Sys2Proof.Machine
end

