-- ==== Sys2Proof/WellFormed.lean ====
section
/-! DEFINITION. The static checks of an instruction: operand values that make a word an illegal encoding (R58, R62,
R74, R300, R344, R351, R353, R466), and, for an event, that the units it names exist (R10). -/

namespace Sys2Proof

/-- A pair index of 1 to 15 (R58, R344). -/
def isPair (r : BitVec 5) : Bool := decide (1 ≤ r.toNat) && decide (r.toNat ≤ 15)

/-- A register that can be bound, 24 to 31 (R344). -/
def isBoundReg (r : BitVec 5) : Bool := decide (24 ≤ r.toNat)

/-- An integer element type with its unsigned bit (R353, R466). -/
def isIntType (y : BitVec 3) (u : BitVec 1) : Bool :=
  if u == 0 then y == 0 || y == 1 || y == 2 || y == 6 else y == 1 || y == 2

/-- A signed integer element type, the only ones of a row marked signed only (R353, R354). -/
def isSignedType (y : BitVec 3) : Bool := y == 0 || y == 1 || y == 2

/-- A floating element type (R353, R466). -/
def isFloatType (y : BitVec 3) : Bool := y == 3 || y == 4 || y == 5

/-- Any element type; the unsigned bit goes with an integer type only (R353, R466). -/
def isAnyType (y : BitVec 3) (u : BitVec 1) : Bool := isIntType y u || (isFloatType y && u == 0)

/-- The element types of a gather or scatter (R488). -/
def isIndexType (y : BitVec 3) : Bool := y == 0 || y == 1 || y == 2 || y == 6

/-- The CSR numbers that the map lists (R62, R63). -/
def csrNumbers : List Nat :=
  [0x00, 0x01, 0x02, 0x03, 0x10, 0x11, 0x12, 0x13, 0x14, 0x18, 0x19, 0x1A] ++
  [0x20, 0x21, 0x22, 0x23, 0x24, 0x25, 0x26, 0x27, 0x28, 0x30, 0x31] ++
  [0x40, 0x41, 0x42, 0x43, 0x48, 0x49, 0x4A, 0x50, 0x51, 0x60, 0x61]

/-- A CSR number that the map lists (R62). -/
def isCsr (c : BitVec 8) : Bool := csrNumbers.contains c.toNat

/-- An option prefix whose fields hold no reserved value or bit (R74). -/
def isOptPayload (p : BitVec 24) : Bool :=
  decide (p.toNat < 256) && decide (p.toNat % 8 ≤ 4) && decide (p.toNat / 8 % 4 ≤ 2) && decide (p.toNat / 32 ≤ 5)

/-- A core of the device: reasoning tiles 0 to 255, reflex tiles 256 to 287, slice agents 288 to 351 and front-end
cores 352 to 359 (R10; the numbering is the model's). -/
def isCore (c : Nat) : Bool := decide (c < 360)

/-- A reasoning or reflex tile. -/
def isTile (c : Nat) : Bool := decide (c < 288)

/-- A reflex tile. -/
def isReflex (c : Nat) : Bool := decide (256 ≤ c) && decide (c < 288)

/-- A slice agent. -/
def isAgent (c : Nat) : Bool := decide (288 ≤ c) && decide (c < 352)

/-- A front-end core. -/
def isFrontEnd (c : Nat) : Bool := decide (352 ≤ c) && decide (c < 360)

/-- The thread slot or mover channel exists. -/
def FaultTarget.exists : FaultTarget → Bool
  | .thread core slot => isCore core && decide (slot < 4)
  | .channel core chan => isCore core && decide (chan < 4)

/-- The unit exists (R10). -/
def ErrUnit.exists (u : ErrUnit) : Bool :=
  match u.kind with
  | .reasoning => decide (u.index < 256)
  | .reflex => decide (u.index < 32)
  | .agent => decide (u.index < 64)
  | .frontEnd => decide (u.index < 8)
  | .timeUnit | .portA | .portB | .mailbox => u.index == 0

/-- The static checks of an instruction or event. -/
def wellFormed : Instr → Bool
  | .add _ _ _ => true
  | .sub _ _ _ => true
  | .and _ _ _ => true
  | .or _ _ _ => true
  | .xor _ _ _ => true
  | .andn _ _ _ => true
  | .sll _ _ _ => true
  | .srl _ _ _ => true
  | .sra _ _ _ => true
  | .rol _ _ _ => true
  | .slt _ _ _ => true
  | .sltu _ _ _ => true
  | .min _ _ _ => true
  | .max _ _ _ => true
  | .minu _ _ _ => true
  | .maxu _ _ _ => true
  | .mul _ _ _ => true
  | .mulh _ _ _ => true
  | .mulhu _ _ _ => true
  | .div _ _ _ => true
  | .divu _ _ _ => true
  | .rem _ _ _ => true
  | .remu _ _ _ => true
  | .clz _ _ => true
  | .ctz _ _ => true
  | .popc _ _ => true
  | .sextB _ _ => true
  | .sextH _ _ => true
  | .zextB _ _ => true
  | .zextH _ _ => true
  | .bfx _ _ _ => true
  | .bfi _ _ _ => true
  | .addi _ _ _ => true
  | .andi _ _ _ => true
  | .ori _ _ _ => true
  | .xori _ _ _ => true
  | .slti _ _ _ => true
  | .sltiu _ _ _ => true
  | .lui _ _ => true
  | .slli _ _ _ => true
  | .srli _ _ _ => true
  | .srai _ _ _ => true
  | .addpi d s _ => isPair d && isPair s
  | .addp d s _ => isPair d && isPair s
  | .subp d s t => isPair d && isPair s && isPair t
  | .movp d s => isPair d && isPair s
  | .beq _ _ _ => true
  | .bne _ _ _ => true
  | .blt _ _ _ => true
  | .bge _ _ _ => true
  | .bltu _ _ _ => true
  | .bgeu _ _ _ => true
  | .bkany _ _ => true
  | .bkall _ _ => true
  | .bknone _ _ => true
  | .bceos v _ => isBoundReg v
  | .j _ => true
  | .jal _ => true
  | .jalr _ _ _ => true
  | .jalrFar d s _ => isPair s && (d == 0 || isPair d)
  | .dbnz _ _ => true
  | .lb _ _ _ => true
  | .lbu _ _ _ => true
  | .lh _ _ _ => true
  | .lhu _ _ _ => true
  | .lw _ _ _ => true
  | .ld d _ _ => isPair d
  | .sb _ _ _ => true
  | .sh _ _ _ => true
  | .sw _ _ _ => true
  | .sd d _ _ => isPair d
  | .vld _ _ _ _ => true
  | .vst _ _ _ _ => true
  | .pf _ h _ => h != 3
  | .amoaddW _ s _ _ _ _ => isPair s
  | .amoaddD d s t _ _ _ => isPair d && isPair s && isPair t
  | .amoandW _ s _ _ _ _ => isPair s
  | .amoandD d s t _ _ _ => isPair d && isPair s && isPair t
  | .amoorW _ s _ _ _ _ => isPair s
  | .amoorD d s t _ _ _ => isPair d && isPair s && isPair t
  | .amoxorW _ s _ _ _ _ => isPair s
  | .amoxorD d s t _ _ _ => isPair d && isPair s && isPair t
  | .amominW _ s _ _ _ _ => isPair s
  | .amominD d s t _ _ _ => isPair d && isPair s && isPair t
  | .amomaxW _ s _ _ _ _ => isPair s
  | .amomaxD d s t _ _ _ => isPair d && isPair s && isPair t
  | .amominuW _ s _ _ _ _ => isPair s
  | .amominuD d s t _ _ _ => isPair d && isPair s && isPair t
  | .amomaxuW _ s _ _ _ _ => isPair s
  | .amomaxuD d s t _ _ _ => isPair d && isPair s && isPair t
  | .amoswapW _ s _ _ _ _ => isPair s
  | .amoswapD d s t _ _ _ => isPair d && isPair s && isPair t
  | .amofadd _ s _ _ _ _ => isPair s
  | .casW _ s _ _ _ _ => isPair s
  | .casD d s t _ _ _ => isPair d && isPair s && isPair t
  | .lrW _ s _ _ _ => isPair s
  | .lrD d s _ _ _ => isPair d && isPair s
  | .scW _ s _ _ _ _ => isPair s
  | .scD d s t _ _ _ => isPair d && isPair s && isPair t
  | .fence p s _ => p != 0 && s != 0
  | .fencei => true
  | .barv _ _ c => c != 3
  | .barw _ _ c => c != 3
  | .trig => true
  | .waitdep _ => true
  | .wrs _ _ => true
  | .fput _ s t => isPair s && isPair t
  | .fget d s => isPair d && isPair s
  | .freset _ s => isPair s
  | .vadd _ _ _ _ y u => isIntType y u
  | .vsub _ _ _ _ y u => isIntType y u
  | .vmul _ _ _ _ y u => isIntType y u
  | .vmin _ _ _ _ y u => isIntType y u
  | .vmax _ _ _ _ y u => isIntType y u
  | .vabs _ _ _ y => isSignedType y
  | .vneg _ _ _ y => isSignedType y
  | .vand _ _ _ _ y => isSignedType y
  | .vor _ _ _ _ y => isSignedType y
  | .vxor _ _ _ _ y => isSignedType y
  | .vandn _ _ _ _ y => isSignedType y
  | .vsll _ _ _ _ y => isSignedType y
  | .vsrl _ _ _ _ y => isSignedType y
  | .vsra _ _ _ _ y => isSignedType y
  | .vclamp _ _ _ _ y u => isIntType y u
  | .vdot _ _ _ _ y u => isIntType y u
  | .vaddF _ _ _ _ y => isFloatType y
  | .vsubF _ _ _ _ y => isFloatType y
  | .vmulF _ _ _ _ y => isFloatType y
  | .vminF _ _ _ _ y => isFloatType y
  | .vmaxF _ _ _ _ y => isFloatType y
  | .vabsF _ _ _ y => isFloatType y
  | .vnegF _ _ _ y => isFloatType y
  | .vfma _ _ _ _ y => isFloatType y
  | .vfms _ _ _ _ y => isFloatType y
  | .vclampF _ _ _ _ y => isFloatType y
  | .vdotF _ _ _ _ y => isFloatType y
  | .vcmpEq _ _ _ _ y u => isAnyType y u
  | .vcmpNe _ _ _ _ y u => isAnyType y u
  | .vcmpLt _ _ _ _ y u => isAnyType y u
  | .vcmpLe _ _ _ _ y u => isAnyType y u
  | .vcmpGt _ _ _ _ y u => isAnyType y u
  | .vcmpGe _ _ _ _ y u => isAnyType y u
  | .vsel _ _ _ _ y => y != 7
  | .kmovX _ _ => true
  | .kand _ _ _ => true
  | .kor _ _ _ => true
  | .kxor _ _ _ => true
  | .knot _ _ => true
  | .kmovK _ _ => true
  | .kpopc _ _ => true
  | .kfirst _ _ => true
  | .kgen _ _ => true
  | .vcvt _ _ s _ e => s != e && s.toNat <= 10 && e.toNat <= 10
  | .vexp2 _ _ _ y => isFloatType y
  | .vlog2 _ _ _ y => isFloatType y
  | .vrcp _ _ _ y => isFloatType y
  | .vrsqrt _ _ _ y => isFloatType y
  | .vpopc _ _ _ y => isSignedType y
  | .vredsum _ _ _ y u => isAnyType y u
  | .vredmax _ _ _ y u => isAnyType y u
  | .vredmin _ _ _ y u => isAnyType y u
  | .vargmax _ _ _ y u => isAnyType y u
  | .vscan _ _ _ y => y != 7
  | .vperm _ _ _ _ y => y != 7
  | .vslide _ _ _ _ y => y != 7
  | .vtopk d _ _ _ y u => isAnyType y u && d.toNat % 2 == 0
  | .vbcast _ _ _ y => y != 7
  | .vmvx _ _ _ y => y != 7
  | .vins _ _ _ y => y != 7
  | .vmov _ _ _ y => y != 7
  | .vldg _ p _ _ y => isPair p && isIndexType y
  | .vsts _ p _ _ y => isPair p && isIndexType y
  | .mma _ _ => true
  | .mmv _ _ => true
  | .mldb _ _ => true
  | .mldbS v _ => isBoundReg v
  | .mst _ _ => true
  | .mrd _ _ _ => true
  | .mzero _ => true
  | .mring _ _ _ => true
  | .mvgo _ _ => true
  | .mvred _ _ => true
  | .mvst _ _ => true
  | .mvkill _ => true
  | .sbind d _ _ => isBoundReg d
  | .cbind d _ _ => isBoundReg d
  | .sunbind d => isBoundReg d
  | .cret d => isBoundReg d
  | .ceos d => isBoundReg d
  | .cwait _ _ _ => true
  | .cadd _ _ => true
  | .cset _ _ => true
  | .crd _ _ => true
  | .mw _ _ => true
  | .send _ _ _ => true
  | .sendw _ _ _ => true
  | .exit _ _ => true
  | .bind _ s t => isPair s && isPair t
  | .unbind _ _ => true
  | .yield => true
  | .mbopen _ _ => true
  | .mbpub _ _ _ => true
  | .mbld _ _ _ => true
  | .mbsnap _ _ _ => true
  | .mbver _ _ => true
  | .tnow d => isPair d
  | .tuntil _ s _ => isPair s
  | .swget _ s _ => isPair s
  | .swadv _ s _ => isPair s
  | .gust _ _ => true
  | .gustrel _ => true
  | .gustq _ _ => true
  | .qpost _ => true
  | .qclaim _ _ => true
  | .hacc _ _ => true
  | .lpin _ s => isPair s
  | .lunpin _ s => isPair s
  | .lfill _ s _ => isPair s
  | .ldrop _ s _ => isPair s
  | .lprobe _ s => isPair s
  | .glaunch _ s => isPair s
  | .gabort _ _ _ => true
  | .ecall => true
  | .ebreak => true
  | .eret => true
  | .halt => true
  | .tinv s _ => isPair s
  | .csrr _ c => isCsr c
  | .csrw _ c => isCsr c
  | .csrs _ c => isCsr c
  | .csrc _ c => isCsr c
  | .ewr s _ => isPair s
  | .erd d _ => isPair d
  | .safe _ _ => true
  | .pfxExt p => p.toNat < 0x10000
  | .pfxOpt p => isOptPayload p
  | .illegalEncoding _ => true
  | .messageArrival _ => true
  | .inboxPortAccept core => isCore core
  | .messageDispatch core => isCore core
  | .creditReturn _ => true
  | .successorSend core => isCore core
  | .unboundHoldExpiry core => isCore core
  | .gangRequestAccept => true
  | .placementPass => true
  | .gangMemberStart core slot => decide (core < 256) && decide (slot < 4)
  | .triggerNotice _ => true
  | .l1ResizeComplete core => decide (core < 256)
  | .pageWalkComplete core slot => isCore core && decide (slot < 4)
  | .translationReplay t => t.exists
  | .translationAbort t => t.exists
  | .storeBufferPerform core slot => isCore core && decide (slot < 4)
  | .hostMemoryAccess _ => true
  | .matrixCommandComplete core => isTile core
  | .latchFillComplete core buf => isTile core && decide (buf < 2)
  | .handoffClaim core => isTile core
  | .handoffComplete core => isTile core
  | .moverElement core chan => isCore core && decide (chan < 4)
  | .channelBeatArrival _ => true
  | .channelCreditReturn _ => true
  | .remoteCaddArrival _ => true
  | .squallScan => true
  | .tickDelivery e => decide (e < 64)
  | .tickStart core slot => isReflex core && decide (slot < 4)
  | .budgetExpiry core slot => isReflex core && decide (slot < 4)
  | .budgetKill core slot => isReflex core && decide (slot < 4)
  | .mbsnapCopyComplete _ => true
  | .gustCodeStart core => decide (core < 256)
  | .gustHoldExpiry p => decide (p < 16)
  | .gustRelocation core => decide (core < 256)
  | .heartbeatSend => true
  | .heartbeatReceive => true
  | .heartbeatWindowExpiry => true
  | .fatalErrorMessage => true
  | .hsctlTake => true
  | .mirrorPublishReceive p => decide (p.slot < 4096)
  | .keepRegionMirrorReceive k => decide (k.tile < 32)
  | .timeSourceCorrection _ => true
  | .streamRecordArrival mac _ => decide (mac < 2)
  | .ingestRecordCommit stream => decide (stream < 128)
  | .decodeTick stream => decide (stream < 128)
  | .decodeTickLate stream => decide (stream < 128)
  | .tuntilTimerExpiry core _ => isCore core
  | .egressLaunch q => decide (q < 16)
  | .serviceStepScheduler _ => true
  | .stepBoundary => true
  | .samplingQueuePost _ => true
  | .lineMissEvent e => decide (e.slice < 64) && decide (e.way < 16)
  | .lineFillEvent e => decide (e.slice < 64) && decide (e.way < 16)
  | .lineEvictionEvent e => decide (e.slice < 64) && decide (e.way < 16)
  | .agentBudgetExpiry core slot => isAgent core && decide (slot < 4)
  | .loaderStart slice => decide (slice < 64)
  | .loaderDescriptorComplete slice => decide (slice < 64)
  | .fgetParkRetry core slot => isCore core && decide (slot < 4)
  | .futureWake core slot => isCore core && decide (slot < 4)
  | .queuePacketStart core slot => isFrontEnd core && decide (slot < 4)
  | .doorbellWrite q _ => decide (q < 1024)
  | .reconcilePass => true
  | .serviceInstallContext _ => true
  | .serviceShootdown _ => true
  | .shootdownComplete => true
  | .serviceCreateQueue _ => true
  | .serviceDestroyQueue _ => true
  | .queueDestroyComplete q => decide (q < 1024)
  | .serviceLoadCodeObject _ _ => true
  | .serviceMigratePage _ => true
  | .serviceSetFrameOwner _ => true
  | .serviceUnknown _ => true
  | .thermalControlTick _ _ => true
  | .partitionEntryWrite n _ => decide (n < 16)
  | .partitionHalt n => decide (n < 16)
  | .partitionResume n => decide (n < 16)
  | .partitionSave n => decide (n < 16)
  | .partitionRestore n => decide (n < 16)
  | .partitionSpill n => decide (n < 16)
  | .partitionFill n => decide (n < 16)
  | .partitionCommandComplete n => decide (n < 16)
  | .correctableError u _ => u.exists
  | .uncorrectableError u _ => u.exists
  | .fatalError u _ => u.exists
  | .errqWrite _ => true
  | .msixWindowExpiry vec => decide (vec < 32)
  | .dbgHaltreq core => isCore core
  | .dbgResume core => isCore core
  | .dbgStep core => isCore core
  | .dbgBksync core => isCore core
  | .bksyncComplete core => isCore core
  | .dbgdatAccess core _ => isCore core
  | .logDwellExpiry core slot => isCore core && decide (slot < 4)
  | .logctlWrite core _ => isCore core
  | .pmselWrite core _ => isCore core
  | .tickEntryWrite e _ => decide (e < 64)
  | .mailboxSlotWrite n _ => decide (n < 4096)
  | .gustPoolWrite _ => true
  | .gustProfileWrite p _ => decide (p < 16)
  | .tmctlWrite _ => true
  | .timedStreamWrite stream _ => decide (stream < 128)
  | .treeTemplateWrite j _ => decide (j < 16)
  | .eventTableRowWrite slice r _ => decide (slice < 64) && decide (r < 16)
  | .sqcfgWrite _ => true
  | .shedctlWrite _ => true
  | .feataccWrite _ => true
  | .perstRelease => true
  | .bootGo => true
  | .bootVerifyComplete _ => true
  | .attestRequest => true
  | .attestComplete => true
  | .registerWrite _ size _ => decide (size ≤ 4096)
  | .requestResponse core slot => isCore core && decide (slot < 4)
  | .wrsTimeout core slot => isCore core && decide (slot < 4)
  | .barrierArrival _ => true
  | .perstAssert => true
  | .sourceLockLoss => true

end Sys2Proof
end

