-- ==== Sys2Proof/Machine/Regs.lean ====
section
/-! DEFINITION. The named operations over cores, registers and storage: core and slot accessors, the register files
with their hard-wired registers (R58), the location space, and reads and writes of bytes. -/

namespace Sys2Proof.Machine

/-- The core types (R8, R10). -/
inductive CoreType where
  | reasoning | reflex | agent | frontEnd
  deriving DecidableEq, Repr

/-- The type of a core, by the model's numbering: reasoning 0 to 255, reflex 256 to 287, agents 288 to 351, front end
352 and above. -/
def coreType (c : Nat) : CoreType :=
  if c < 256 then .reasoning else if c < 288 then .reflex else if c < 352 then .agent else .frontEnd

/-- The number a core has among its type: tile id, slice number or front-end core (R10). -/
def unitIndex (c : Nat) : Nat :=
  if c < 256 then c else if c < 288 then c - 256 else if c < 352 then c - 288 else c - 352

/-- A core after reset: `spsize` resets to 16 KiB on reasoning tiles and 4 KiB on reflex tiles (R63); on the other cores,
which have no spill ring, the model gives it 0 (DESIGN CHOICE, log entry 63). -/
def coreReset (c : Nat) : Core :=
  match coreType c with
  | .reasoning => { spsize := 0x4000 }
  | .reflex => { spsize := 0x1000 }
  | _ => {}

/-- A core of the device. -/
def State.core (s : State) (c : Nat) : Core := FMap.get s.cores c (coreReset c)

/-- Replace a core. -/
def State.setCore (s : State) (c : Nat) (k : Core) : State := { s with cores := FMap.put s.cores c k }

/-- Change a core. -/
def State.modCore (s : State) (c : Nat) (f : Core → Core) : State := s.setCore c (f (s.core c))

/-- A thread slot of a core. -/
def Core.thread (k : Core) (n : Nat) : Thread := FMap.get k.cx.threads n {}

/-- Replace a thread slot of a core. -/
def Core.setThread (k : Core) (n : Nat) (t : Thread) : Core :=
  { k with cx := { k.cx with threads := FMap.put k.cx.threads n t } }

/-- A thread slot of the device. -/
def State.thread (s : State) (c n : Nat) : Thread := (s.core c).thread n

/-- Replace a thread slot of the device. -/
def State.setThread (s : State) (c n : Nat) (t : Thread) : State := s.setCore c ((s.core c).setThread n t)

/-- Change a thread slot of the device. -/
def State.modThread (s : State) (c n : Nat) (f : Thread → Thread) : State := s.setThread c n (f (s.thread c n))

/-- The thread whose turn it is. -/
def State.th (s : State) : Thread := s.thread s.cur s.slot

/-- Replace the thread whose turn it is. -/
def State.setTh (s : State) (t : Thread) : State := s.setThread s.cur s.slot t

/-- Change the thread whose turn it is. -/
def State.modTh (s : State) (f : Thread → Thread) : State := s.setTh (f s.th)

/-- Change the CSRs of the thread whose turn it is. -/
def State.modCsr (s : State) (f : Csrs → Csrs) : State := s.modTh fun t => { t with csr := f t.csr }

/-- The key of a slot in the device's tables. -/
def slotKey (c n : Nat) : Nat := 4 * c + n

/-! Registers of a slot. -/

/-- Read an x register; x0 reads zero (R58). -/
def Thread.getX (t : Thread) (r : Nat) : Word := if r = 0 then 0 else FMap.get t.bank.x r 0

/-- Write an x register; a write to x0 is discarded (R58). -/
def Thread.setX (t : Thread) (r : Nat) (v : Word) : Thread :=
  if r = 0 then t else { t with bank := { t.bank with x := FMap.put t.bank.x r v } }

/-- Read a pair: the low word in the even register (R1, R58). -/
def Thread.getP (t : Thread) (p : Nat) : Dword := t.getX (2 * p + 1) ++ t.getX (2 * p)

/-- Write a pair (R1, R58). -/
def Thread.setP (t : Thread) (p : Nat) (v : Dword) : Thread :=
  (t.setX (2 * p) (v.extractLsb' 0 32)).setX (2 * p + 1) (v.extractLsb' 32 32)

/-- Read a v register, bound or not (R58). -/
def Thread.getV (t : Thread) (r : Nat) : Vec := FMap.get t.bank.v r 0

/-- Write a v register (R58). -/
def Thread.setV (t : Thread) (r : Nat) (v : Vec) : Thread :=
  { t with bank := { t.bank with v := FMap.put t.bank.v r v } }

/-- Read a k register; k0 reads all ones (R58). -/
def Thread.getK (t : Thread) (r : Nat) : Word := if r = 0 then BitVec.allOnes 32 else FMap.get t.bank.k r 0

/-- Write a k register; a write to k0 is discarded (R58). -/
def Thread.setK (t : Thread) (r : Nat) (v : Word) : Thread :=
  if r = 0 then t else { t with bank := { t.bank with k := FMap.put t.bank.k r v } }

/-- Read an m register (R58). -/
def Thread.getM (t : Thread) (r : Nat) : Word := FMap.get t.bank.m r 0

/-- Write an m register (R431). -/
def Thread.setM (t : Thread) (r : Nat) (v : Word) : Thread :=
  { t with bank := { t.bank with m := FMap.put t.bank.m r v } }

/-- Read an engine register of the slot (R156, R177). -/
def Thread.getE (t : Thread) (r : Nat) : Dword := FMap.get t.bank.e r 0

/-- Write an engine register of the slot (R156, R177). -/
def Thread.setE (t : Thread) (r : Nat) (v : Dword) : Thread :=
  { t with bank := { t.bank with e := FMap.put t.bank.e r v } }

/-- Set the program counter. -/
def Thread.setPc (t : Thread) (v : Dword) : Thread := { t with bank := { t.bank with pc := v } }

/-- The x register a field names, of the thread whose turn it is. -/
def State.x (s : State) (r : Reg) : Word := s.th.getX r.toNat

/-- Write the x register a field names. -/
def State.setX (s : State) (r : Reg) (v : Word) : State := s.modTh (·.setX r.toNat v)

/-- The pair a field names. -/
def State.p (s : State) (r : Reg) : Dword := s.th.getP r.toNat

/-- Write the pair a field names. -/
def State.setP (s : State) (r : Reg) (v : Dword) : State := s.modTh (·.setP r.toNat v)

/-- The k register a field names. -/
def State.k (s : State) (r : BitVec 3) : Word := s.th.getK r.toNat

/-- Write the k register a field names. -/
def State.setK (s : State) (r : BitVec 3) (v : Word) : State := s.modTh (·.setK r.toNat v)

/-- The program counter of the thread whose turn it is. -/
def State.pc (s : State) : Dword := s.th.bank.pc

/-- The thread runs in supervisor mode (R64). -/
def State.sup (s : State) : Bool := s.th.csr.mode

/-! Bits of words held as numbers. -/

/-- The `n` bits of `v` from bit `lo` upward. -/
def bits (v lo n : Nat) : Nat := v / 2 ^ lo % 2 ^ n

/-- Bit `i` of `v`. -/
def bit (v i : Nat) : Bool := bits v i 1 == 1

/-- Replace the `n` bits of `v` from bit `lo` upward. -/
def setBits (v lo n f : Nat) : Nat := v - bits v lo n * 2 ^ lo + f % 2 ^ n * 2 ^ lo

/-- A number as a signed value of `n` bits. -/
def signed (v n : Nat) : Int := if v % 2 ^ n < 2 ^ (n - 1) then ((v % 2 ^ n : Nat) : Int) else ((v % 2 ^ n : Nat) : Int) - 2 ^ n

/-- An integer modulo 2^n. -/
def wrapTo (v : Int) (n : Nat) : Nat := (v % (2 ^ n : Int)).toNat

/-- The number held little-endian by bytes (R1). -/
def leNat : List Byte → Nat
  | [] => 0
  | b :: r => b.toNat + 256 * leNat r

/-- The `n` little-endian bytes of a number (R1). -/
def leBytes : Nat → Nat → List Byte
  | 0, _ => []
  | n + 1, v => BitVec.ofNat 8 v :: leBytes n (v / 256)

/-! The location space: one number for every byte of storage of the device and beyond its ports. -/

/-- The channel of a backed physical address (R97). -/
def dramChannel (pa : Nat) : Nat :=
  if bits pa 37 3 = 1 then bits pa 33 4
  else bits pa 12 4 ^^^ bits pa 16 4 ^^^ bits pa 20 4 ^^^ bits pa 24 4 ^^^ bits pa 28 4 ^^^ bits pa 32 4

/-- The channel-local address of a backed physical address (R97). -/
def dramCla (pa : Nat) : Nat :=
  if bits pa 37 3 = 1 then bits pa 0 33 else bits pa 16 21 * 2 ^ 12 + bits pa 0 12

/-- The location of a backed physical address: both views of R97 reach the same 128 GiB. -/
def dramLoc (pa : Nat) : Nat := dramChannel pa * 2 ^ 33 + dramCla pa

/-- A physical address that names memory (R514). -/
def isBacked (pa : Nat) : Bool := decide (bits pa 40 24 = 0) && decide (bits pa 37 3 ≤ 1)

/-- The die-cache slice at which a backed line is homed (R98). -/
def homeSlice (pa : Nat) : Nat := 4 * dramChannel pa + (bits (dramCla pa) 8 2 ^^^ bits (dramCla pa) 16 2)

/-- Host memory beyond port A, by bus address. -/
def hostLoc (a : Nat) : Nat := 2 ^ 65 + a

/-- Peer memory beyond port B, by bus address. -/
def peerLoc (a : Nat) : Nat := 2 ^ 66 + a

/-- A core's own SRAM (R84, R88, R79). -/
def sramLoc (c off : Nat) : Nat := 2 ^ 62 + c * 2 ^ 24 + off

/-- The mailbox SRAM (R202). -/
def mbLoc (off : Nat) : Nat := 2 ^ 63 + off

/-- The size of the poison granule at a location (R312). -/
def granuleSize (loc : Nat) : Nat := if loc < 2 ^ 37 then 32 else 8

/-- The byte at a location; storage that nothing has written reads zero (log entry 4). -/
def memByte (m : List Host.Cell) (a : Nat) : Byte := FMap.get m a 0

/-- Write the byte at a location, in canonical form. -/
def memSet (m : List Host.Cell) (a : Nat) (b : Byte) : List Host.Cell := FMap.set m a b 0

/-- The form memory keeps: locations strictly rising and no byte listed that equals what an unlisted location reads. -/
abbrev Memory.wf (m : List Host.Cell) : Prop := FMap.canon m 0 = true

/-- Read `n` bytes from a location upward. -/
def memRead (m : List Host.Cell) (a : Nat) : Nat → List Byte
  | 0 => []
  | n + 1 => memByte m a :: memRead m (a + 1) n

/-- Write bytes from a location upward. -/
def memWrite (m : List Host.Cell) (a : Nat) : List Byte → List Host.Cell
  | [] => m
  | b :: r => memWrite (memSet m a b) (a + 1) r

/-- Write the listed cells in order. -/
def memCells (m : List Host.Cell) : List (Nat × Byte) → List Host.Cell
  | [] => m
  | c :: r => memCells (memSet m c.1 c.2) r

/-- The bytes of storage at a location. -/
def State.read (s : State) (a n : Nat) : List Byte := memRead s.mem a n

/-- The number of `n` bytes of storage at a location. -/
def State.readNat (s : State) (a n : Nat) : Nat := leNat (s.read a n)

/-- The bytes from `a` to `a + n - 1` touch the granule of a reservation; a port reservation is not seen (R129). -/
def Reservation.hit (r : Reservation) (lo hi : Nat) : Bool :=
  r.path != 0x08 && r.path != 0x09 &&
    (let g := if r.path == 0x00 then 128 else 32
     decide (r.granule * g < hi) && decide (lo < (r.granule + 1) * g))

/-- The granule of a reservation on a location (R129). -/
def resvGranule (path loc width : Nat) : Nat :=
  if path = 0x00 then loc / 128 else if path = 0x08 ∨ path = 0x09 then loc / width else loc / 32

/-- Every reservation whose granule a write of the bytes `lo` to `hi - 1` touches is lost (R129). -/
def State.loseResvs (s : State) (lo hi : Nat) : State := { s with resvs := s.resvs.filter fun e => !e.2.hit lo hi }

/-- The reservation of one slot ends (R129). -/
def State.dropResv (s : State) (c n : Nat) : State := { s with resvs := FMap.del s.resvs (slotKey c n) }

/-- A write that covers a whole granule clears its poison; a partial one leaves it (R313). -/
def State.clearPoison (s : State) (lo hi : Nat) : State :=
  { s with poison := s.poison.filter fun g => !(decide (lo ≤ g) && decide (g + granuleSize g ≤ hi)) }

/-- Store bytes at a location under whatever poison it has, which stays; reservations on the granule are lost. -/
def State.storeUnder (s : State) (a : Nat) (bs : List Byte) : State :=
  ({ s with mem := memWrite s.mem a bs } : State).loseResvs a (a + bs.length)

/-- Store bytes at a location: poison wholly covered is cleared and reservations on the granule are lost. -/
def State.store (s : State) (a : Nat) (bs : List Byte) : State :=
  let s := { s with mem := memWrite s.mem a bs }
  (s.clearPoison a (a + bs.length)).loseResvs a (a + bs.length)

/-- Store a number of `n` bytes at a location. -/
def State.storeNat (s : State) (a n v : Nat) : State := s.store a (leBytes n v)

/-- Store scattered cells (a masked store): each byte counts on its own for reservations; a granule is cleared of
poison only when every byte of it is among the cells. -/
def State.storeCells (s : State) (cells : List (Nat × Byte)) : State :=
  let keys := cells.map (·.1)
  let s := { s with mem := memCells s.mem cells }
  let s := { s with
    poison := s.poison.filter fun g => !((List.range (granuleSize g)).all fun i => keys.contains (g + i)) }
  { s with resvs := s.resvs.filter fun e => !(keys.any fun a => e.2.hit a (a + 1)) }

/-- The oldest entry of a slot's store buffer leaves it and performs (R119). -/
def State.performStore (s : State) (c n : Nat) : State :=
  match (s.thread c n).sbuf with
  | [] => s
  | e :: rest => (s.modThread c n fun t => { t with sbuf := rest, seenBuf := t.seenBuf - 1 }).storeCells e

/-- Every buffered store of a slot performs, in order: what a release that performs at once asks for (log entry 9). -/
def State.drainStores (s : State) (c n : Nat) : State :=
  (s.thread c n).sbuf.foldl (fun s _ => s.performStore c n) s

/-- The stores of the thread whose turn it is perform. -/
def State.drain (s : State) : State := s.drainStores s.cur s.slot

/-- The first poisoned granule that the bytes `lo` to `hi - 1` touch (R313). -/
def State.poisoned (s : State) (lo hi : Nat) : Option Nat :=
  s.poison.find? fun g => decide (g < hi) && decide (lo < g + granuleSize g)

/-- Mark the granule of a location poisoned (R313). -/
def State.poisonAt (s : State) (a : Nat) : State :=
  let g := a / granuleSize a * granuleSize a
  if s.poison.contains g then s else { s with poison := g :: s.poison }

end Sys2Proof.Machine
end

