-- ==== Sys2Proof/Machine/Records.lean ====
section
/-! DEFINITION. Records the device writes beside the work of threads: error records and the error queue (R315 to R317),
MSI-X vectors (R335), performance counters (R330), the core log (R327 to R329), and adds to arrival counters (R132,
R182, R192). -/

namespace Sys2Proof.Machine

/-- Raise an MSI-X vector; within 10 µs of a raise the event is owed to the end of the window (R335). -/
def State.raiseMsi (s : State) (v : Nat) : State :=
  let k := s.link
  if s.clock.cc < FMap.get k.window v 0 then { s with link := { k with owed := FMap.set k.owed v 1 0 } }
  else { s with link := { k with
    raised := FMap.set k.raised v (FMap.get k.raised v 0 + 1) 0, window := FMap.set k.window v (s.clock.cc + 16000) 0 } }

/-- Write one error record, given as the number of its 64 bytes, to the error queue, or lose it (R317). -/
def State.putRecord (s : State) (r : Nat) : State :=
  let q := s.errq
  if q.en && decide ((q.widx - q.ridx).toNat < 2 ^ q.log2n.toNat) then
    let v := if q.ovf then r + 2 ^ 24 else r
    let a := q.base.toNat + 64 * (q.widx.toNat % 2 ^ q.log2n.toNat)
    let s := s.storeNat (if q.host then hostLoc a else dramLoc a) 64 v
    State.raiseMsi { s with errq := { q with widx := q.widx + 1, ovf := false } } 0
  else { s with errq := { q with lost := if q.lost = BitVec.allOnes 32 then q.lost else q.lost + 1, ovf := true } }

/-- A field of an error record: its first byte, its width in bytes and its value. -/
abbrev RecordField := Nat × Nat × Nat

/-- The number of a record made of its fields. -/
def recordNat : List RecordField → Nat
  | [] => 0
  | f :: r => f.2.2 % 2 ^ (8 * f.2.1) * 2 ^ (8 * f.1) + recordNat r

/-- The unit code of a core in an error record (R315). -/
def unitCode (c : Nat) : Nat :=
  match coreType c with
  | .reasoning => 0
  | .reflex => 1
  | .agent => 2
  | .frontEnd => 3

/-- Write a record with the common header of R315: kind, severity, address-space id, unit id, slot and unit code. -/
def State.record (s : State) (kind sev asid id slot unit : Nat) (fields : List RecordField) : State :=
  s.putRecord (recordNat ([(0, 2, kind), (2, 1, sev), (4, 2, asid), (6, 1, id), (7, 1, slot % 4 + unit * 4),
    (8, 8, s.clock.now)] ++ fields))

/-- Write a record that names a thread, with its activation serial at bytes 16 to 19 (R315). -/
def State.threadRecord (s : State) (c n kind sev : Nat) (fields : List RecordField) : State :=
  let t := s.thread c n
  let asid := match t.act with | some a => a.asid.toNat | none => 0
  s.record kind sev asid (unitIndex c) n (unitCode c) ((16, 4, t.csr.ser.toNat) :: fields)

/-- Write a record of the front end itself (R315). -/
def State.feRecord (s : State) (kind sev asid : Nat) (fields : List RecordField) : State :=
  s.record kind sev asid 0 0 3 fields

/-- Count an event of a performance code on every counter of a core that selects it (R330). -/
def Core.tally (k : Core) (code n : Nat) : Core :=
  if k.pmsel = 0 then k
  else
    { k with pmc := (List.range 8).foldl (fun m i =>
      if bits k.pmsel.toNat (8 * i) 8 = code then FMap.set m i (FMap.get m i 0 + BitVec.ofNat 64 n) 0 else m) k.pmc }

/-- Count an event at a core (R330). -/
def State.pm (s : State) (c code n : Nat) : State :=
  let k := s.core c
  if k.pmsel = 0 then s else s.setCore c (k.tally code n)

/-- The context of an address-space id, or of the reflex array. Before anything is installed, ASID 0, which is firmware's on slice
agents and front-end cores, and the reflex array as reset leaves it have a context of generation 0 that nothing destroys; another
id has none (R258, R260, R292; log entry 91). -/
def State.contextOf (s : State) (reflex : Bool) (asid : BitVec 16) : Context :=
  (FMap.find s.contexts (if reflex then 2 ^ 16 else asid.toNat)).getD { live := reflex || asid == 0 }

/-- The record of a unit's access to a physical address that names no memory (R316, R514). -/
def State.unbackedRecord (s : State) (asid id unit pa : Nat) : State :=
  s.record 0x01 2 asid id 0 unit [(24, 8, pa), (32, 1, 0x05)]

/-- The same of an access that a core makes for itself. -/
def State.coreUnbacked (s : State) (c pa : Nat) : State := s.unbackedRecord (s.core c).asid.toNat (unitIndex c) (unitCode c) pa

/-- First byte of the log ring: BASE, with the bits below the ring's size left out (log entry 71). -/
def CoreLog.start (l : CoreLog) : Nat := l.base.toNat / 2 ^ l.log2n.toNat * 2 ^ l.log2n.toNat

/-- Write one word of a core's log (R329, R514). -/
def State.logWord (s : State) (c a v : Nat) : State :=
  if coreType c = .reflex then s.storeNat (sramLoc c a) 4 v
  else if isBacked a then s.storeNat (dramLoc a) 4 v
  else s.coreUnbacked c a

/-- Append words to a core's log ring when they fit (R329). -/
def State.logWords (s : State) (c : Nat) (ws : List Nat) : Option State :=
  let l := (s.core c).log
  if (l.widx - l.ridx).toNat + 4 * ws.length ≤ 2 ^ l.log2n.toNat then
    let s := (List.range ws.length).foldl (fun s i =>
      s.logWord c (l.start + (l.widx.toNat + 4 * i) % 2 ^ l.log2n.toNat) (ws.getD i 0)) s
    some (s.modCore c fun k => { k with log := { k.log with widx := l.widx + BitVec.ofNat 32 (4 * ws.length) } })
  else none

/-- A time-sync entry (R328). -/
def timeSync (now : Nat) : List Nat := [2 * 2 ^ 30, now % 2 ^ 32, now / 2 ^ 32 % 2 ^ 32]

/-- Words that did not fit are lost (R329). -/
def CoreLog.lose (l : CoreLog) (n : Nat) : CoreLog :=
  { l with gap := l.gap + n, lost := BitVec.ofNat 32 (min (l.lost.toNat + n) (2 ^ 32 - 1)) }

/-- Once room has returned, a loss entry and a time sync are written (R329); their moment is that of the oldest entry still
to be written, if there is one. -/
def State.closeGap (s : State) (c : Nat) : State :=
  let l := (s.core c).log
  if !l.en || l.gap = 0 then s
  else
    let m := match l.queue with | e :: _ => (e.at_, e.ns) | [] => (s.clock.cc, s.clock.now)
    match s.logWords c ((3 * 2 ^ 30 + min l.gap (2 ^ 30 - 1)) :: timeSync m.2) with
    | some s => s.modCore c fun k => { k with log := { k.log with gap := 0, last := m.1 } }
    | none => s

/-- Write the words of an entry of a moment, or lose them when they do not fit, or when a loss entry is still to come (R329). -/
def State.logOrLose (s : State) (c moment : Nat) (words : List Nat) : State :=
  match (if (s.core c).log.gap = 0 then s.logWords c words else none) with
  | some s => s.modCore c fun k => { k with log := { k.log with last := moment } }
  | none => s.modCore c fun k => { k with log := k.log.lose words.length }

/-- Write a log entry whose first word lacks its DELTA, at a moment given in core cycles and device time: behind a time sync,
which is an entry of its own, when DELTA would not fit (R328, R329). -/
def State.logEntry (s : State) (c moment ns head : Nat) (rest : List Nat) : State :=
  let delta := moment - (s.core c).log.last
  if 2 ^ 26 ≤ delta then (s.logOrLose c moment (timeSync ns)).logOrLose c moment (head :: rest)
  else s.logOrLose c moment ((head + delta) :: rest)

/-- Put what may have to be logged into its place: by moment, then by slot (R327). -/
def insertChange (e : LogChange) : List LogChange → List LogChange
  | [] => [e]
  | f :: r => if e.at_ < f.at_ || (e.at_ == f.at_ && decide (e.slot < f.slot)) then e :: f :: r else f :: insertChange e r

/-- The mesh row and column of a core in an activation record (R14, R328). The spec gives a front-end core no mesh stop: the
model writes row 0 and its number as the column (DESIGN CHOICE, log entry 72). -/
def meshStop (c : Nat) : Nat × Nat :=
  let u := unitIndex c
  match coreType c with
  | .reasoning => (u / 16, u % 16)
  | .reflex => (u / 8, u % 8)
  | .agent => (4 * (u / 16) + u % 4, 4 * (u / 4 % 4) + u % 4)
  | .frontEnd => (0, u)

/-- The activation record due at the start and the end of an activation when ACT is set (R328). -/
def State.logActivation (s : State) (c n : Nat) (ended killed : Bool) : State :=
  let k := s.core c
  match (k.thread n).act with
  | none => s
  | some a =>
    if !k.log.en || !k.log.act then s
    else
      let m := meshStop c
      let e : LogChange :=
        { slot := n, st := 0, at_ := s.clock.cc, ns := s.clock.now
          words := some (2 ^ 30 + n * 2 ^ 28 + (if ended then 2 ^ 27 else 0) + (if killed then 2 ^ 26 else 0),
            [m.1 * 2 ^ 28 + m.2 * 2 ^ 24 + unitIndex c * 2 ^ 16 + a.tag.toNat,
             unitCode c * 2 ^ 29 + a.bind * 2 ^ 16 + a.asid.toNat, (k.thread n).csr.ser.toNat,
             a.entry.toNat % 2 ^ 32, a.entry.toNat / 2 ^ 32, s.clock.now % 2 ^ 32, s.clock.now / 2 ^ 32 % 2 ^ 32]) }
      s.modCore c fun k => { k with log := { k.log with queue := insertChange e k.log.queue } }

/-- The location of an offset of a tile's context area (R307). -/
def ctxLoc (c off : Nat) : Nat := sramLoc c ((if coreType c = .reflex then 0x2F0000 else 0x1F0000) + off)

/-- Add to a counter of a tile, or of its saved image while the tile is saved or seized (R132, R182). -/
def State.addTileCounter (s : State) (c n : Nat) (v : Word) : State :=
  match (s.core c).saved with
  | some i =>
    let w := FMap.get i.ctr n 0 + v
    let s := s.storeNat (ctxLoc c (0x4000 + 4 * n)) 4 w.toNat
    s.modCore c fun k => { k with saved := some { i with ctr := FMap.set i.ctr n w 0 } }
  | none => s.modCore c fun k => { k with cx := { k.cx with ctr := FMap.set k.cx.ctr n (FMap.get k.cx.ctr n 0 + v) 0 } }

/-- Add to the counter that work of a slot counts on: the slot's own on a slice agent (R261), the resident counters for
Gust code, else the tile's (R182). -/
def State.addOwnCounter (s : State) (c slot n : Nat) (gust : Bool) (v : Word) : State :=
  if coreType c = .agent then
    s.modThread c slot fun t => if t.act.isSome then { t with ctr := FMap.set t.ctr n (FMap.get t.ctr n 0 + v) 0 } else t
  else if gust then
    s.modCore c fun k => { k with cx := { k.cx with ctr := FMap.set k.cx.ctr n (FMap.get k.cx.ctr n 0 + v) 0 } }
  else s.addTileCounter c n v

/-- The front end's add to a counter of a physical reasoning tile (R114, R289, R305). -/
def State.addFrontEnd (s : State) (tile ctr : Nat) : State := s.addTileCounter tile ctr 1

end Sys2Proof.Machine
end

