-- ==== Sys2Proof/Machine/Activation.lean ====
section
/-! DEFINITION. Bindings, the start and the end of an activation (R32 to R42, R66, R68, R394), and the path of a message
from a tile's inbox port to a slot, the spill ring, the overflow queue or the unbound hold (R34, R50). -/

namespace Sys2Proof.Machine

/-! Binding entries (R32). -/

/-- Entry valid. -/
def bindValid (e : BitVec 128) : Bool := bit e.toNat 127
/-- At most one activation at a time. -/
def bindOne (e : BitVec 128) : Bool := bit e.toNat 126
/-- Slot class. -/
def bindClass (e : BitVec 128) : Nat := bits e.toNat 124 2
/-- Cycle budget in units of 16 cc. -/
def bindBudget (e : BitVec 128) : Nat := bits e.toNat 112 12
/-- Routing tag. -/
def bindTag (e : BitVec 128) : Nat := bits e.toNat 96 16
/-- Keep region size in 64 B units. -/
def bindKeepSize (e : BitVec 128) : Nat := bits e.toNat 80 16
/-- Keep region start in 64 B units. -/
def bindKeepOff (e : BitVec 128) : Nat := bits e.toNat 64 16
/-- Handler entry. -/
def bindEntry (e : BitVec 128) : Nat := bits e.toNat 0 64

/-- The valid entry of a tag, cleared or not (R33). -/
def TileCtx.findTag (x : TileCtx) (tag : Nat) : Option (Nat × BitVec 128) :=
  x.binds.find? fun e => bindValid e.2 && bindTag e.2 == tag

/-- The entry a message of a tag matches: a pending clear starts nothing new (R33, R464). -/
def TileCtx.bound (x : TileCtx) (tag : Nat) : Option (Nat × BitVec 128) :=
  match x.findTag tag with
  | some e => if (FMap.find x.clearing e.1).isSome then none else some e
  | none => none

/-- The keep address of a binding (R39): zero when it has no keep region. -/
def keepAddr (e : BitVec 128) : Dword :=
  if bindKeepSize e = 0 then 0 else BitVec.ofNat 64 (0x10 * 2 ^ 56 + 64 * bindKeepOff e)

/-- The routing tag of a message (R26). -/
def Message.tag (m : Message) : Nat := bits m.ctl.toNat 0 16

/-- The 40 bytes of a message (R25), as a number. -/
def Message.nat (m : Message) : Nat :=
  m.dest.toNat + m.ctl.toNat * 2 ^ 32 +
    (List.range 8).foldl (fun a i => a + (m.payload.getD i 0).toNat * 2 ^ (64 + 32 * i)) 0

/-- The activation info word (R35). -/
def infoWord (gang held spilled : Bool) (unit slot bind : Nat) : Word :=
  BitVec.ofNat 32 ((if gang then 2 ^ 18 else 0) + (if held then 2 ^ 17 else 0) + (if spilled then 2 ^ 16 else 0)
    + unit * 2 ^ 8 + slot * 2 ^ 6 + bind)

/-- The header word (R35). -/
def headerWord (m : Message) : Word :=
  BitVec.ofNat 32 (m.srcIdx.toNat * 2 ^ 24 + m.srcKind.toNat * 2 ^ 21 + (if m.succ then 2 ^ 20 else 0)
    + bits m.ctl.toNat 16 4 * 2 ^ 16 + m.tag)

/-- The registers an activation starts with (R35): x8, x9, x10 to x17, p1 and pc; every other register reads zero. -/
def startBank (x8 x9 : Word) (payload : List Word) (keep entry : Dword) : Bank :=
  let x := (List.range 8).foldl (fun x i => FMap.set x (10 + i) (payload.getD i 0) 0) []
  let x := FMap.set (FMap.set x 8 x8 0) 9 x9 0
  let x := FMap.set (FMap.set x 2 (keep.extractLsb' 0 32) 0) 3 (keep.extractLsb' 32 32) 0
  { x := x, pc := entry }

/-- The context id of an address-space id: of the reflex array's context, or of the installed context (R292). -/
def State.contextId (s : State) (reflex : Bool) (asid : BitVec 16) : Word :=
  let c := s.contextOf reflex asid
  BitVec.ofNat 32 (c.gen * 2 ^ 16 + asid.toNat)

/-- A gang by its number. -/
def State.gang (s : State) (no : Nat) : Option Gang := s.gangs.find? (·.no == no)

/-- Change a gang. -/
def State.modGang (s : State) (no : Nat) (f : Gang → Gang) : State :=
  { s with gangs := s.gangs.map fun g => if g.no = no then f g else g }

/-- Start code on a slot: its registers are those given, its CSRs are loaded as R62 lays down (`lmbase`, `lmbaseh` and
`lmcnt` only once the entry header is read, R68), its issue state starts afresh (R441), its private barriers and a slice
agent's counters read zero (R261, R377), and a reflex slot changes bank (R66). The activation's serial is the one its
message took, else the next (R326). PMODE starts as user mode (DESIGN CHOICE, log entry 63). -/
def State.begin (s : State) (c n : Nat) (b : Bank) (a : Activation) (ltile gsize gname : Word) (depst : BitVec 4)
    (gelig gustc sup : Bool) (ser : Option Word := none) : State :=
  let k := s.core c
  let t := k.thread n
  let reflex := coreType c = .reflex
  let csr := { t.csr with
    ltile := ltile, gsize := gsize, gname := gname, depst := depst, ser := ser.getD k.serial, chst := 0,
    frm := 0, mode := sup, pmode := false, gelig := gelig, gustc := gustc, ctxid := a.ctx,
    bank := if reflex then !t.csr.bank else t.csr.bank }
  let t := { t with
    bank := b, other := if reflex then t.bank else t.other, csr := csr, run := .ready,
    act := some { a with start := s.clock.now }, shadow := none, pfx := none, sp := true, ic := 0, lc := 0, safePt := none,
    privBar := [], ctr := [], staged := [], abort := false, walk := none, fault := none, timer := none,
    wake := none, parked := false, saveKind := 0, ebkStop := false, stopDue := false, vectorDue := false, locked := false,
    fetched := [], takenAt := if t.shadow.isSome then t.takenAt else s.clock.now }
  let s := s.setCore c { k.setThread n t with serial := if ser.isSome then k.serial else k.serial + 1 }
  (s.pm c 0x0C 1).logActivation c n false false

/-- The registers that a message starts its binding's activation with (R35). -/
def messageBank (c n idx : Nat) (e : BitVec 128) (m : Message) : Bank :=
  startBank (infoWord m.gang.isSome m.held m.spilled (unitIndex c) n idx) (headerWord m) m.payload (keepAddr e)
    (BitVec.ofNat 64 (bindEntry e))

/-- Start the activation of a binding with a message on a slot of a tile (R35, R45): with the registers that were written
to the shadow bank for that binding, else with fresh ones (R51, R66). -/
def State.startMessage (s : State) (c n idx : Nat) (e : BitVec 128) (m : Message) : State :=
  let k := s.core c
  let g := m.gang.bind fun p => (s.gang p.1).map fun g => (p, g)
  let b := if m.loaded = some (idx, e) then (k.thread n).other else messageBank c n idx e m
  let a : Activation := {
    kind := .task, bind := idx, tag := BitVec.ofNat 16 (bindTag e), budget := bindBudget e,
    entry := BitVec.ofNat 64 (bindEntry e), asid := k.asid, ctx := s.contextId (coreType c = .reflex) k.asid,
    gang := m.gang, headerDone := false, tick := m.tick }
  let s := match g with
    | some (p, g) =>
      (s.begin c n b a (BitVec.ofNat 32 p.2) (BitVec.ofNat 32 g.n) g.name g.depst g.gust false false m.ser).modGang p.1 fun g =>
        { g with members := g.members.map fun (e : Nat × Member) => if e.1 = p.2 then (e.1, { e.2 with slot := n }) else e }
    | none => s.begin c n b a 0 0 0 0 false false false m.ser
  { s with resvs := FMap.del s.resvs (slotKey c n) }

/-- A firing that reaches a slot or a shadow bank is dispatched: FIRED counts it once and the count of replaced firings
starts again (R66, R199, R200); for a decode tick the stream's last tick is no longer undispatched (R229). -/
def State.firingDispatched (s : State) (m : Message) : State :=
  match m.tick with
  | none => s
  | some e =>
    if e < 128 then
      let k := FMap.get s.ticks e {}
      let fired := bits (bits k.reg.toNat 32 32 + if m.counted then 0 else 1) 0 32
      { s with ticks := FMap.put s.ticks e { k with
          reg := BitVec.ofNat 256 (setBits k.reg.toNat 32 32 fired), undispatched := false, replaced := 0 } }
    else
      let k := FMap.get s.streams (e - 128) {}
      { s with streams := FMap.put s.streams (e - 128) { k with undispatched := false } }

/-- A firing that was loaded waits for its dispatch once more (R66, R200). -/
def State.firingReturns (s : State) (m : Message) : State :=
  match m.tick with
  | none => s
  | some e =>
    if e < 128 then { s with ticks := FMap.put s.ticks e { FMap.get s.ticks e ({} : Tick) with undispatched := true } }
    else { s with streams := FMap.put s.streams (e - 128) { FMap.get s.streams (e - 128) ({} : Stream) with undispatched := true } }

/-- A loaded message as it goes back to a queue: what the load gave it is taken again. -/
def Message.unloaded (m : Message) : Message :=
  { m with ser := none, loaded := none, ctl := if m.tick.isSome then m.ctl &&& ~~~0x40000 else m.ctl }

/-- A slot of a class that held no message was idle at a time (R200). -/
def Core.freeAt (k : Core) (cls t : Nat) : Bool :=
  (List.range 4).any fun n =>
    let h := k.thread n
    h.effCls == cls && decide (h.freeSince ≤ t) && ((h.run == .idle && h.shadow.isNone) || decide (t < h.takenAt))

/-- A firing as a slot or a shadow bank takes it: LATE is set when its time is over and no slot of its class was idle then
(R200). -/
def State.timedFiring (s : State) (c cls : Nat) (m : Message) : Message :=
  match m.tick with
  | none => m
  | some e =>
    let late := decide (e < 128) && decide (m.notBefore < s.clock.now) && !(s.core c).freeAt cls m.notBefore
    { m with counted := true, ctl := if late then m.ctl ||| 0x40000 else m.ctl }

/-- A slot holds a message ahead of its start; on a reflex tile its serial is taken and its starting state is written to the
bank that is not in use (R66, R326). -/
def State.loadMessage (s : State) (c n idx : Nat) (e : BitVec 128) (m : Message) : State :=
  let k := s.core c
  let t := k.thread n
  let taken := if t.run = .idle then s.clock.now else t.takenAt
  if coreType c = .reflex then
    let m := { m with ser := some k.serial, loaded := some (idx, e) }
    s.setCore c { k.setThread n { t with shadow := some m, other := messageBank c n idx e m, takenAt := taken } with
      serial := k.serial + 1 }
  else s.setThread c n { t with shadow := some m, takenAt := taken }

/-- A slot takes a message that is dispatched to it: an idle slot starts it, or, when its time has not come, holds it as
loaded, and a busy reflex slot takes it into its shadow bank (R66, R200, R288). -/
def State.place (s : State) (c n idx : Nat) (e : BitVec 128) (m : Message) : State :=
  let s := s.firingDispatched m
  let m := s.timedFiring c (bindClass e) m
  if (s.thread c n).run ≠ .idle ∨ s.clock.now < m.notBefore then s.loadMessage c n idx e m
  else s.startMessage c n idx e m

/-- A free slot: IDLE, holding no message, and not reserved by the placement unit (R34, R288). -/
def Core.slotFree (k : Core) (n : Nat) : Bool :=
  (k.thread n).run == .idle && (k.thread n).shadow.isNone && (FMap.find k.reserved n).isNone

/-- A core on which nothing may start now: halted, seized, stopped by the debugger, or under a fatal error
(R215, R306, R314, R321). -/
def State.dispatchBarred (s : State) (c : Nat) : Bool :=
  let k := s.core c
  k.halting || k.gust.isSome || k.dbg.haltreq || s.fatal && decide (c < 256)

/-- An activation of a binding runs, or is loaded, on a slot (R34). -/
def Thread.runsBinding (t : Thread) (idx tag : Nat) : Bool :=
  (match t.act with
    | some a => a.kind == .task && a.bind == idx
    | none => false) ||
  (match t.shadow with
    | some m => m.tag == tag
    | none => false)

/-- An activation of a binding runs, or is loaded, on the core (R34). -/
def Core.bindingRuns (k : Core) (idx tag : Nat) : Bool :=
  (List.range 4).any fun n => (k.thread n).runsBinding idx tag

/-- A loaded message does not fit its slot any more: its binding has another class, or is ONE while another slot runs it
(R24, R32, R51). -/
def Core.misfit (k : Core) (n idx : Nat) (e : BitVec 128) : Bool :=
  bindClass e != (k.thread n).effCls ||
    (bindOne e && (List.range 4).any fun i => i != n && (k.thread i).runsBinding idx (bindTag e))

/-- The entry that a message held by a slot starts: on a reasoning tile a clear that waits for the slot's boundary does not
hide it (R52, R66). -/
def TileCtx.loadedEntry (x : TileCtx) (c tag : Nat) : Option (Nat × BitVec 128) :=
  if coreType c = .reflex then x.bound tag else x.findTag tag

/-- The lowest free slot that may start a binding's activation (R24, R34 step 2). -/
def State.startSlot (s : State) (c idx : Nat) (e : BitVec 128) : Option Nat :=
  let k := s.core c
  if s.dispatchBarred c || (bindOne e && k.bindingRuns idx (bindTag e)) then none
  else (List.range 4).find? fun n => k.slotFree n && (k.thread n).effCls == bindClass e

/-- A busy reflex slot whose shadow bank may take a binding's message (R66). -/
def State.shadowSlot (s : State) (c idx : Nat) (e : BitVec 128) : Option Nat :=
  let k := s.core c
  if coreType c ≠ .reflex || s.dispatchBarred c || (bindOne e && k.bindingRuns idx (bindTag e)) then none
  else (List.range 4).find? fun n =>
    (k.thread n).run != .idle && (k.thread n).shadow.isNone && (k.thread n).effCls == bindClass e

/-- The destination has accepted a message: its credit starts back to the sending core (R28, R29). -/
def State.returnCredit (s : State) (m : Message) : State :=
  match m.credit with
  | none => s
  | some (c, cls) =>
    let gust := decide (m.srcKind = 5)
    { s with flight := { s.flight with credits := s.flight.credits ++ [(c, cls, gust)] } }

/-- The spill ring's entries in messages (R34, R86). -/
def Core.ringRoom (k : Core) : Nat := k.spsize.toNat / 64

/-- The image of a spilled message (R34). -/
def spillImage (m : Message) : Nat := m.nat + m.arrived % 2 ^ 64 * 2 ^ 320

/-- Write the spill ring's messages to their entries in scratchpad (R34). The spec gives the ring no head pointer: the model
keeps the oldest message in entry 0 and writes the ring anew as it drains (DESIGN CHOICE, log entry 64). -/
def State.syncRing (s : State) (c : Nat) : State :=
  let k := s.core c
  (List.range (min k.pending.length k.ringRoom)).foldl (fun s i =>
    s.storeNat (sramLoc c (k.spbase.toNat + 64 * i)) 64 (spillImage (k.pending.getD i {}))) s

/-- Append a message to the pending queue: the spill ring, else the overflow queue of a reasoning tile; none when both
are full (R34 steps 3 and 4, R36). -/
def State.pend (s : State) (c : Nat) (m : Message) : Option State :=
  let k := s.core c
  let m := { m with spilled := true }
  if k.overflow.isEmpty && decide (k.pending.length < k.ringRoom) then
    some ((s.setCore c { k with pending := k.pending ++ [m] }).syncRing c |>.pm c 0x0B 1)
  else if coreType c = .reasoning && decide (k.overflow.length < k.overMax) then
    some ((s.setCore c { k with overflow := k.overflow ++ [m] }).pm c 0x0B 1)
  else none

/-- Move messages from the overflow queue into the spill ring as it frees (R34). -/
def State.refillRing (s : State) (c : Nat) : State :=
  let k := s.core c
  let room := k.ringRoom - k.pending.length
  if k.overflow.isEmpty || room = 0 then s
  else (s.setCore c { k with pending := k.pending ++ k.overflow.take room, overflow := k.overflow.drop room }).syncRing c

/-- A message goes back to the head of the pending queue (R66); on a reasoning tile the ring's last one then moves to the
overflow queue if the ring is full. A reflex tile has none: there the last one stays pending beyond the ring's entries (DESIGN
CHOICE: log entry 64). -/
def State.requeue (s : State) (c : Nat) (m : Message) : State :=
  (s.modCore c fun k =>
    let l := m :: k.pending
    if coreType c = .reasoning then { k with pending := l.take k.ringRoom, overflow := l.drop k.ringRoom ++ k.overflow }
    else { k with pending := l }).syncRing c

/-- Report a message discarded as unbound (R50, R316). -/
def State.unboundRecord (s : State) (c : Nat) (m : Message) : State :=
  s.record 0x03 2 m.asid.toNat (unitIndex c) 0 (unitCode c) [(24, 40, m.nat)]

/-- Put an unbound message into the hold, or report it when the hold is full (R50). -/
def State.holdMessage (s : State) (c : Nat) (m : Message) : State :=
  let k := s.core c
  if k.hold.length < 64 then s.setCore c { k with hold := k.hold ++ [{ m with heldAt := s.clock.now }] }
  else s.unboundRecord c m

/-- A tile takes a message from its inbox port (R34): none while it can accept nothing. With nothing pending, a busy reflex slot that
may run it takes it into its shadow bank at once, and it never passes through the spill ring: its SPILLED reads 0 (R66 speaks of the
next pending message only; DESIGN CHOICE, log entry 94). -/
def State.accept (s : State) (c : Nat) (m : Message) : Option State :=
  let k := s.core c
  let x := match k.saved with | some i => i | none => k.cx
  match x.bound m.tag with
  | none => some ((s.holdMessage c m).returnCredit m)
  | some (idx, e) =>
    match (if k.pending.isEmpty && k.overflow.isEmpty then s.startSlot c idx e else none) with
    | some n => some ((s.place c n idx e m).returnCredit m)
    | none =>
      match (if k.pending.isEmpty && k.overflow.isEmpty then s.shadowSlot c idx e else none) with
      | some n => some ((s.place c n idx e m).returnCredit m)
      | none => (s.pend c m).map (·.returnCredit m)

/-- A slot gives up the message it holds. -/
def Thread.unload (t : Thread) (now : Nat) : Thread :=
  { t with shadow := none, freeSince := if t.run = .idle then now else t.freeSince }

/-- A message held by a loaded slot or shadow bank whose class or binding has changed goes back to the head of the
pending queue (R66). -/
def State.unloadShadow (s : State) (c n : Nat) : State :=
  match (s.thread c n).shadow with
  | none => s
  | some m =>
    ((s.firingReturns m).modThread c n (·.unload s.clock.now)).requeue c m.unloaded

/-- A slot takes an effective class; an idle one is free for the new class from now on (R24). -/
def Thread.takeClass (t : Thread) (cls now : Nat) : Thread :=
  { t with effCls := cls, freeSince := if t.effCls ≠ cls ∧ t.run = .idle then now else t.freeSince }

/-- An activation boundary of a slot: it takes its class (R24) and passes the boundary of every pending clear (R52). -/
def State.boundary (s : State) (c n : Nat) : State :=
  s.modCore c fun k =>
    let t := k.thread n
    let k := k.setThread n (t.takeClass (bits k.slotcls.toNat (2 * n) 2) s.clock.now)
    let left := k.cx.clearing.map fun e => (e.1, e.2.filter (· != n))
    let done := (left.filter fun e => e.2.isEmpty).map (·.1)
    { k with cx := { k.cx with
        binds := k.cx.binds.filter fun e => !done.contains e.1
        clearing := left.filter fun e => !e.2.isEmpty } }

/-- The state of a gang once every member has ended (R46). -/
def Gang.settle (g : Gang) : Gang :=
  if g.st == .live && g.members.all (fun e => e.2.st != .running) then { g with st := .ended } else g

/-- A gang member ends: its end counts as a trigger and as an arrival in every later phase (R46, R47, R394). -/
def State.memberEnds (s : State) (p : Nat × Nat) (aborted : Bool) : State :=
  s.modGang p.1 fun g =>
    match FMap.find g.members p.2 with
    | none => g
    | some m =>
      if m.st != .running then g
      else Gang.settle { g with
        members := FMap.put g.members p.2 { m with st := if aborted then .aborted else .exited, trig := true }
        aborted := g.aborted || aborted }

/-- The staged bytes a slot claims at an egress queue are discarded at the end of its activation; a claim of the same slot
in another context stays (R235). -/
def State.dropClaim (s : State) (c n : Nat) (ctx : Word) : State :=
  { s with egress := s.egress.map fun e =>
      match e.2.claim with
      | some (cc, nn, x) =>
        if cc = c ∧ nn = n ∧ x = ctx then (e.1, { e.2 with claim := none, stage := [], dropped := e.2.dropped + 1 }) else e
      | none => e }

/-- The claims of the context that a slot has now. -/
def State.dropClaims (s : State) (c n : Nat) : State := s.dropClaim c n (s.thread c n).csr.ctxid

/-- The tenant's context of a core: its own, or the saved one. -/
def Core.ctx (k : Core) : TileCtx := match k.saved with | some i => i | none => k.cx

/-- Change the tenant's context of a core. -/
def Core.modCtx (k : Core) (f : TileCtx → TileCtx) : Core :=
  match k.saved with
  | some i => { k with saved := some (f i) }
  | none => { k with cx := f k.cx }

/-- A latch buffer. -/
def Matrix.buf (x : Matrix) (b : Nat) : LatchBuf := if b = 0 then x.buf0 else x.buf1

/-- Replace a latch buffer. -/
def Matrix.setBuf (x : Matrix) (b : Nat) (v : LatchBuf) : Matrix := if b = 0 then { x with buf0 := v } else { x with buf1 := v }

/-- Size of a latch buffer in bytes (R156). -/
def Matrix.bufSize (x : Matrix) : Nat := 4096 * bits x.lat.toNat 32 8

/-- Scratchpad offset of a latch buffer (R156). -/
def Matrix.bufBase (x : Matrix) (b : Nat) : Nat := bits x.lat.toNat 0 32 + b * x.bufSize

/-- A buffer becomes FULL, behind those that are FULL already (R159). -/
def Matrix.fillUp (x : Matrix) (b : Nat) : Matrix :=
  { x.setBuf b { x.buf b with st := .full, order := x.fullSeq } with fullSeq := x.fullSeq + 1 }

/-- A fill ends: its bytes not yet taken are zero and its buffer is FULL (R425). -/
def Matrix.endFill (x : Matrix) (f : Fill) : Matrix := { x.fillUp f.buf with fills := x.fills.filter (· != f) }

/-- The fills from bound registers of a slot. -/
def Matrix.slotFills (x : Matrix) (n : Nat) : List Fill :=
  x.fills.filter fun f => match f.src with | .bound sl _ => sl == n | .sram _ => false

/-- Zero the bytes of a fill that are not there yet, in a core's scratchpad. -/
def State.zeroFill (s : State) (c : Nat) (x : Matrix) (f : Fill) : State :=
  s.store (sramLoc c (x.bufBase f.buf + f.got)) (List.replicate (f.total - f.got) 0)

/-- A fill from a bound register ends when the binding does: the bytes not taken are zero and the buffer is FULL
(R425). `away` picks the tenant's context wherever it is, else the resident one. -/
def State.endFills (s : State) (c n : Nat) (away : Bool) : State :=
  let x := if away then (s.core c).ctx.mx else (s.core c).cx.mx
  let s := (x.slotFills n).foldl (fun s f => s.zeroFill c x f) s
  let done (y : TileCtx) : TileCtx := { y with mx := (y.mx.slotFills n).foldl Matrix.endFill y.mx }
  s.modCore c fun k => if away then k.modCtx done else { k with cx := done k.cx }

/-- Gust code (R215). -/
def CodeKind.isGust : CodeKind → Bool
  | .gust _ _ => true
  | _ => false

/-- What the end of an activation does to its tile's matrix engine: its ring ends and the banks it holds are no longer held
(R165, R394). -/
def Matrix.endSlot (x : Matrix) (n : Nat) : Matrix :=
  { x with
    held := x.held.filter fun e => e.2 != n
    ring := if x.ringSlot = some n then 0 else x.ring
    ringSlot := if x.ringSlot = some n then none else x.ringSlot }

/-- How an activation ends (R47, R301): by its own `exit`, or in another way. -/
inductive EndKind where
  | exit | killed
  deriving DecidableEq, Repr

/-- A write stream has nothing left to move: its entries are empty, or its channel has stopped (R448, R449). -/
def Bound.drained (b : Bound) (v : Mover) : Bool := v.st == .stopped || (b.fifo.isEmpty && b.part.isEmpty)

/-- Stop the channels a slot's streams hold: a read stream stops, a write stream takes no more (R185, R449). -/
def TileCtx.endStreams (x : TileCtx) (n : Nat) : TileCtx :=
  let mine := x.bounds.filter (·.slot == n)
  let movers := mine.foldl (fun m b =>
    match b.kind with
    | .readStream ch => FMap.put m ch { FMap.get m ch ({} : Mover) with st := .idle, run := none, err := 0, killed := false }
    | .writeStream ch =>
      let v := FMap.get m ch ({} : Mover)
      if b.drained v then FMap.put m ch { v with st := .idle, run := none, err := 0, killed := false, killing := false, walk := none }
      else FMap.put m ch { v with killing := true }
    | _ => m) x.movers
  { x with
    movers := movers
    bounds := (x.bounds.filter fun b => b.slot != n ||
      (match b.kind with | .writeStream ch => !b.drained (FMap.get x.movers ch {}) | _ => false)).map
        fun b => if b.slot = n then { b with slot := 4 + n } else b }

/-- Take waiters out of the wait tables: an entry of an overflow list is freed (R272). -/
def State.dropWaiters (s : State) (p : Waiter → Bool) : State :=
  let gone := s.slices.flatMap fun (e : Nat × Slice) => e.2.waiters.filter p
  let s := gone.foldl (fun s w => match w.image with | some a => s.storeNat a 16 0 | none => s) s
  { s with slices := s.slices.map fun (e : Nat × Slice) =>
      (e.1, { e.2 with waiters := e.2.waiters.filter fun w => !p w }) }

/-- The place of a slot in the wait table and among the claimers is given up: it starts afresh after the stop
(R251, R273). -/
def State.unpark (s : State) (c n : Nat) : State :=
  ({ s with claimers := s.claimers.filter fun k => !(k.core == c && k.slot == n) } : State).dropWaiters
    fun w => w.core == c && w.slot == n

/-- A member of a gang ends with its activation: its buffered stores perform first, since its end is a trigger (R47, R394). -/
def State.endMember (s : State) (c n : Nat) (a : Activation) (how : EndKind) : State :=
  match a.gang with
  | some p => (s.drainStores c n).memberEnds p (how != EndKind.exit)
  | none => s

/-- The end of an activation beside its slot (R394): its record, its reservation and claims, its gang's member
and, of Gust code, the holder's counter (R218). -/
def State.endShare (s : State) (c n : Nat) (a : Activation) (how : EndKind) : State :=
  let s := s.logActivation c n true (how != EndKind.exit)
  let s := s.dropResv c n
  let s := s.dropClaims c n
  let s := s.endMember c n a how
  match a.kind with
  | .gust p _ =>
    let r := (FMap.get s.gusts p {}).reg.toNat
    s.addTileCounter (256 + bits r 110 5) (bits r 104 6) 1
  | _ => s

/-- The end of an activation at its slot (R394): its bindings, its ring and its holds of banks end, and the slot is free, or stopped
where a halt is requested. -/
def Core.endSlot (k : Core) (c n : Nat) (a : Activation) (now : Nat) : Core :=
  let x := k.cx.endStreams n
  let x := { x with
    mx := x.mx.endSlot n
    timers := if coreType c = CoreType.agent then x.timers.filter (fun t => t.slot != n) else x.timers }
  let k := { k with cx := x }
  k.setThread n { k.thread n with
    run := if k.dbg.haltreq && !a.kind.isGust then .stopped else .idle
    act := none, pfx := none, walk := none, fault := none, timer := none, wake := none, parked := false,
    staged := [], abort := false, safePt := none, skipBreak := false, ebkStop := false, stopWhy := 0, stopDue := false, vectorDue := false,
    saveKind := 0, fetched := [], freeSince := now,
    takenAt := if (k.thread n).shadow.isSome then now else (k.thread n).takenAt }

/-- A slot that a requested halt keeps stopped names that as its reason (R321). -/
def State.noteHalt (s : State) (c n : Nat) : State :=
  if (s.thread c n).run = .stopped then s.modCore c fun k => { k with dbg := { k.dbg with reason := 1 } } else s

/-- An activation ends (R394): the slot's reservation, bindings, ring and holds end, a gang member counts as ended, Gust
code adds to its holder's counter (R218), and the slot is free. The next activation of the slot is not started here. -/
def State.endActivation (s : State) (c n : Nat) (how : EndKind) : State :=
  match (s.thread c n).act with
  | none => s
  | some a =>
    let s := (s.endShare c n a how).endFills c n false
    (((s.modCore c fun k => k.endSlot c n a s.clock.now).noteHalt c n).boundary c n).unpark c n

/-- A primary copies the keep region of a binding whose activation, started by a mirrored tick entry, exits (R223). -/
def State.mirrorKeep (s : State) (c n : Nat) : State :=
  let a := (s.thread c n).act.getD {}
  let tile := c - 256
  let mirrored (t : Nat) : Bool := s.spare.keep.any fun e =>
    let v := e.2.toNat
    bit v 127 && bits v 120 5 == tile && bits v 96 16 == a.tag.toNat && bits v 64 6 == t
  match a.tick with
  | some t =>
    if s.spare.role = 1 ∧ coreType c = .reflex ∧ a.kind = .task ∧ t < 64 ∧ mirrored t then
      match (s.core c).cx.findTag a.tag.toNat with
      | some (_, e) =>
        let k : KeepMirror :=
          { tile := tile, tag := a.tag, data := s.read (sramLoc c (64 * bindKeepOff e)) (64 * bindKeepSize e) }
        { s with spare := { s.spare with keepOut := s.spare.keepOut ++ [k] } }
      | none => s
    else s
  | none => s

end Sys2Proof.Machine
end

