-- ==== Sys2Proof/Machine/Cache.lean ====
section
/-! DEFINITION. The lines of the die-cache slices: where a line lies (R97, R98), how one is installed, dropped and let go
(R263, R265, R268). A store to a present line makes it dirty by changing its bytes (log entry 11). -/

namespace Sys2Proof.Machine

/-- A slice. -/
def State.sliceAt (s : State) (n : Nat) : Slice := FMap.get s.slices n {}

/-- Change a slice. -/
def State.modSlice (s : State) (n : Nat) (f : Slice → Slice) : State :=
  { s with slices := FMap.put s.slices n (f (s.sliceAt n)) }

/-- The number of the line of a backed physical address. -/
def lineKey (pa : Nat) : Nat := dramLoc pa / 128

/-- The set of a line (R98). -/
def lineSet (key : Nat) : Nat := bits (128 * key) 10 10 * 2 + bits (128 * key) 7 1

/-- The slice at which a line is homed (R98). -/
def lineHome (key : Nat) : Nat :=
  4 * (128 * key / 2 ^ 33) + (bits (128 * key) 8 2 ^^^ bits (128 * key) 16 2)

/-- The line lies in the window of a configured stream (R226). -/
def State.sinkLine (s : State) (key : Nat) : Bool :=
  s.streams.any fun e =>
    let r := e.2.reg.toNat
    let base := 4096 * bits r 48 36
    bit r 127 && (List.range (2 ^ bits r 118 5 / 4096)).any fun i =>
      dramLoc (base + 4096 * i) / 4096 == key / 32

/-- A line of a slice: a listed one, or one that a stream's window pins (R226, R268). -/
def State.lineAt (s : State) (n key : Nat) : Option Line :=
  match FMap.find (s.sliceAt n).lines key with
  | some l => some l
  | none => if s.sinkLine key then some { back := s.read (128 * key) 128, orig := s.read (128 * key) 128 } else none

/-- List a line. -/
def State.setLine (s : State) (n key : Nat) (l : Line) : State :=
  s.modSlice n fun k => { k with lines := FMap.put k.lines key l }

/-- A present line is dirty: it was installed so, or its bytes have changed since. -/
def State.lineDirty (s : State) (key : Nat) (l : Line) : Bool :=
  l.present && (l.dirty || s.read (128 * key) 128 != l.orig)

/-- Write bytes over a line's where they differ. -/
def State.putLine (s : State) (key : Nat) (bs : List Byte) : State :=
  if s.read (128 * key) 128 = bs then s else s.store (128 * key) bs

/-- A line leaves a slice: dirty bytes are written back, or discarded with `wb` clear, and clean ones give way to what DRAM
holds (R268). -/
def State.dropLine (s : State) (n key : Nat) (wb : Bool) : State :=
  match FMap.find (s.sliceAt n).lines key with
  | none => s
  | some l =>
    let s := if l.present && !(wb && s.lineDirty key l) then s.putLine key l.back else s
    s.modSlice n fun k => { k with lines := FMap.del k.lines key }

/-- The ways of a set that present lines take, beside the line `but` (R98). -/
def Slice.waysUsed (k : Slice) (key : Nat) : List Nat :=
  (k.lines.filter fun e => e.1 != key && e.2.present && lineSet e.1 == lineSet key).map (·.2.way)

/-- A free way of a line's set. -/
def Slice.freeWay (k : Slice) (key : Nat) : Option Nat := (List.range 16).find? fun w => !(k.waysUsed key).contains w

/-- A hold of a line ends: an intercepted fill goes on from DRAM, and a victim is evicted; a line that is held for another event
by now is not touched (R265). -/
def State.letGo (s : State) (n key hold : Nat) : State :=
  match FMap.find (s.sliceAt n).lines key with
  | none => s
  | some l =>
    if !l.held || l.hold != hold then s
    else if l.present then s.dropLine n key true
    else s.setLine n key { l with held := false, filling := true }

end Sys2Proof.Machine
end

