-- ==== Sys2Proof/Config.lean ====
section
/-! DEFINITION. What the spec leaves to the device and gives no value: constants without a body, so that nothing proved
of the model can rest on one of their values. Each is named in the assumption log. -/

namespace Sys2Proof.Config

/-- The code that a translation-fault record holds for an access kind: 0 load, 1 store, 2 atomic, 3 fetch (R110, R316;
log entry 6). -/
opaque accessCode : Nat → BitVec 8

/-- The code that a translation-fault record holds for a fault kind: 0 INVALID, 1 FORMAT, 2 HOME, 3 PERM (R110, R316;
log entry 6). -/
opaque xlatCode : Nat → BitVec 8

/-- The source byte of a FATAL record, by unit code and unit number (R314, R316; log entry 6). -/
opaque fatalSource : Nat → Nat → BitVec 8

/-- The public key of the device's identity, 32 bytes as a number (R340; log entry 6). -/
opaque identityKey : BitVec 256

/-- The serial number of the part, as a report holds it (R340; log entry 6). -/
opaque partSerial : BitVec 64

/-- The fused rollback counter (R337, R340; log entry 6). -/
opaque rollbackCounter : BitVec 32

/-- The signature over a report, as a list of bytes (R340; log entry 6). -/
opaque signature : List Byte → List Byte

/-- The frame that firmware takes for a migrated page: by domain and count, the number of the 4 KiB frame in the domain's
channel (R293; log entry 6). -/
opaque freeFrame : Nat → Nat → BitVec 21

/-- The completer behind port A (path 0x08) or port B (path 0x09) answers an AtomicOp at a bus address with Unsupported
Request or Completer Abort (R127; log entry 6). -/
opaque completerRefuses : Nat → Nat → Bool

/-- What a core's banks and L1 portion do in the two core cycles after a cycle, by the event code of R330: reads rebuilt from
parity, cycles of bank waits, L1 hits and L1 misses (R96; log entry 12). -/
opaque memoryEvents : Nat → Nat → Nat → Nat

/-- The loader proves that the pointer of the access at a word of a code section stays in the core's own memory, where an
access does not block (R71, R413; log entry 53). -/
opaque loaderProves : List Word → Nat → Bool

/-- The strap PBMODE makes port B an endpoint, not a root port (R332; log entry 6). -/
opaque pbmode : Bool

/-- SHA-256 of the vendor's public key, as the fuses hold it (R337; log entry 6). -/
opaque vendorKeyHash : List Byte

/-- An SLH-DSA-SHA2-128s signature over some bytes verifies: the key, the bytes, the signature (R337; log entry 6). -/
opaque slhVerify : List Byte → List Byte → List Byte → Bool

/-- The offset on path 0x3F at which a tile's binding table can be read (R32; log entry 27). -/
opaque bindingBase : Nat → Nat

/-- How many frames of a domain are free, as firmware counts them: by domain and count of migrations (R99; log entry 82). -/
opaque freeFrames : Nat → Nat → Nat

end Sys2Proof.Config
end

