-- ==== Sys2Proof/Machine/Flags.lean ====
section
/-! DEFINITION. Number formats, exact values, rounding and the flags it raises (R137 to R155). A finite value is a sign,
a natural significand and a power of two, so sums and products are exact and every rounding happens once. -/

namespace Sys2Proof.Machine

/-- A set of flags in the layout of R150: [3] NV, [2] OF, [1] SAT, [0] NX. -/
abbrev FlagSet := BitVec 4

/-- Invalid. -/
def flagNV : FlagSet := 8
/-- Overflow. -/
def flagOF : FlagSet := 4
/-- Clamped by saturation. -/
def flagSAT : FlagSet := 2
/-- Inexact. -/
def flagNX : FlagSet := 1

/-- The floating formats (R138). -/
inductive FloatFmt where
  | fp32 | bf16 | fp16 | e4m3 | e5m2
  deriving DecidableEq, Repr

/-- Width of the exponent field (R138). -/
def FloatFmt.expBits : FloatFmt → Nat
  | .fp32 => 8 | .bf16 => 8 | .fp16 => 5 | .e4m3 => 4 | .e5m2 => 5

/-- Width of the fraction field (R138). -/
def FloatFmt.fracBits : FloatFmt → Nat
  | .fp32 => 23 | .bf16 => 7 | .fp16 => 10 | .e4m3 => 3 | .e5m2 => 2

/-- The bias (R138). -/
def FloatFmt.bias : FloatFmt → Nat
  | .fp32 => 127 | .bf16 => 127 | .fp16 => 15 | .e4m3 => 7 | .e5m2 => 15

/-- The encoding of the largest finite magnitude (R138). -/
def FloatFmt.maxCode : FloatFmt → Nat
  | .fp32 => 0x7F7FFFFF | .bf16 => 0x7F7F | .fp16 => 0x7BFF | .e4m3 => 0x7E | .e5m2 => 0x7B

/-- The encoding just above the largest finite magnitude: infinity, or the NaN of E4M3 (R138). -/
def FloatFmt.topCode (f : FloatFmt) : Nat := f.maxCode + 1

/-- The canonical NaN (R138). -/
def FloatFmt.canonNaN : FloatFmt → Nat
  | .fp32 => 0x7FC00000 | .bf16 => 0x7FC0 | .fp16 => 0x7E00 | .e4m3 => 0x7F | .e5m2 => 0x7F

/-- Width of the whole encoding. -/
def FloatFmt.width (f : FloatFmt) : Nat := 1 + f.expBits + f.fracBits

/-- The formats whose narrowing follows R143. -/
def FloatFmt.isFP8 : FloatFmt → Bool
  | .e4m3 => true | .e5m2 => true | _ => false

/-- A decoded value: NaN, an infinity, or (−1)^neg × m × 2^e. -/
inductive Num where
  | nan
  | inf (neg : Bool)
  | fin (neg : Bool) (m : Nat) (e : Int)
  deriving DecidableEq, Repr

/-- Positive zero. -/
def Num.zero : Num := .fin false 0 0

/-- An exact integer. -/
def Num.ofInt (v : Int) : Num := .fin (decide (v < 0)) v.natAbs 0

/-- The value of an encoding (R138). -/
def decodeFloat (f : FloatFmt) (b : Nat) : Num :=
  let neg := bit b (f.width - 1)
  let e := bits b f.fracBits f.expBits
  let m := bits b 0 f.fracBits
  if f.maxCode < b % 2 ^ (f.width - 1) then
    if f ≠ .e4m3 ∧ m = 0 then .inf neg else .nan
  else if e = 0 then .fin neg m (1 - (f.bias : Int) - f.fracBits)
  else .fin neg (m + 2 ^ f.fracBits) ((e : Int) - f.bias - f.fracBits)

/-- The rounding modes, with the codes of `frm` (R142). -/
abbrev RoundMode := BitVec 2

/-- Round toward zero. -/
def modeRZ : RoundMode := 1

/-- Encode a sign and a magnitude code. -/
def signCode (f : FloatFmt) (neg : Bool) (c : Nat) : Nat := if neg then 2 ^ (f.width - 1) + c else c

/-- The result of a rounded magnitude beyond the largest finite value, without saturation (R142). -/
def overflowCode (f : FloatFmt) (mode : RoundMode) (neg : Bool) : Nat :=
  if mode = 1 ∨ (mode = 2 ∧ !neg) ∨ (mode = 3 ∧ neg) then f.maxCode else f.topCode

/-- The result for an infinity (R142, R143): `ocp` selects the non-saturating rule of the FP8 formats. -/
def infinityRule (f : FloatFmt) (ocp neg : Bool) : Nat × FlagSet :=
  match f with
  | .e4m3 => if ocp then (0x7F, flagNV) else (signCode f neg f.maxCode, flagSAT)
  | .e5m2 => if ocp then (signCode f neg f.topCode, 0) else (signCode f neg f.maxCode, flagSAT)
  | _ => (signCode f neg f.topCode, 0)

/-- The result for a finite value whose rounded magnitude is too large (R142, R143). -/
def overflowRule (f : FloatFmt) (mode : RoundMode) (ocp neg : Bool) : Nat × FlagSet :=
  if f.isFP8 && !ocp then (signCode f neg f.maxCode, flagOF ||| flagSAT ||| flagNX)
  else if f = .e4m3 then (0x7F, flagOF ||| flagNX)
  else (signCode f neg (overflowCode f mode neg), flagOF ||| flagNX)

/-- Round the non-negative real (m + δ) × 2^e / 2^q to an integer, where δ is 0, or strictly between 0 and 1 when
`sticky`; the second part says that the result is inexact (R155). -/
def roundQuot (mode : RoundMode) (neg : Bool) (m : Nat) (e q : Int) (sticky : Bool) : Nat × Bool :=
  if q ≤ e then (m * 2 ^ (e - q).toNat, sticky)
  else
    let k := (q - e).toNat
    let n := m / 2 ^ k
    let r := m % 2 ^ k
    let inexact := decide (r ≠ 0) || sticky
    let up :=
      if mode = 0 then
        decide (2 ^ k < 2 * r) || (decide (2 * r = 2 ^ k) && (sticky || n % 2 == 1))
      else if mode = 1 then false
      else if mode = 2 then neg && inexact
      else !neg && inexact
    (if up then n + 1 else n, inexact)

/-- Round a nonzero finite value once (R155). A value marked sticky lies strictly between m × 2^e and (m + 1) × 2^e;
its significand holds more bits than any format. -/
def roundFinite (f : FloatFmt) (mode : RoundMode) (ocp neg : Bool) (m : Nat) (e : Int) (sticky : Bool) : Nat × FlagSet :=
  let emin : Int := 1 - (f.bias : Int)
  let top : Int := max ((Nat.log2 m : Int) + e) emin
  let q := top - f.fracBits
  let (n, inexact) := roundQuot mode neg m e q sticky
  let code := if n < 2 ^ f.fracBits then n else n + (top + f.bias - 1).toNat * 2 ^ f.fracBits
  if f.maxCode < code then overflowRule f mode ocp neg
  else (signCode f neg code, if inexact then flagNX else 0)

/-- RoundFloat (R155). -/
def roundFloat (f : FloatFmt) (mode : RoundMode) (ocp : Bool) : Num → Nat × FlagSet
  | .nan => (f.canonNaN, 0)
  | .inf neg => infinityRule f ocp neg
  | .fin neg 0 _ => (signCode f neg 0, 0)
  | .fin neg m e => roundFinite f mode ocp neg m e false

/-- Negate a value. -/
def Num.neg : Num → Num
  | .nan => .nan
  | .inf s => .inf (!s)
  | .fin s m e => .fin (!s) m e

/-- The value is NaN. -/
def Num.isNaN : Num → Bool
  | .nan => true
  | _ => false

/-- An exact product; 0 × ∞ is invalid (R144, R472). -/
def mulNum : Num → Num → Num × FlagSet
  | .nan, _ => (.nan, 0)
  | _, .nan => (.nan, 0)
  | .inf a, .inf b => (.inf (a != b), 0)
  | .inf a, .fin b m _ => if m = 0 then (.nan, flagNV) else (.inf (a != b), 0)
  | .fin a m _, .inf b => if m = 0 then (.nan, flagNV) else (.inf (a != b), 0)
  | .fin a m e, .fin b n f => (.fin (a != b) (m * n) (e + f), 0)

/-- A finite value as an integer multiple of 2^q, for q not above its exponent. -/
def Num.scaled (q : Int) : Num → Int
  | .fin neg m e => let v : Int := ((m * 2 ^ (e - q).toNat : Nat) : Int); if neg then -v else v
  | _ => 0

/-- The exponent of a finite value. -/
def Num.exp : Num → Int
  | .fin _ _ e => e
  | _ => 0

/-- The sign of a value. -/
def Num.sign : Num → Bool
  | .fin neg _ _ => neg
  | .inf neg => neg
  | .nan => false

/-- The exact sum of a list of values: ∞ − ∞ is invalid, and an exact zero takes the sign of R142. The empty sum is
+0. -/
def sumNums (mode : RoundMode) (l : List Num) : Num × FlagSet :=
  if l.any Num.isNaN then (.nan, 0)
  else
    let pos := l.any fun n => n == Num.inf false
    let neg := l.any fun n => n == Num.inf true
    if pos && neg then (.nan, flagNV)
    else if pos then (.inf false, 0)
    else if neg then (.inf true, 0)
    else
      let q : Int := l.foldl (fun a n => min a n.exp) 0
      let v : Int := l.foldl (fun a n => a + n.scaled q) 0
      if v = 0 then
        let s := if l.isEmpty || l.all (fun n => !n.sign) then false else if l.all Num.sign then true else mode == 2
        (.fin s 0 0, 0)
      else (.fin (decide (v < 0)) v.natAbs q, 0)

/-- Finite or infinite values compare by value; −0 counts as below +0 (R149). -/
def ltNum : Num → Num → Bool
  | .nan, _ => false
  | _, .nan => false
  | .inf a, .inf b => a && !b
  | .inf a, .fin _ _ _ => a
  | .fin _ _ _, .inf b => !b
  | a@(.fin s _ _), b@(.fin t _ _) =>
    let q := min a.exp b.exp
    let u := a.scaled q
    let v := b.scaled q
    decide (u < v) || (decide (u = v) && s && !t)

/-- Numerical order, with −0 equal to +0 and no order on NaN (R479). -/
def ltValue (a b : Num) : Bool :=
  match a, b with
  | .fin _ 0 _, .fin _ 0 _ => false
  | _, _ => ltNum a b

/-- Numerical equality, with −0 equal to +0 (R479). -/
def eqValue (a b : Num) : Bool := !a.isNaN && !b.isNaN && !ltValue a b && !ltValue b a

/-- The minimum of R149: a NaN loses to a number. -/
def minNum (a b : Num) : Num :=
  match a, b with
  | .nan, b => b
  | a, .nan => a
  | a, b => if ltNum b a then b else a

/-- The maximum of R149: a NaN loses to a number. -/
def maxNum (a b : Num) : Num :=
  match a, b with
  | .nan, b => b
  | a, .nan => a
  | a, b => if ltNum a b then b else a

/-- The integer formats (R137): width in bits and whether signed. -/
structure IntFmt where
  width : Nat
  isSigned : Bool
  deriving DecidableEq, Repr

/-- The least value of an integer format. -/
def IntFmt.lo (f : IntFmt) : Int := if f.isSigned then -(2 ^ (f.width - 1) : Int) else 0

/-- The greatest value of an integer format. -/
def IntFmt.hi (f : IntFmt) : Int := if f.isSigned then (2 ^ (f.width - 1) : Int) - 1 else (2 ^ f.width : Int) - 1

/-- The integer an encoding holds (R137). -/
def IntFmt.decode (f : IntFmt) (b : Nat) : Int := if f.isSigned then signed b f.width else ((b % 2 ^ f.width : Nat) : Int)

/-- WrapInt: the value modulo 2^width (R155). -/
def wrapInt (f : IntFmt) (v : Int) : Nat := wrapTo v f.width

/-- SatInt: the value clamped to the format, with SAT when it clamps (R155). -/
def satInt (f : IntFmt) (v : Int) : Nat × FlagSet :=
  if v < f.lo then (wrapTo f.lo f.width, flagSAT)
  else if f.hi < v then (wrapTo f.hi f.width, flagSAT)
  else (wrapTo v f.width, 0)

/-- An integer result marked sat: clamped under saturation field 01, else wrapped (R469). -/
def sealInt (sat : Bool) (f : IntFmt) (v : Int) : Nat × FlagSet := if sat then satInt f v else (wrapInt f v, 0)

/-- ToInt (R143): float to integer, saturating or wrapping. -/
def toInt (f : IntFmt) (mode : RoundMode) (wrap : Bool) : Num → Nat × FlagSet
  | .nan => (0, flagNV)
  | .inf neg => if wrap then (0, flagNV) else (wrapTo (if neg then f.lo else f.hi) f.width, flagSAT)
  | .fin neg m e =>
    let (n, inexact) := roundQuot mode neg m e 0 false
    let v : Int := if neg then -(n : Int) else n
    let nx : FlagSet := if inexact then flagNX else 0
    if f.lo ≤ v ∧ v ≤ f.hi then (wrapTo v f.width, nx)
    else if wrap then (wrapTo v f.width, flagOF ||| nx)
    else (wrapTo (if v < f.lo then f.lo else f.hi) f.width, flagSAT ||| nx)

/-! The transcendental results of R484, rounded once from the exact value. -/

/-- One bit of an integer square root at a time. -/
def isqrtGo (n : Nat) : Nat → Nat → Nat
  | 0, r => r
  | i + 1, r => if (r + 2 ^ i) * (r + 2 ^ i) ≤ n then isqrtGo n i (r + 2 ^ i) else isqrtGo n i r

/-- The integer square root. -/
def isqrt (n : Nat) : Nat := isqrtGo n (Nat.log2 n / 2 + 1) 0

/-- 2^320 × ln 2, rounded down. -/
def ln2Fix : Nat :=
  1480553391661173448385607439722553250922680800745876974795605978609098082859138712941075737848984

/-- The sum of y^k / k! from the term `t` with index `k` on, with 320 fraction bits. -/
def expSum (y : Nat) : Nat → Nat → Nat → Nat
  | 0, _, _ => 0
  | n + 1, k, t => t + expSum y n (k + 1) (t * y / ((k + 1) * 2 ^ 320))

/-- 2^f for a fraction f given with 320 fraction bits, itself with 320 fraction bits. -/
def exp2Fix (f : Nat) : Nat := expSum (f * ln2Fix / 2 ^ 320) 90 0 (2 ^ 320)

/-- The series of the inverse hyperbolic tangent: the sum of z^(2i+1) / (2i+1), with 320 fraction bits. -/
def atanhSum (z2 : Nat) : Nat → Nat → Nat → Nat
  | 0, _, _ => 0
  | n + 1, d, t => t / d + atanhSum z2 n (d + 2) (t * z2 / 2 ^ 320)

/-- log₂ of (1 + f / 2^k), with 320 fraction bits. -/
def log2Fix (m k : Nat) : Nat :=
  let z := (m - 2 ^ k) * 2 ^ 320 / (m + 2 ^ k)
  2 * atanhSum (z * z / 2 ^ 320) 110 1 z * 2 ^ 320 / ln2Fix

/-- 2^a, rounded once (R484). -/
def exp2Num (f : FloatFmt) (mode : RoundMode) : Num → Nat × FlagSet
  | .nan => (f.canonNaN, 0)
  | .inf neg => if neg then (0, 0) else (signCode f false f.topCode, 0)
  | .fin neg m e =>
    if m = 0 then roundFinite f mode false false 1 0 false
    else if 16 < (Nat.log2 m : Int) + e then
      roundFinite f mode false false 1 (if neg then -100000 else 100000) true
    else if 0 ≤ e then
      let v : Int := ((m * 2 ^ e.toNat : Nat) : Int)
      roundFinite f mode false false 1 (if neg then -v else v) false
    else
      let k := (-e).toNat
      let whole := m / 2 ^ k
      let frac := m % 2 ^ k
      if frac = 0 then roundFinite f mode false false 1 (if neg then -(whole : Int) else whole) false
      else
        let up := if neg then -(whole : Int) - 1 else whole
        let fr := if neg then 2 ^ k - frac else frac
        roundFinite f mode false false (exp2Fix (fr * 2 ^ 320 / 2 ^ k) / 2 ^ 32) (up - 288) true

/-- log₂ a, rounded once (R484). -/
def log2Num (f : FloatFmt) (mode : RoundMode) : Num → Nat × FlagSet
  | .nan => (f.canonNaN, 0)
  | .inf neg => if neg then (f.canonNaN, flagNV) else (signCode f false f.topCode, 0)
  | .fin neg m e =>
    if m = 0 then (signCode f true f.topCode, 0)
    else if neg then (f.canonNaN, flagNV)
    else
      let k := Nat.log2 m
      let w : Int := k + e
      if m = 2 ^ k then
        if w = 0 then (0, 0) else roundFinite f mode false (decide (w < 0)) w.natAbs 0 false
      else
        let v : Int := w * 2 ^ 320 + log2Fix m k
        roundFinite f mode false (decide (v < 0)) (v.natAbs / 2 ^ 32) (-288) true

/-- 1 / a, rounded once (R484). -/
def rcpNum (f : FloatFmt) (mode : RoundMode) : Num → Nat × FlagSet
  | .nan => (f.canonNaN, 0)
  | .inf neg => (signCode f neg 0, 0)
  | .fin neg m e =>
    if m = 0 then (signCode f neg f.topCode, 0)
    else roundFinite f mode false neg (2 ^ 128 / m) (-128 - e) (decide (2 ^ 128 % m ≠ 0))

/-- 1 / √a, rounded once (R484). -/
def rsqrtNum (f : FloatFmt) (mode : RoundMode) : Num → Nat × FlagSet
  | .nan => (f.canonNaN, 0)
  | .inf neg => if neg then (f.canonNaN, flagNV) else (0, 0)
  | .fin neg m e =>
    if m = 0 then (signCode f neg f.topCode, 0)
    else if neg then (f.canonNaN, flagNV)
    else
      let m := if e % 2 = 0 then m else 2 * m
      let h := (if e % 2 = 0 then e else e - 1) / 2
      let r := isqrt (2 ^ 256 / m)
      roundFinite f mode false false r (-128 - h) (decide (r * r * m ≠ 2 ^ 256))

/-! Flags of a thread. -/

/-- Merge flags into the vector flags of the slot whose turn it is (R151). -/
def State.flag (s : State) (f : FlagSet) : State := s.modCsr fun c => { c with fflags := c.fflags ||| f }

/-- A context id names a context that is installed, and that the slot's tile, or on a slice agent or front-end core the slot's
last activation, belongs to (R152, R292). -/
def State.contextHere (s : State) (c slot : Nat) (ctx : Word) (asid : BitVec 16) : Bool :=
  let k := s.core c
  let cx := s.contextOf (coreType c == .reflex) asid
  let same := match coreType c with
    | .reasoning => k.asid == asid
    | .reflex => k.asid == asid
    | _ => (k.thread slot).csr.ctxid == ctx
  cx.live && same && ctx == BitVec.ofNat 32 (cx.gen * 2 ^ 16 + asid.toNat)

/-- Flags for a slot's register, `a` choosing `aflags`: merged into the resident slot, or the saved image while the
context is away; those of a context that is destroyed, or that the slot no longer belongs to, are lost and reported (of the latter
the spec says only that they reach no other context: DESIGN CHOICE, log entry 91), and
while Gust code runs on the tile only its own operations complete there (R152, R154). -/
def State.creditFlags (s : State) (c slot : Nat) (ctx : Word) (asid : BitVec 16) (a : Bool) (serial : Word)
    (f : FlagSet) : State :=
  if f = 0 then s
  else
    let merge (t : Thread) : Thread :=
      if a then { t with csr := { t.csr with aflags := t.csr.aflags ||| f } }
      else { t with csr := { t.csr with fflags := t.csr.fflags ||| f } }
    if (s.core c).gustOn then s.modThread c slot merge
    else if !s.contextHere c slot ctx asid then
      s.record 0x0D 0 asid.toNat (unitIndex c) slot (unitCode c)
        [(16, 4, serial.toNat), (20, 1, f.toNat), (21, 1, if a then 1 else 0)]
    else
      match (s.core c).saved with
      | some i =>
        let t := merge (FMap.get i.threads slot {})
        let s := if t.saveKind = 0 then s
          else s.storeNat (ctxLoc c (0x800 * slot + 0x500 + (if a then 4 else 0))) 4
            (if a then t.csr.aflags.toNat else t.csr.fflags.toNat)
        s.modCore c fun k => { k with saved := some { i with threads := FMap.put i.threads slot t } }
      | none => s.modThread c slot merge

end Sys2Proof.Machine
end

