-- ==== Sys2Proof/Machine/Operands.lean ====
section
/-! DEFINITION. Operand forms: immediates and offsets under a prefix (R73, R345), options (R74), lanes of vector registers
and their element types (R59, R353, R355, R466). -/

namespace Sys2Proof.Machine

/-- Sign-extend the low `n` bits to 64 bits. -/
def sext64 (v n : Nat) : Dword := BitVec.ofInt 64 (signed v n)

/-- The word in front of the current instruction that governs it, if there is one (R72). -/
def State.pfx (s : State) : Option Word := s.th.pfx

/-- The payload of an immediate prefix, KIND 00 (R73). -/
def State.ext (s : State) : Option Nat :=
  match s.pfx with
  | some w => if bits w.toNat 24 2 = 0 then some (bits w.toNat 0 16) else none
  | none => none

/-- The payload of an option prefix, KIND 01, or zero (R74). -/
def State.opt (s : State) : Nat :=
  match s.pfx with
  | some w => if bits w.toNat 24 2 = 1 then bits w.toNat 0 24 else 0
  | none => 0

/-- The rounding option (R74). -/
def State.optRound (s : State) : Nat := bits s.opt 0 3

/-- The saturation option (R74). -/
def State.optSat (s : State) : Nat := bits s.opt 3 2

/-- The semiring option (R74). -/
def State.optRing (s : State) : Nat := bits s.opt 5 3

/-- EffMode (R155): the prefix rounding when one is given, else `frm`. -/
def State.effMode (s : State) : RoundMode :=
  if s.optRound = 0 then s.th.csr.frm else BitVec.ofNat 2 (s.optRound - 1)

/-- The immediate of an I-format word, sign-extended unless a prefix widens it (R73, R345). -/
def State.immS (s : State) (i : BitVec 16) : Word :=
  match s.ext with
  | some p => BitVec.ofNat 32 (p * 2 ^ 16 + i.toNat)
  | none => i.signExtend 32

/-- The immediate of a logical I-format word, zero-extended unless a prefix widens it (R73, R345). -/
def State.immZ (s : State) (i : BitVec 16) : Word :=
  match s.ext with
  | some p => BitVec.ofNat 32 (p * 2 ^ 16 + i.toNat)
  | none => i.setWidth 32

/-- A branch offset in words, widened by a prefix (R73, R345). -/
def State.branchOff (s : State) (o : BitVec 16) : Int := (s.immS o).toInt

/-- The target of a branch: from the address of the branch word (R345). -/
def State.branchTo (s : State) (o : BitVec 16) : Dword := s.pc + BitVec.ofInt 64 (4 * s.branchOff o)

/-- Add a signed displacement to the low 56 bits of a pair; none on a carry or borrow out of bit 55 (R347). -/
def offsetPair (a : Dword) (d : Int) : Option Dword :=
  let v : Int := (bits a.toNat 0 56 : Nat) + d
  if v < 0 ∨ (2 ^ 56 : Int) ≤ v then none
  else some (BitVec.ofNat 64 (bits a.toNat 56 8 * 2 ^ 56 + v.toNat))

/-- The path byte that an M-format base selects (R347). -/
def State.basePath (s : State) (b : BitVec 4) : Nat := if b = 0 then 0x10 else bits (s.th.getP b.toNat).toNat 56 8

/-- The effective address of an M-format access (R347), none on a carry or borrow out of bit 55. -/
def State.mAddr (s : State) (b : BitVec 4) (o : BitVec 15) (size : Nat) : Option Dword :=
  let n := match s.ext with | some _ => 31 | none => 15
  let off := match s.ext with | some p => p * 2 ^ 15 + o.toNat | none => o.toNat
  if b = 0 then some (BitVec.ofNat 64 (0x10 * 2 ^ 56 + bits off 0 n * size))
  else offsetPair (s.th.getP b.toNat) (signed off n * size)

/-! Lanes (R59, R466). -/

/-- Lane `i` of width `w` bytes of a register. -/
def lane (v : Vec) (w i : Nat) : Nat := bits v.toNat (8 * w * i) (8 * w)

/-- The number of lanes of width `w`. -/
def lanes (w : Nat) : Nat := 32 / w

/-- The value made of a list of lanes of width `w`, lane 0 first. -/
def joinLanes (w : Nat) : List Nat → Nat
  | [] => 0
  | a :: r => a % 2 ^ (8 * w) + 2 ^ (8 * w) * joinLanes w r

/-- A register made of lanes. -/
def ofLanes (w : Nat) (l : List Nat) : Vec := BitVec.ofNat 256 (joinLanes w l)

/-- A lane is active when the mask bit of its lowest byte is 1 (R59). -/
def active (k : Word) (w i : Nat) : Bool := k.getLsbD (w * i)

/-- The lanes of a result: `f` on active lanes, else the old lane (R467). -/
def mapLanes (k : Word) (w : Nat) (old : Vec) (f : Nat → Nat) : Vec :=
  ofLanes w ((List.range (lanes w)).map fun i => if active k w i then f i else lane old w i)

/-- The flags of the active lanes. -/
def laneFlags (k : Word) (w : Nat) (f : Nat → FlagSet) : FlagSet :=
  (List.range (lanes w)).foldl (fun a i => if active k w i then a ||| f i else a) 0

/-- The bytes of the active lanes, as a byte mask (R59). -/
def activeBytes (k : Word) (w : Nat) : Nat :=
  (List.range (lanes w)).foldl (fun a i => if active k w i then a + (2 ^ w - 1) * 2 ^ (w * i) else a) 0

/-- Some lane of width `w` is active. -/
def anyActive (k : Word) (w : Nat) : Bool := (List.range (lanes w)).any (active k w)

/-- The element types that the V formats and `vcvt` name. -/
inductive Elem where
  | int (f : IntFmt)
  | flt (f : FloatFmt)
  deriving DecidableEq, Repr

/-- The element type of a ty field and U bit (R466). -/
def elemOf (y : BitVec 3) (u : BitVec 1) : Elem :=
  match y.toNat with
  | 0 => .int ⟨8, true⟩
  | 1 => .int ⟨16, u == 0⟩
  | 2 => .int ⟨32, u == 0⟩
  | 3 => .flt .fp32
  | 4 => .flt .bf16
  | 5 => .flt .fp16
  | _ => .int ⟨8, false⟩

/-- The element type of a code of R355. -/
def elemOfCode (c : BitVec 4) : Elem :=
  match c.toNat with
  | 0 => .int ⟨8, true⟩
  | 1 => .int ⟨16, true⟩
  | 2 => .int ⟨32, true⟩
  | 3 => .flt .fp32
  | 4 => .flt .bf16
  | 5 => .flt .fp16
  | 6 => .int ⟨8, false⟩
  | 7 => .int ⟨16, false⟩
  | 8 => .int ⟨32, false⟩
  | 9 => .flt .e4m3
  | _ => .flt .e5m2

/-- Width of an element in bytes. -/
def Elem.bytes : Elem → Nat
  | .int f => f.width / 8
  | .flt f => f.width / 8

/-- The value of an element. -/
def Elem.num (e : Elem) (b : Nat) : Num :=
  match e with
  | .int f => Num.ofInt (f.decode b)
  | .flt f => decodeFloat f b

/-- The integer format of an integer element, s32 for a floating one. -/
def Elem.ifmt : Elem → IntFmt
  | .int f => f
  | .flt _ => ⟨32, true⟩

/-- The floating format of a floating element, FP32 for an integer one. -/
def Elem.ffmt : Elem → FloatFmt
  | .flt f => f
  | .int _ => .fp32

/-- The element type is floating. -/
def Elem.isFloat : Elem → Bool
  | .flt _ => true
  | .int _ => false

end Sys2Proof.Machine
end

