-- ==== Sys2Proof/Machine/Translate.lean ====
section
/-! DEFINITION. Address translation: table walks, leaves and permissions, the TLB, faults and invalidation
(R102 to R114). -/

namespace Sys2Proof.Machine

/-- The root a translated path uses (R102): 0 generic, 1 host, 2 peer. -/
def pathRoot (path : Nat) : Nat := if path = 0x08 then 1 else if path = 0x09 then 2 else 0

/-- A path that is translated (R78). -/
def isTranslated (path : Nat) : Bool := path == 0x00 || path == 0x01 || path == 0x08 || path == 0x09

/-- The root table of a context, 0 when there is none (R102). -/
def State.rootOf (s : State) (asid : BitVec 16) (root : Nat) : Nat :=
  match FMap.find s.contexts asid.toNat with
  | none => 0
  | some c => if !c.live then 0 else if root = 0 then c.generic else if root = 1 then c.host else c.peer

/-- The end of a walk: the leaf with its level and location, or a translation fault and its level (R110). -/
inductive WalkEnd where
  | leaf (level loc entry : Nat)
  | fault (kind : XlatKind) (level : Nat)
  deriving DecidableEq, Repr

/-- A leaf that R105 calls malformed at a level of a root's tables. -/
def leafBad (root level e : Nat) : Bool :=
  bits e 52 12 != 0 || bit e 11 || bits e 9 2 == 3 || bits e 7 2 == 3 || (bit e 2 && !bit e 1) || level == 3 ||
    (level == 1 && bits e 12 9 != 0) || (level == 2 && bits e 12 18 != 0) ||
    (root == 0 && bits e 40 8 != 0) || (root != 0 && (bits e 48 4 != 0 || bits e 9 2 != 0 || bits e 7 2 != 0))

/-- A generic leaf whose home policy disagrees with its view (R105). -/
def leafHomeBad (root e : Nat) : Bool :=
  root == 0 &&
    (if bits e 9 2 = 0 then bits e 37 3 != 0 else bits e 37 3 != 1 || bits e 33 4 != bits e 48 4)

/-- A pointer entry that R105 calls malformed at a level. -/
def pointerBad (level e : Nat) : Bool :=
  level == 0 || bits e 48 16 != 0 || bits e 1 11 != 0 || !isBacked (bits e 12 36 * 4096)

/-- One level of a walk and those below it (R103). `n` counts the levels still to read. -/
def State.walkFrom (s : State) (root va : Nat) : Nat → Nat → WalkEnd
  | 0, _ => .fault .format 0
  | level + 1, table =>
    let loc := dramLoc table + 8 * bits va (12 + 9 * level) 9
    if (s.poisoned loc (loc + 8)).isSome then .fault .format level
    else
      let e := s.readNat loc 8
      if !bit e 0 then .fault .invalid level
      else if bits e 1 3 = 0 then
        if pointerBad level e then .fault .format level else s.walkFrom root va level (bits e 12 36 * 4096)
      else if leafBad root level e then .fault .format level
      else if leafHomeBad root e then .fault .home level
      else .leaf level loc e

/-- A walk from the root (R102, R105). -/
def State.walkTable (s : State) (asid : BitVec 16) (root va : Nat) : WalkEnd :=
  let r := s.rootOf asid root
  if r = 0 then .fault .invalid 3
  else if !isBacked r then .fault .format 3
  else s.walkFrom root va 4 r

/-- The permissions an access needs (R106). -/
def leafAllows (e : Nat) : AccessKind → Bool
  | .load => bit e 1
  | .store => bit e 2
  | .atomic => bit e 1 && bit e 2
  | .fetch => bit e 3

/-- The access sets D (R104). -/
def AccessKind.dirties : AccessKind → Bool
  | .store => true
  | .atomic => true
  | _ => false

/-- The location an address reaches through a leaf (R103). -/
def leafLoc (root level e va : Nat) : Nat :=
  let n := 12 + 9 * level
  let a := bits e 12 36 * 4096 / 2 ^ n * 2 ^ n + bits va 0 n
  if root = 0 then dramLoc a else if root = 1 then hostLoc a else peerLoc a

/-- The physical address an address reaches through a leaf. -/
def leafPa (level e va : Nat) : Nat :=
  let n := 12 + 9 * level
  bits e 12 36 * 4096 / 2 ^ n * 2 ^ n + bits va 0 n

/-- A TLB entry maps an address of a root and address-space id (R107). -/
def TlbEntry.maps (t : TlbEntry) (root : Nat) (asid : BitVec 16) (va : Nat) : Bool :=
  t.root == root && (t.asid == asid || bit t.leaf.toNat 4) && t.page == bits va (12 + 9 * t.level) (36 - 9 * t.level)

/-- A TLB entry serves an access: it holds the permissions, and D for a store or atomic (R107). -/
def TlbEntry.serves (t : TlbEntry) (kind : AccessKind) : Bool :=
  leafAllows t.leaf.toNat kind && (!kind.dirties || bit t.leaf.toNat 6)

/-- The TLB entry that serves an access. R107 lets an entry with D = 0 not serve a store; of an entry that matches and lacks the
permission it says nothing: here it serves nothing either, and the access walks (log entry 79, DESIGN CHOICE). -/
def Core.tlbHit (k : Core) (root : Nat) (asid : BitVec 16) (va : Nat) (kind : AccessKind) : Option TlbEntry :=
  k.tlb.find? fun t => t.maps root asid va && t.serves kind

/-- Put an entry first in least-recently-used order, dropping what it replaces and the last of 64 (R107). -/
def Core.tlbFill (k : Core) (t : TlbEntry) : Core :=
  { k with tlb := (t :: k.tlb.filter fun u =>
      !(u.root == t.root && u.asid == t.asid && u.level == t.level && u.page == t.page)).take 64 }

/-- How an address translates through the TLB of a core: the location, or a walk to wait for (R107, R108). -/
inductive Xlat where
  | hit (loc : Nat)
  | miss (w : Walk)
  deriving DecidableEq, Repr

/-- Translate an address on a translated path for an access (R107). -/
def State.translate (s : State) (c : Nat) (asid : BitVec 16) (path va : Nat) (kind : AccessKind) : Xlat :=
  let root := pathRoot path
  match (s.core c).tlbHit root asid va kind with
  | some t => .hit (leafLoc root t.level t.leaf.toNat va)
  | none => .miss { path := path, va := va, kind := kind }

/-- The TLB entry that serves an access becomes the most recently used (R107). -/
def State.touchTlb (s : State) (c : Nat) (asid : BitVec 16) (path va : Nat) (kind : AccessKind) : State :=
  match (s.core c).tlbHit (pathRoot path) asid va kind with
  | some t => if (s.core c).tlb.head? = some t then s else s.modCore c (·.tlbFill t)
  | none => s

/-- Perform a walk: set A and D in the leaf and fill the TLB, or give the fault with its level (R106, R109, R110). A leaf that breaks
the home agreement and lacks the permission faults HOME, which the walk itself finds (DESIGN CHOICE, log entry 96). -/
def State.performWalk (s : State) (c : Nat) (asid : BitVec 16) (w : Walk) : State × Option (XlatKind × Nat) :=
  let root := pathRoot w.path
  match s.walkTable asid root w.va with
  | .fault k l => (s, some (k, l))
  | .leaf level loc e =>
    if !leafAllows e w.kind then (s, some (.perm, level))
    else
      let e1 := setBits e 5 1 1
      let e2 := if w.kind.dirties then setBits e1 6 1 1 else e1
      let s := if e2 = e then s else s.storeNat loc 8 e2
      let t : TlbEntry :=
        { root := root, asid := asid, level := level, page := bits w.va (12 + 9 * level) (36 - 9 * level),
          leaf := BitVec.ofNat 64 e2 }
      (s.modCore c (·.tlbFill t), none)

/-- The kinds of access, numbered for the record (R316). -/
def accessIndex : AccessKind → Nat
  | .load => 0
  | .store => 1
  | .atomic => 2
  | .fetch => 3

/-- The kinds of translation fault, numbered for the record (R316). -/
def xlatIndex : XlatKind → Nat
  | .invalid => 0
  | .format => 1
  | .home => 2
  | .perm => 3

/-- The virtual address that a fault of the walk names, path byte included (R110, R316); that of an entry header for a word of
it (R68). -/
def Walk.addr (w : Walk) : Nat := w.shown.getD (w.path * 2 ^ 56 + w.va)

/-- The translation-fault record of a thread (R110, R316). -/
def State.xlatRecord (s : State) (c n : Nat) (w : Walk) (k : XlatKind) (level : Nat) : State :=
  s.threadRecord c n 0x02 0
    [(24, 8, w.addr), (32, 1, w.path), (33, 1, (Config.accessCode (accessIndex w.kind)).toNat),
      (34, 1, (Config.xlatCode (xlatIndex k)).toNat), (35, 1, level)]

/-- Remove the TLB entries of a core that a test names (R113). -/
def State.tlbDrop (s : State) (c : Nat) (p : TlbEntry → Bool) : State :=
  s.modCore c fun k => { k with tlb := k.tlb.filter fun t => !p t }

/-- Walks in flight for a dropped page start again: the walk is not complete, so the slot simply keeps waiting, and a
slot that waited for another page is not touched (R113). Entries that mode 00 or 11 drops (R113). -/
def dropsVa (root : Nat) (asid : BitVec 16) (va : Nat) (t : TlbEntry) : Bool := t.maps root asid va

/-- Entries that mode 01 drops (R113). -/
def dropsAsid (asid : BitVec 16) (t : TlbEntry) : Bool := t.asid == asid && !bit t.leaf.toNat 4

end Sys2Proof.Machine
end

