-- ==== Sys2Proof/Machine/Streams.lean ====
section
/-! DEFINITION. Bound registers: stream FIFOs, channel ends, beats and credits, and what an instruction that names one
reads and pushes (R185 to R189, R468). -/

namespace Sys2Proof.Machine

/-- The binding of a register of a slot, if it has one. -/
def TileCtx.boundReg (x : TileCtx) (slot r : Nat) : Option Bound := x.bounds.find? fun b => b.slot == slot && b.reg == r

/-- The binding of a register of the slot whose turn it is. -/
def State.boundOf (s : State) (r : Nat) : Option Bound := (s.core s.cur).cx.boundReg s.slot r

/-- The register is the source of an `mldb.s` fill in progress on the tile: any instruction of any slot that names it traps
(R425). -/
def State.fillingReg (s : State) (r : Nat) : Bool := (s.core s.cur).cx.bounds.any fun b => b.reg == r && b.filling

/-- Change the binding of a register of a slot. -/
def State.modBound (s : State) (c slot r : Nat) (f : Bound → Bound) : State :=
  s.modCore c fun k => { k with cx := { k.cx with
    bounds := k.cx.bounds.map fun b => if b.slot == slot && b.reg == r then f b else b } }

/-- Columns of the mesh a core's tile lies on (R14, R15). -/
def meshCols (c : Nat) : Nat := if coreType c = .reasoning then 16 else 8

/-- Rows of the mesh a core's tile lies on (R14, R15). -/
def meshRows (c : Nat) : Nat := if coreType c = .reasoning then 16 else 4

/-- The neighbour of a tile in a direction: 0 north, 1 east, 2 south, 3 west (R187). -/
def meshNeighbour (c dir : Nat) : Option Nat :=
  let u := unitIndex c
  let w := meshCols c
  let row := u / w
  let col := u % w
  match dir with
  | 0 => if row = 0 then none else some (c - w)
  | 1 => if col + 1 = w then none else some (c + 1)
  | 2 => if row + 1 = meshRows c then none else some (c + w)
  | _ => if col = 0 then none else some (c - 1)

/-- The tiles of a partition in ascending id (R304, R309). -/
def tileList (m : BitVec 256) : List Nat := (List.range 256).filter m.getLsbD

/-- The place of a tile among those of a spilled partition, with the partition's number (R309). -/
def State.spilledAt (s : State) (asid : BitVec 16) (t : Nat) : Option (Nat × Nat) :=
  s.parts.findSome? fun e =>
    if e.2.st = .spilled ∧ e.2.asid = asid ∧ e.2.spillTiles.getLsbD t then
      some (e.1, ((tileList e.2.spillTiles).filter (· < t)).length)
    else none

/-- The number that stands for a tile's place in a spilled partition: traffic for it waits there until a FILL (R193, R309). -/
def awayCore (p j : Nat) : Nat := 4096 + 256 * p + j

/-- A number that stands for a place in a spilled partition. -/
def isAway (c : Nat) : Bool := decide (4096 ≤ c)

/-- The core of a gang member now, or its place in a spilled partition (R187, R309). -/
def State.memberTile (s : State) (g : Option (Nat × Nat)) (id : Nat) : Option Nat :=
  match g with
  | none => none
  | some p =>
    match s.gang p.1 with
    | none => none
    | some g => (FMap.find g.members id).map fun m =>
      match s.spilledAt g.asid m.tile with
      | some e => awayCore e.1 e.2
      | none => m.tile

/-- The core at the other end of a channel (R187). -/
def State.peerCore (s : State) (c : Nat) (g : Option (Nat × Nat)) : Peer → Option Nat
  | .member id => s.memberTile g id
  | .neighbour d => meshNeighbour c d

/-- The port of a channel end, with its peer: input or output. -/
def Bound.chan (b : Bound) : Option (Bool × Peer × Nat) :=
  match b.kind with
  | .chanIn p q _ => some (false, p, q)
  | .chanOut p q => some (true, p, q)
  | _ => none

/-- A binding is the given end of a port. -/
def Bound.isEnd (b : Bound) (out : Bool) (port : Nat) : Bool :=
  match b.chan with
  | some (o, _, q) => o == out && q == port
  | none => false

/-- The bindings of a core that a channel can reach: those of Gust code from Gust code, else the tenant's. -/
def Core.ends (k : Core) (g : Bool) : List Bound := if g then (if k.gustOn then k.cx.bounds else []) else k.ctx.bounds

/-- Change the bindings of a core that a channel can reach. -/
def Core.modEnds (k : Core) (g : Bool) (f : List Bound → List Bound) : Core :=
  if g then (if k.gustOn then { k with cx := { k.cx with bounds := f k.cx.bounds } } else k)
  else k.modCtx fun x => { x with bounds := f x.bounds }

/-- The opposite end of a channel end: the core and the binding, when each names the other (R187). -/
def State.farEnd (s : State) (c : Nat) (b : Bound) : Option (Nat × Bound) :=
  match b.chan with
  | none => none
  | some (out, p, q) =>
    match s.peerCore c b.gang p with
    | none => none
    | some d =>
      match ((s.core d).ends b.gust).find? (fun e => e.isEnd (!out) q) with
      | none => none
      | some e =>
        match e.chan with
        | some (_, p', _) => if s.peerCore d e.gang p' = some c then some (d, e) else none
        | none => none

/-- Change the end of a port on a core. -/
def State.modEnd (s : State) (c : Nat) (out : Bool) (port : Nat) (gust : Bool) (f : Bound → Bound) : State :=
  s.modCore c (·.modEnds gust fun l => l.map fun b => if b.isEnd out port then f b else b)

/-- Both ends name each other and were not joined before: the sender holds D credits (R188). -/
def State.linkEnds (s : State) (c : Nat) (b : Bound) : State :=
  match s.farEnd c b, b.chan with
  | some (d, e), some (out, _, q) =>
    if b.linked then s
    else
      let bufs := match (if out then e.kind else b.kind) with | .chanIn _ _ n => n | _ => 0
      let s := s.modEnd (if out then c else d) true q b.gust fun o => { o with credits := bufs, linked := true }
      s.modEnd (if out then d else c) false q b.gust fun i => { i with linked := true }
  | _, _ => s

/-- An end goes away: beats in flight and unread beats are discarded and the sender's credits freeze (R188). An end that
forms no channel, since the other core's end of the port names another peer or is not there, takes nothing with it. -/
def State.unlinkEnd (s : State) (c : Nat) (b : Bound) : State :=
  match b.chan, s.farEnd c b with
  | some (out, _, q), some (d, _) =>
    let src := if out then c else d
    let dst := if out then d else c
    let s := { s with flight := { s.flight with
      beats := s.flight.beats.filter fun e => !(e.1 == dst && e.2.1 == q && e.2.2.1 == b.gust)
      chanCredits := s.flight.chanCredits.filter fun e => !(e.1 == src && e.2.1 == q && e.2.2 == b.gust) } }
    s.modEnd d (!out) q b.gust fun e => { e with linked := false, fifo := [] }
  | _, _ => s

/-- End the channel ends that a slot of a tenant's context made, where the context is away (R188, R394). -/
def State.unlinkAway (s : State) (c n : Nat) (x : TileCtx) : State :=
  (x.bounds.filter (·.slot == n)).foldl (fun s b => s.unlinkEnd c b) s

/-- End the channel ends a slot's activation made (R188, R394). -/
def State.unlinkSlot (s : State) (c n : Nat) : State :=
  ((s.core c).cx.bounds.filter (·.slot == n)).foldl (fun s b => s.unlinkEnd c b) s

/-- Move whole entries of a read stream's bytes into its FIFO as entries free; after the last byte a part-entry is padded
and the end-of-stream beat stands behind it (R185, R186). `n` bounds the work. -/
def Bound.settle (b : Bound) : Nat → Bound
  | 0 => b
  | n + 1 =>
    if decide (32 ≤ b.part.length) && decide (b.fifo.length < 4) then
      Bound.settle { b with fifo := b.fifo ++ [some (BitVec.ofNat 256 (leNat (b.part.take 32)))], part := b.part.drop 32 } n
    else if b.finished && decide (b.part.length < 32) && !b.fifo.contains none then
      if b.part.isEmpty then { b with fifo := b.fifo ++ [none] }
      else if b.fifo.length < 4 then
        Bound.settle { b with fifo := b.fifo ++ [some (BitVec.ofNat 256 (leNat b.part))], part := [] } n
      else b
    else b

/-- The register can be read: a read stream or an input channel (R468). -/
def Bound.isSource (b : Bound) : Bool :=
  match b.kind with
  | .readStream _ => true
  | .chanIn _ _ _ => true
  | _ => false

/-- A write finds room: a FIFO entry, or a credit of a linked channel (R186, R188). -/
def Bound.hasRoom (b : Bound) : Bool :=
  match b.kind with
  | .writeStream _ => decide (b.fifo.length < 4)
  | .chanOut _ _ => b.linked && decide (0 < b.credits)
  | _ => false

/-- What a vector instruction finds at its bound operands before it may run (R468): it goes on, it waits on a register, or it
traps. -/
inductive VecCheck where
  | go | block (reg : Nat) | trap (code : Nat)
  deriving DecidableEq, Repr

/-- The check of R468 on the registers an instruction reads and writes. -/
def State.vecCheck (s : State) (srcs dsts : List Nat) : VecCheck :=
  let b := s.boundOf
  if (srcs ++ dsts).any s.fillingReg then .trap 3
  else if srcs.any fun r => (b r).any fun e => !e.isSource || dsts.contains r then .trap 3
  else if dsts.any fun r => (b r).any (·.isSource) then .trap 3
  else if dsts.any fun r => (b r).any fun e =>
      (match e.kind with | .writeStream _ => e.finished | _ => false) then .trap 4
  else
    match srcs.find? fun r => (b r).any (·.fifo.isEmpty) with
    | some r => .block r
    | none =>
      match dsts.find? fun r => (b r).any fun e => !e.hasRoom with
      | some r => .block r
      | none => .go

/-- The value an instruction reads from a vector register: the head entry of a bound one, an end-of-stream beat reading
zero (R186). -/
def State.vsrc (s : State) (r : Nat) : Vec :=
  match s.boundOf r with
  | none => s.th.getV r
  | some b =>
    match b.fifo with
    | some v :: _ => v
    | _ => 0

/-- What the inactive lanes of a destination hold: the old value, or zero for a bound register (R186). -/
def State.vold (s : State) (r : Nat) : Vec := if (s.boundOf r).isSome then 0 else s.th.getV r

/-- A read retires: one entry is consumed and, on an input channel, its buffer stays occupied; an end-of-stream beat is not
consumed and sets `chst` (R186, R188). -/
def State.popSource (s : State) (r : Nat) : State :=
  match s.boundOf r with
  | none => s
  | some b =>
    match b.fifo with
    | [] => s
    | none :: _ => s.modCsr fun c => { c with chst := c.chst ||| BitVec.ofNat 8 (2 ^ (r - 24)) }
    | some _ :: rest =>
      s.modBound s.cur s.slot r fun b =>
        match b.kind with
        | .chanIn _ _ _ => { b with fifo := rest, readBufs := b.readBufs + 1 }
        | _ => Bound.settle { b with fifo := rest } 5

/-- Consume one entry of each bound source, shared ones once (R186). -/
def State.popSources (s : State) (srcs : List Nat) : State := srcs.eraseDups.foldl State.popSource s

/-- Send a beat on an output end, taking one credit (R188, R189). -/
def State.sendBeat (s : State) (b : Bound) (v : Option Vec) : State :=
  match b.chan with
  | some (true, p, q) =>
    let s := s.modBound s.cur b.slot b.reg fun b => { b with credits := b.credits - 1 }
    match s.peerCore s.cur b.gang p with
    | some d => { s with flight := { s.flight with beats := s.flight.beats ++ [(d, q, b.gust, v)] } }
    | none => s
  | _ => s

/-- Write a vector destination: a push of all 32 bytes when it is bound, else the register (R186, R468). -/
def State.vput (s : State) (r : Nat) (v : Vec) : State :=
  match s.boundOf r with
  | none => s.modTh (·.setV r v)
  | some b =>
    match b.kind with
    | .writeStream _ => s.modBound s.cur s.slot r fun b => { b with fifo := b.fifo ++ [some v] }
    | _ => s.sendBeat b (some v)

end Sys2Proof.Machine
end

