-- ==== Sys2Proof/Machine/Info.lean ====
section
/-! DEFINITION. What holds of an instruction before it runs: the core types that have it and the mode it needs (R8,
R357), its feature bit (R336), the prefixes it takes (R73 to R75) and whether it needs a `safe` before it (R71). -/

namespace Sys2Proof.Machine

/-- The rows of R357, and the events. -/
inductive Group where
  | scalar | mover | vector | atomic | gangSync | future | matrix | ring | counter | message | binding | mailbox | time | timer | window | gust | gustQuery | post | claim | line | launch | system | privileged | tlb | event
  deriving DecidableEq, Repr

/-- The row of R357 an instruction belongs to. -/
def groupOf : Instr → Group
  | .add _ _ _ | .sub _ _ _ | .and _ _ _ | .or _ _ _ | .xor _ _ _ | .andn _ _ _ | .sll _ _ _ | .srl _ _ _
  | .sra _ _ _ | .rol _ _ _ | .slt _ _ _ | .sltu _ _ _ | .min _ _ _ | .max _ _ _ | .minu _ _ _ | .maxu _ _ _
  | .mul _ _ _ | .mulh _ _ _ | .mulhu _ _ _ | .div _ _ _ | .divu _ _ _ | .rem _ _ _ | .remu _ _ _ | .clz _ _
  | .ctz _ _ | .popc _ _ | .sextB _ _ | .sextH _ _ | .zextB _ _ | .zextH _ _ | .bfx _ _ _ | .bfi _ _ _ | .addi _ _ _
  | .andi _ _ _ | .ori _ _ _ | .xori _ _ _ | .slti _ _ _ | .sltiu _ _ _ | .lui _ _ | .slli _ _ _ | .srli _ _ _
  | .srai _ _ _ | .addpi _ _ _ | .addp _ _ _ | .subp _ _ _ | .movp _ _ | .beq _ _ _ | .bne _ _ _ | .blt _ _ _
  | .bge _ _ _ | .bltu _ _ _ | .bgeu _ _ _ | .bkany _ _ | .bkall _ _ | .bknone _ _ | .j _ | .jal _ | .jalr _ _ _
  | .jalrFar _ _ _ | .dbnz _ _ | .lb _ _ _ | .lbu _ _ _ | .lh _ _ _ | .lhu _ _ _ | .lw _ _ _ | .ld _ _ _ | .sb _ _ _
  | .sh _ _ _ | .sw _ _ _ | .sd _ _ _ | .pf _ _ _ => .scalar
  | .bceos _ _ | .mvgo _ _ | .mvred _ _ | .mvst _ _ | .mvkill _ | .sbind _ _ _ | .cbind _ _ _ | .sunbind _ | .cret _
  | .ceos _ => .mover
  | .vld _ _ _ _ | .vst _ _ _ _ | .vadd _ _ _ _ _ _ | .vsub _ _ _ _ _ _ | .vmul _ _ _ _ _ _ | .vmin _ _ _ _ _ _
  | .vmax _ _ _ _ _ _ | .vabs _ _ _ _ | .vneg _ _ _ _ | .vand _ _ _ _ _ | .vor _ _ _ _ _ | .vxor _ _ _ _ _
  | .vandn _ _ _ _ _ | .vsll _ _ _ _ _ | .vsrl _ _ _ _ _ | .vsra _ _ _ _ _ | .vclamp _ _ _ _ _ _ | .vdot _ _ _ _ _ _
  | .vaddF _ _ _ _ _ | .vsubF _ _ _ _ _ | .vmulF _ _ _ _ _ | .vminF _ _ _ _ _ | .vmaxF _ _ _ _ _ | .vabsF _ _ _ _
  | .vnegF _ _ _ _ | .vfma _ _ _ _ _ | .vfms _ _ _ _ _ | .vclampF _ _ _ _ _ | .vdotF _ _ _ _ _ | .vcmpEq _ _ _ _ _ _
  | .vcmpNe _ _ _ _ _ _ | .vcmpLt _ _ _ _ _ _ | .vcmpLe _ _ _ _ _ _ | .vcmpGt _ _ _ _ _ _ | .vcmpGe _ _ _ _ _ _
  | .vsel _ _ _ _ _ | .kmovX _ _ | .kand _ _ _ | .kor _ _ _ | .kxor _ _ _ | .knot _ _ | .kmovK _ _ | .kpopc _ _
  | .kfirst _ _ | .kgen _ _ | .vcvt _ _ _ _ _ | .vexp2 _ _ _ _ | .vlog2 _ _ _ _ | .vrcp _ _ _ _ | .vrsqrt _ _ _ _
  | .vpopc _ _ _ _ | .vredsum _ _ _ _ _ | .vredmax _ _ _ _ _ | .vredmin _ _ _ _ _ | .vargmax _ _ _ _ _
  | .vscan _ _ _ _ | .vperm _ _ _ _ _ | .vslide _ _ _ _ _ | .vtopk _ _ _ _ _ _ | .vbcast _ _ _ _ | .vmvx _ _ _ _
  | .vins _ _ _ _ | .vmov _ _ _ _ | .vldg _ _ _ _ _ | .vsts _ _ _ _ _ => .vector
  | .amoaddW _ _ _ _ _ _ | .amoaddD _ _ _ _ _ _ | .amoandW _ _ _ _ _ _ | .amoandD _ _ _ _ _ _ | .amoorW _ _ _ _ _ _
  | .amoorD _ _ _ _ _ _ | .amoxorW _ _ _ _ _ _ | .amoxorD _ _ _ _ _ _ | .amominW _ _ _ _ _ _ | .amominD _ _ _ _ _ _
  | .amomaxW _ _ _ _ _ _ | .amomaxD _ _ _ _ _ _ | .amominuW _ _ _ _ _ _ | .amominuD _ _ _ _ _ _
  | .amomaxuW _ _ _ _ _ _ | .amomaxuD _ _ _ _ _ _ | .amoswapW _ _ _ _ _ _ | .amoswapD _ _ _ _ _ _
  | .amofadd _ _ _ _ _ _ | .casW _ _ _ _ _ _ | .casD _ _ _ _ _ _ | .lrW _ _ _ _ _ | .lrD _ _ _ _ _ | .scW _ _ _ _ _ _
  | .scD _ _ _ _ _ _ | .fence _ _ _ | .fencei | .wrs _ _ => .atomic
  | .barv _ _ _ | .barw _ _ _ | .trig | .waitdep _ => .gangSync
  | .fput _ _ _ | .fget _ _ | .freset _ _ => .future
  | .mma _ _ | .mmv _ _ | .mldb _ _ | .mldbS _ _ | .mst _ _ | .mrd _ _ _ | .mzero _ => .matrix
  | .mring _ _ _ => .ring
  | .cwait _ _ _ | .cadd _ _ | .cset _ _ | .crd _ _ => .counter
  | .mw _ _ | .send _ _ _ | .sendw _ _ _ | .exit _ _ | .yield => .message
  | .bind _ _ _ | .unbind _ _ => .binding
  | .mbopen _ _ | .mbpub _ _ _ | .mbld _ _ _ | .mbsnap _ _ _ | .mbver _ _ => .mailbox
  | .tnow _ => .time
  | .tuntil _ _ _ => .timer
  | .swget _ _ _ | .swadv _ _ _ => .window
  | .gust _ _ | .gustrel _ => .gust
  | .gustq _ _ => .gustQuery
  | .qpost _ => .post
  | .qclaim _ _ | .hacc _ _ => .claim
  | .lpin _ _ | .lunpin _ _ | .lfill _ _ _ | .ldrop _ _ _ | .lprobe _ _ => .line
  | .glaunch _ _ | .gabort _ _ _ => .launch
  | .ecall | .ebreak | .csrr _ _ | .csrw _ _ | .csrs _ _ | .csrc _ _ | .ewr _ _ | .erd _ _ | .safe _ _ | .pfxExt _
  | .pfxOpt _ => .system
  | .eret | .halt => .privileged
  | .tinv _ _ => .tlb
  | .illegalEncoding _ | .messageArrival _ | .inboxPortAccept _ | .messageDispatch _ | .creditReturn _
  | .successorSend _ | .unboundHoldExpiry _ | .gangRequestAccept | .placementPass | .gangMemberStart _ _
  | .triggerNotice _ | .l1ResizeComplete _ | .pageWalkComplete _ _ | .translationReplay _ | .translationAbort _
  | .storeBufferPerform _ _ | .hostMemoryAccess _ | .matrixCommandComplete _ | .latchFillComplete _ _
  | .handoffClaim _ | .handoffComplete _ | .moverElement _ _ | .channelBeatArrival _ | .channelCreditReturn _
  | .remoteCaddArrival _ | .squallScan | .tickDelivery _ | .tickStart _ _ | .budgetExpiry _ _ | .budgetKill _ _
  | .mbsnapCopyComplete _ | .gustCodeStart _ | .gustHoldExpiry _ | .gustRelocation _ | .heartbeatSend
  | .heartbeatReceive | .heartbeatWindowExpiry | .fatalErrorMessage | .hsctlTake | .mirrorPublishReceive _
  | .keepRegionMirrorReceive _ | .timeSourceCorrection _ | .streamRecordArrival _ _ | .ingestRecordCommit _
  | .decodeTick _ | .decodeTickLate _ | .tuntilTimerExpiry _ _ | .egressLaunch _ | .serviceStepScheduler _
  | .stepBoundary | .samplingQueuePost _ | .lineMissEvent _ | .lineFillEvent _ | .lineEvictionEvent _
  | .agentBudgetExpiry _ _ | .loaderStart _ | .loaderDescriptorComplete _ | .fgetParkRetry _ _ | .futureWake _ _
  | .queuePacketStart _ _ | .doorbellWrite _ _ | .reconcilePass | .serviceInstallContext _ | .serviceShootdown _
  | .shootdownComplete | .serviceCreateQueue _ | .serviceDestroyQueue _ | .queueDestroyComplete _
  | .serviceLoadCodeObject _ _ | .serviceMigratePage _ | .serviceSetFrameOwner _ | .serviceUnknown _
  | .thermalControlTick _ _ | .partitionEntryWrite _ _ | .partitionHalt _ | .partitionResume _ | .partitionSave _
  | .partitionRestore _ | .partitionSpill _ | .partitionFill _ | .partitionCommandComplete _ | .correctableError _ _
  | .uncorrectableError _ _ | .fatalError _ _ | .errqWrite _ | .msixWindowExpiry _ | .dbgHaltreq _ | .dbgResume _
  | .dbgStep _ | .dbgBksync _ | .bksyncComplete _ | .dbgdatAccess _ _ | .logDwellExpiry _ _ | .logctlWrite _ _
  | .pmselWrite _ _ | .tickEntryWrite _ _ | .mailboxSlotWrite _ _ | .gustPoolWrite _ | .gustProfileWrite _ _
  | .tmctlWrite _ | .timedStreamWrite _ _ | .treeTemplateWrite _ _ | .eventTableRowWrite _ _ _ | .sqcfgWrite _
  | .shedctlWrite _ | .feataccWrite _ | .perstRelease | .bootGo | .bootVerifyComplete _ | .attestRequest
  | .attestComplete | .registerWrite _ _ _ | .requestResponse _ _ | .wrsTimeout _ _ | .barrierArrival _
  | .perstAssert | .sourceLockLoss => .event

/-- Whether a core type has the instructions of a row: not at all, in any mode, or in supervisor mode only (R357). -/
inductive Avail where
  | no | yes | sup
  deriving DecidableEq, Repr

/-- The table of R357. -/
def availability (g : Group) (t : CoreType) : Avail :=
  match g, t with
  | .scalar, _ => .yes
  | .vector, _ => .yes
  | .atomic, _ => .yes
  | .future, .reflex => .no
  | .future, _ => .yes
  | .gangSync, .reasoning => .yes
  | .gangSync, _ => .no
  | .message, _ => .yes
  | .binding, .reasoning => .yes
  | .binding, .reflex => .yes
  | .binding, _ => .no
  | .system, _ => .yes
  | .privileged, _ => .sup
  | .tlb, .reflex => .no
  | .tlb, _ => .sup
  | .mover, .frontEnd => .no
  | .mover, _ => .yes
  | .counter, .frontEnd => .no
  | .counter, _ => .yes
  | .matrix, .reasoning => .yes
  | .matrix, .reflex => .yes
  | .matrix, _ => .no
  | .ring, .reasoning => .yes
  | .ring, _ => .no
  | .mailbox, .reasoning => .yes
  | .mailbox, .reflex => .yes
  | .mailbox, _ => .no
  | .gust, .reflex => .yes
  | .gust, _ => .no
  | .gustQuery, .reflex => .yes
  | .gustQuery, .frontEnd => .yes
  | .gustQuery, _ => .no
  | .post, .reflex => .no
  | .post, _ => .yes
  | .claim, .reasoning => .yes
  | .claim, _ => .no
  | .time, _ => .yes
  | .timer, .frontEnd => .no
  | .timer, _ => .yes
  | .window, .reasoning => .yes
  | .window, .reflex => .yes
  | .window, _ => .no
  | .line, .agent => .yes
  | .line, _ => .no
  | .launch, .frontEnd => .yes
  | .launch, _ => .no
  | .event, _ => .yes

/-- The feature bit that gates a row (R336, R357). -/
def featureOf : Group → Nat
  | .mailbox => 4
  | .gust => 3
  | .gustQuery => 3
  | .post => 5
  | .claim => 5
  | .timer => 7
  | .window => 7
  | .line => 9
  | _ => 0

/-- The ty field is f16, or `vcvt` names f16: feature bit 8 gates the word (R336, R353, R480). -/
def usesF16 : Instr → Bool
  | .vadd _ _ _ _ y _ | .vsub _ _ _ _ y _ | .vmul _ _ _ _ y _ | .vmin _ _ _ _ y _ | .vmax _ _ _ _ y _ | .vabs _ _ _ y
  | .vneg _ _ _ y | .vand _ _ _ _ y | .vor _ _ _ _ y | .vxor _ _ _ _ y | .vandn _ _ _ _ y | .vsll _ _ _ _ y
  | .vsrl _ _ _ _ y | .vsra _ _ _ _ y | .vclamp _ _ _ _ y _ | .vdot _ _ _ _ y _ | .vaddF _ _ _ _ y | .vsubF _ _ _ _ y
  | .vmulF _ _ _ _ y | .vminF _ _ _ _ y | .vmaxF _ _ _ _ y | .vabsF _ _ _ y | .vnegF _ _ _ y | .vfma _ _ _ _ y
  | .vfms _ _ _ _ y | .vclampF _ _ _ _ y | .vdotF _ _ _ _ y | .vcmpEq _ _ _ _ y _ | .vcmpNe _ _ _ _ y _
  | .vcmpLt _ _ _ _ y _ | .vcmpLe _ _ _ _ y _ | .vcmpGt _ _ _ _ y _ | .vcmpGe _ _ _ _ y _ | .vsel _ _ _ _ y
  | .vexp2 _ _ _ y | .vlog2 _ _ _ y | .vrcp _ _ _ y | .vrsqrt _ _ _ y | .vpopc _ _ _ y | .vredsum _ _ _ y _
  | .vredmax _ _ _ y _ | .vredmin _ _ _ y _ | .vargmax _ _ _ y _ | .vscan _ _ _ y | .vperm _ _ _ _ y
  | .vslide _ _ _ _ y | .vtopk _ _ _ _ y _ | .vbcast _ _ _ y | .vmvx _ _ _ y | .vins _ _ _ y | .vmov _ _ _ y
  | .vldg _ _ _ _ y | .vsts _ _ _ _ y => y == 5
  | .vcvt _ _ s _ e => s == 5 || e == 5
  | .add _ _ _ | .sub _ _ _ | .and _ _ _ | .or _ _ _ | .xor _ _ _ | .andn _ _ _ | .sll _ _ _ | .srl _ _ _
  | .sra _ _ _ | .rol _ _ _ | .slt _ _ _ | .sltu _ _ _ | .min _ _ _ | .max _ _ _ | .minu _ _ _ | .maxu _ _ _
  | .mul _ _ _ | .mulh _ _ _ | .mulhu _ _ _ | .div _ _ _ | .divu _ _ _ | .rem _ _ _ | .remu _ _ _ | .clz _ _
  | .ctz _ _ | .popc _ _ | .sextB _ _ | .sextH _ _ | .zextB _ _ | .zextH _ _ | .bfx _ _ _ | .bfi _ _ _ | .addi _ _ _
  | .andi _ _ _ | .ori _ _ _ | .xori _ _ _ | .slti _ _ _ | .sltiu _ _ _ | .lui _ _ | .slli _ _ _ | .srli _ _ _
  | .srai _ _ _ | .addpi _ _ _ | .addp _ _ _ | .subp _ _ _ | .movp _ _ | .beq _ _ _ | .bne _ _ _ | .blt _ _ _
  | .bge _ _ _ | .bltu _ _ _ | .bgeu _ _ _ | .bkany _ _ | .bkall _ _ | .bknone _ _ | .bceos _ _ | .j _ | .jal _
  | .jalr _ _ _ | .jalrFar _ _ _ | .dbnz _ _ | .lb _ _ _ | .lbu _ _ _ | .lh _ _ _ | .lhu _ _ _ | .lw _ _ _
  | .ld _ _ _ | .sb _ _ _ | .sh _ _ _ | .sw _ _ _ | .sd _ _ _ | .vld _ _ _ _ | .vst _ _ _ _ | .pf _ _ _
  | .amoaddW _ _ _ _ _ _ | .amoaddD _ _ _ _ _ _ | .amoandW _ _ _ _ _ _ | .amoandD _ _ _ _ _ _ | .amoorW _ _ _ _ _ _
  | .amoorD _ _ _ _ _ _ | .amoxorW _ _ _ _ _ _ | .amoxorD _ _ _ _ _ _ | .amominW _ _ _ _ _ _ | .amominD _ _ _ _ _ _
  | .amomaxW _ _ _ _ _ _ | .amomaxD _ _ _ _ _ _ | .amominuW _ _ _ _ _ _ | .amominuD _ _ _ _ _ _
  | .amomaxuW _ _ _ _ _ _ | .amomaxuD _ _ _ _ _ _ | .amoswapW _ _ _ _ _ _ | .amoswapD _ _ _ _ _ _
  | .amofadd _ _ _ _ _ _ | .casW _ _ _ _ _ _ | .casD _ _ _ _ _ _ | .lrW _ _ _ _ _ | .lrD _ _ _ _ _ | .scW _ _ _ _ _ _
  | .scD _ _ _ _ _ _ | .fence _ _ _ | .fencei | .barv _ _ _ | .barw _ _ _ | .trig | .waitdep _ | .wrs _ _
  | .fput _ _ _ | .fget _ _ | .freset _ _ | .kmovX _ _ | .kand _ _ _ | .kor _ _ _ | .kxor _ _ _ | .knot _ _
  | .kmovK _ _ | .kpopc _ _ | .kfirst _ _ | .kgen _ _ | .mma _ _ | .mmv _ _ | .mldb _ _ | .mldbS _ _ | .mst _ _
  | .mrd _ _ _ | .mzero _ | .mring _ _ _ | .mvgo _ _ | .mvred _ _ | .mvst _ _ | .mvkill _ | .sbind _ _ _
  | .cbind _ _ _ | .sunbind _ | .cret _ | .ceos _ | .cwait _ _ _ | .cadd _ _ | .cset _ _ | .crd _ _ | .mw _ _
  | .send _ _ _ | .sendw _ _ _ | .exit _ _ | .bind _ _ _ | .unbind _ _ | .yield | .mbopen _ _ | .mbpub _ _ _
  | .mbld _ _ _ | .mbsnap _ _ _ | .mbver _ _ | .tnow _ | .tuntil _ _ _ | .swget _ _ _ | .swadv _ _ _ | .gust _ _
  | .gustrel _ | .gustq _ _ | .qpost _ | .qclaim _ _ | .hacc _ _ | .lpin _ _ | .lunpin _ _ | .lfill _ _ _
  | .ldrop _ _ _ | .lprobe _ _ | .glaunch _ _ | .gabort _ _ _ | .ecall | .ebreak | .eret | .halt | .tinv _ _
  | .csrr _ _ | .csrw _ _ | .csrs _ _ | .csrc _ _ | .ewr _ _ | .erd _ _ | .safe _ _ | .pfxExt _ | .pfxOpt _
  | .illegalEncoding _ | .messageArrival _ | .inboxPortAccept _ | .messageDispatch _ | .creditReturn _
  | .successorSend _ | .unboundHoldExpiry _ | .gangRequestAccept | .placementPass | .gangMemberStart _ _
  | .triggerNotice _ | .l1ResizeComplete _ | .pageWalkComplete _ _ | .translationReplay _ | .translationAbort _
  | .storeBufferPerform _ _ | .hostMemoryAccess _ | .matrixCommandComplete _ | .latchFillComplete _ _
  | .handoffClaim _ | .handoffComplete _ | .moverElement _ _ | .channelBeatArrival _ | .channelCreditReturn _
  | .remoteCaddArrival _ | .squallScan | .tickDelivery _ | .tickStart _ _ | .budgetExpiry _ _ | .budgetKill _ _
  | .mbsnapCopyComplete _ | .gustCodeStart _ | .gustHoldExpiry _ | .gustRelocation _ | .heartbeatSend
  | .heartbeatReceive | .heartbeatWindowExpiry | .fatalErrorMessage | .hsctlTake | .mirrorPublishReceive _
  | .keepRegionMirrorReceive _ | .timeSourceCorrection _ | .streamRecordArrival _ _ | .ingestRecordCommit _
  | .decodeTick _ | .decodeTickLate _ | .tuntilTimerExpiry _ _ | .egressLaunch _ | .serviceStepScheduler _
  | .stepBoundary | .samplingQueuePost _ | .lineMissEvent _ | .lineFillEvent _ | .lineEvictionEvent _
  | .agentBudgetExpiry _ _ | .loaderStart _ | .loaderDescriptorComplete _ | .fgetParkRetry _ _ | .futureWake _ _
  | .queuePacketStart _ _ | .doorbellWrite _ _ | .reconcilePass | .serviceInstallContext _ | .serviceShootdown _
  | .shootdownComplete | .serviceCreateQueue _ | .serviceDestroyQueue _ | .queueDestroyComplete _
  | .serviceLoadCodeObject _ _ | .serviceMigratePage _ | .serviceSetFrameOwner _ | .serviceUnknown _
  | .thermalControlTick _ _ | .partitionEntryWrite _ _ | .partitionHalt _ | .partitionResume _ | .partitionSave _
  | .partitionRestore _ | .partitionSpill _ | .partitionFill _ | .partitionCommandComplete _ | .correctableError _ _
  | .uncorrectableError _ _ | .fatalError _ _ | .errqWrite _ | .msixWindowExpiry _ | .dbgHaltreq _ | .dbgResume _
  | .dbgStep _ | .dbgBksync _ | .bksyncComplete _ | .dbgdatAccess _ _ | .logDwellExpiry _ _ | .logctlWrite _ _
  | .pmselWrite _ _ | .tickEntryWrite _ _ | .mailboxSlotWrite _ _ | .gustPoolWrite _ | .gustProfileWrite _ _
  | .tmctlWrite _ | .timedStreamWrite _ _ | .treeTemplateWrite _ _ | .eventTableRowWrite _ _ _ | .sqcfgWrite _
  | .shedctlWrite _ | .feataccWrite _ | .perstRelease | .bootGo | .bootVerifyComplete _ | .attestRequest
  | .attestComplete | .registerWrite _ _ _ | .requestResponse _ _ | .wrsTimeout _ _ | .barrierArrival _
  | .perstAssert | .sourceLockLoss => false

/-- The scope is `.dom`, which a reflex tile does not have (R15, R397). -/
def usesDom : Instr → Bool
  | .amoaddW _ _ _ c _ _ | .amoaddD _ _ _ c _ _ | .amoandW _ _ _ c _ _ | .amoandD _ _ _ c _ _ | .amoorW _ _ _ c _ _
  | .amoorD _ _ _ c _ _ | .amoxorW _ _ _ c _ _ | .amoxorD _ _ _ c _ _ | .amominW _ _ _ c _ _ | .amominD _ _ _ c _ _
  | .amomaxW _ _ _ c _ _ | .amomaxD _ _ _ c _ _ | .amominuW _ _ _ c _ _ | .amominuD _ _ _ c _ _
  | .amomaxuW _ _ _ c _ _ | .amomaxuD _ _ _ c _ _ | .amoswapW _ _ _ c _ _ | .amoswapD _ _ _ c _ _
  | .amofadd _ _ _ c _ _ | .casW _ _ _ c _ _ | .casD _ _ _ c _ _ | .lrW _ _ c _ _ | .lrD _ _ c _ _ | .scW _ _ _ c _ _
  | .scD _ _ _ c _ _ | .fence _ _ c => c == 1
  | .add _ _ _ | .sub _ _ _ | .and _ _ _ | .or _ _ _ | .xor _ _ _ | .andn _ _ _ | .sll _ _ _ | .srl _ _ _
  | .sra _ _ _ | .rol _ _ _ | .slt _ _ _ | .sltu _ _ _ | .min _ _ _ | .max _ _ _ | .minu _ _ _ | .maxu _ _ _
  | .mul _ _ _ | .mulh _ _ _ | .mulhu _ _ _ | .div _ _ _ | .divu _ _ _ | .rem _ _ _ | .remu _ _ _ | .clz _ _
  | .ctz _ _ | .popc _ _ | .sextB _ _ | .sextH _ _ | .zextB _ _ | .zextH _ _ | .bfx _ _ _ | .bfi _ _ _ | .addi _ _ _
  | .andi _ _ _ | .ori _ _ _ | .xori _ _ _ | .slti _ _ _ | .sltiu _ _ _ | .lui _ _ | .slli _ _ _ | .srli _ _ _
  | .srai _ _ _ | .addpi _ _ _ | .addp _ _ _ | .subp _ _ _ | .movp _ _ | .beq _ _ _ | .bne _ _ _ | .blt _ _ _
  | .bge _ _ _ | .bltu _ _ _ | .bgeu _ _ _ | .bkany _ _ | .bkall _ _ | .bknone _ _ | .bceos _ _ | .j _ | .jal _
  | .jalr _ _ _ | .jalrFar _ _ _ | .dbnz _ _ | .lb _ _ _ | .lbu _ _ _ | .lh _ _ _ | .lhu _ _ _ | .lw _ _ _
  | .ld _ _ _ | .sb _ _ _ | .sh _ _ _ | .sw _ _ _ | .sd _ _ _ | .vld _ _ _ _ | .vst _ _ _ _ | .pf _ _ _ | .fencei
  | .barv _ _ _ | .barw _ _ _ | .trig | .waitdep _ | .wrs _ _ | .fput _ _ _ | .fget _ _ | .freset _ _
  | .vadd _ _ _ _ _ _ | .vsub _ _ _ _ _ _ | .vmul _ _ _ _ _ _ | .vmin _ _ _ _ _ _ | .vmax _ _ _ _ _ _ | .vabs _ _ _ _
  | .vneg _ _ _ _ | .vand _ _ _ _ _ | .vor _ _ _ _ _ | .vxor _ _ _ _ _ | .vandn _ _ _ _ _ | .vsll _ _ _ _ _
  | .vsrl _ _ _ _ _ | .vsra _ _ _ _ _ | .vclamp _ _ _ _ _ _ | .vdot _ _ _ _ _ _ | .vaddF _ _ _ _ _ | .vsubF _ _ _ _ _
  | .vmulF _ _ _ _ _ | .vminF _ _ _ _ _ | .vmaxF _ _ _ _ _ | .vabsF _ _ _ _ | .vnegF _ _ _ _ | .vfma _ _ _ _ _
  | .vfms _ _ _ _ _ | .vclampF _ _ _ _ _ | .vdotF _ _ _ _ _ | .vcmpEq _ _ _ _ _ _ | .vcmpNe _ _ _ _ _ _
  | .vcmpLt _ _ _ _ _ _ | .vcmpLe _ _ _ _ _ _ | .vcmpGt _ _ _ _ _ _ | .vcmpGe _ _ _ _ _ _ | .vsel _ _ _ _ _
  | .kmovX _ _ | .kand _ _ _ | .kor _ _ _ | .kxor _ _ _ | .knot _ _ | .kmovK _ _ | .kpopc _ _ | .kfirst _ _
  | .kgen _ _ | .vcvt _ _ _ _ _ | .vexp2 _ _ _ _ | .vlog2 _ _ _ _ | .vrcp _ _ _ _ | .vrsqrt _ _ _ _ | .vpopc _ _ _ _
  | .vredsum _ _ _ _ _ | .vredmax _ _ _ _ _ | .vredmin _ _ _ _ _ | .vargmax _ _ _ _ _ | .vscan _ _ _ _
  | .vperm _ _ _ _ _ | .vslide _ _ _ _ _ | .vtopk _ _ _ _ _ _ | .vbcast _ _ _ _ | .vmvx _ _ _ _ | .vins _ _ _ _
  | .vmov _ _ _ _ | .vldg _ _ _ _ _ | .vsts _ _ _ _ _ | .mma _ _ | .mmv _ _ | .mldb _ _ | .mldbS _ _ | .mst _ _
  | .mrd _ _ _ | .mzero _ | .mring _ _ _ | .mvgo _ _ | .mvred _ _ | .mvst _ _ | .mvkill _ | .sbind _ _ _
  | .cbind _ _ _ | .sunbind _ | .cret _ | .ceos _ | .cwait _ _ _ | .cadd _ _ | .cset _ _ | .crd _ _ | .mw _ _
  | .send _ _ _ | .sendw _ _ _ | .exit _ _ | .bind _ _ _ | .unbind _ _ | .yield | .mbopen _ _ | .mbpub _ _ _
  | .mbld _ _ _ | .mbsnap _ _ _ | .mbver _ _ | .tnow _ | .tuntil _ _ _ | .swget _ _ _ | .swadv _ _ _ | .gust _ _
  | .gustrel _ | .gustq _ _ | .qpost _ | .qclaim _ _ | .hacc _ _ | .lpin _ _ | .lunpin _ _ | .lfill _ _ _
  | .ldrop _ _ _ | .lprobe _ _ | .glaunch _ _ | .gabort _ _ _ | .ecall | .ebreak | .eret | .halt | .tinv _ _
  | .csrr _ _ | .csrw _ _ | .csrs _ _ | .csrc _ _ | .ewr _ _ | .erd _ _ | .safe _ _ | .pfxExt _ | .pfxOpt _
  | .illegalEncoding _ | .messageArrival _ | .inboxPortAccept _ | .messageDispatch _ | .creditReturn _
  | .successorSend _ | .unboundHoldExpiry _ | .gangRequestAccept | .placementPass | .gangMemberStart _ _
  | .triggerNotice _ | .l1ResizeComplete _ | .pageWalkComplete _ _ | .translationReplay _ | .translationAbort _
  | .storeBufferPerform _ _ | .hostMemoryAccess _ | .matrixCommandComplete _ | .latchFillComplete _ _
  | .handoffClaim _ | .handoffComplete _ | .moverElement _ _ | .channelBeatArrival _ | .channelCreditReturn _
  | .remoteCaddArrival _ | .squallScan | .tickDelivery _ | .tickStart _ _ | .budgetExpiry _ _ | .budgetKill _ _
  | .mbsnapCopyComplete _ | .gustCodeStart _ | .gustHoldExpiry _ | .gustRelocation _ | .heartbeatSend
  | .heartbeatReceive | .heartbeatWindowExpiry | .fatalErrorMessage | .hsctlTake | .mirrorPublishReceive _
  | .keepRegionMirrorReceive _ | .timeSourceCorrection _ | .streamRecordArrival _ _ | .ingestRecordCommit _
  | .decodeTick _ | .decodeTickLate _ | .tuntilTimerExpiry _ _ | .egressLaunch _ | .serviceStepScheduler _
  | .stepBoundary | .samplingQueuePost _ | .lineMissEvent _ | .lineFillEvent _ | .lineEvictionEvent _
  | .agentBudgetExpiry _ _ | .loaderStart _ | .loaderDescriptorComplete _ | .fgetParkRetry _ _ | .futureWake _ _
  | .queuePacketStart _ _ | .doorbellWrite _ _ | .reconcilePass | .serviceInstallContext _ | .serviceShootdown _
  | .shootdownComplete | .serviceCreateQueue _ | .serviceDestroyQueue _ | .queueDestroyComplete _
  | .serviceLoadCodeObject _ _ | .serviceMigratePage _ | .serviceSetFrameOwner _ | .serviceUnknown _
  | .thermalControlTick _ _ | .partitionEntryWrite _ _ | .partitionHalt _ | .partitionResume _ | .partitionSave _
  | .partitionRestore _ | .partitionSpill _ | .partitionFill _ | .partitionCommandComplete _ | .correctableError _ _
  | .uncorrectableError _ _ | .fatalError _ _ | .errqWrite _ | .msixWindowExpiry _ | .dbgHaltreq _ | .dbgResume _
  | .dbgStep _ | .dbgBksync _ | .bksyncComplete _ | .dbgdatAccess _ _ | .logDwellExpiry _ _ | .logctlWrite _ _
  | .pmselWrite _ _ | .tickEntryWrite _ _ | .mailboxSlotWrite _ _ | .gustPoolWrite _ | .gustProfileWrite _ _
  | .tmctlWrite _ | .timedStreamWrite _ _ | .treeTemplateWrite _ _ | .eventTableRowWrite _ _ _ | .sqcfgWrite _
  | .shedctlWrite _ | .feataccWrite _ | .perstRelease | .bootGo | .bootVerifyComplete _ | .attestRequest
  | .attestComplete | .registerWrite _ _ _ | .requestResponse _ _ | .wrsTimeout _ _ | .barrierArrival _
  | .perstAssert | .sourceLockLoss => false

/-- The formats an immediate prefix may govern (R73). -/
def takesExt : Instr → Bool
  | .addi _ _ _ | .andi _ _ _ | .ori _ _ _ | .xori _ _ _ | .slti _ _ _ | .sltiu _ _ _ | .addpi _ _ _ | .beq _ _ _
  | .bne _ _ _ | .blt _ _ _ | .bge _ _ _ | .bltu _ _ _ | .bgeu _ _ _ | .bkany _ _ | .bkall _ _ | .bknone _ _
  | .bceos _ _ | .dbnz _ _ | .lb _ _ _ | .lbu _ _ _ | .lh _ _ _ | .lhu _ _ _ | .lw _ _ _ | .ld _ _ _ | .sb _ _ _
  | .sh _ _ _ | .sw _ _ _ | .sd _ _ _ | .vld _ _ _ _ | .vst _ _ _ _ | .pf _ _ _ => true
  | .add _ _ _ | .sub _ _ _ | .and _ _ _ | .or _ _ _ | .xor _ _ _ | .andn _ _ _ | .sll _ _ _ | .srl _ _ _
  | .sra _ _ _ | .rol _ _ _ | .slt _ _ _ | .sltu _ _ _ | .min _ _ _ | .max _ _ _ | .minu _ _ _ | .maxu _ _ _
  | .mul _ _ _ | .mulh _ _ _ | .mulhu _ _ _ | .div _ _ _ | .divu _ _ _ | .rem _ _ _ | .remu _ _ _ | .clz _ _
  | .ctz _ _ | .popc _ _ | .sextB _ _ | .sextH _ _ | .zextB _ _ | .zextH _ _ | .bfx _ _ _ | .bfi _ _ _ | .lui _ _
  | .slli _ _ _ | .srli _ _ _ | .srai _ _ _ | .addp _ _ _ | .subp _ _ _ | .movp _ _ | .j _ | .jal _ | .jalr _ _ _
  | .jalrFar _ _ _ | .amoaddW _ _ _ _ _ _ | .amoaddD _ _ _ _ _ _ | .amoandW _ _ _ _ _ _ | .amoandD _ _ _ _ _ _
  | .amoorW _ _ _ _ _ _ | .amoorD _ _ _ _ _ _ | .amoxorW _ _ _ _ _ _ | .amoxorD _ _ _ _ _ _ | .amominW _ _ _ _ _ _
  | .amominD _ _ _ _ _ _ | .amomaxW _ _ _ _ _ _ | .amomaxD _ _ _ _ _ _ | .amominuW _ _ _ _ _ _
  | .amominuD _ _ _ _ _ _ | .amomaxuW _ _ _ _ _ _ | .amomaxuD _ _ _ _ _ _ | .amoswapW _ _ _ _ _ _
  | .amoswapD _ _ _ _ _ _ | .amofadd _ _ _ _ _ _ | .casW _ _ _ _ _ _ | .casD _ _ _ _ _ _ | .lrW _ _ _ _ _
  | .lrD _ _ _ _ _ | .scW _ _ _ _ _ _ | .scD _ _ _ _ _ _ | .fence _ _ _ | .fencei | .barv _ _ _ | .barw _ _ _ | .trig
  | .waitdep _ | .wrs _ _ | .fput _ _ _ | .fget _ _ | .freset _ _ | .vadd _ _ _ _ _ _ | .vsub _ _ _ _ _ _
  | .vmul _ _ _ _ _ _ | .vmin _ _ _ _ _ _ | .vmax _ _ _ _ _ _ | .vabs _ _ _ _ | .vneg _ _ _ _ | .vand _ _ _ _ _
  | .vor _ _ _ _ _ | .vxor _ _ _ _ _ | .vandn _ _ _ _ _ | .vsll _ _ _ _ _ | .vsrl _ _ _ _ _ | .vsra _ _ _ _ _
  | .vclamp _ _ _ _ _ _ | .vdot _ _ _ _ _ _ | .vaddF _ _ _ _ _ | .vsubF _ _ _ _ _ | .vmulF _ _ _ _ _
  | .vminF _ _ _ _ _ | .vmaxF _ _ _ _ _ | .vabsF _ _ _ _ | .vnegF _ _ _ _ | .vfma _ _ _ _ _ | .vfms _ _ _ _ _
  | .vclampF _ _ _ _ _ | .vdotF _ _ _ _ _ | .vcmpEq _ _ _ _ _ _ | .vcmpNe _ _ _ _ _ _ | .vcmpLt _ _ _ _ _ _
  | .vcmpLe _ _ _ _ _ _ | .vcmpGt _ _ _ _ _ _ | .vcmpGe _ _ _ _ _ _ | .vsel _ _ _ _ _ | .kmovX _ _ | .kand _ _ _
  | .kor _ _ _ | .kxor _ _ _ | .knot _ _ | .kmovK _ _ | .kpopc _ _ | .kfirst _ _ | .kgen _ _ | .vcvt _ _ _ _ _
  | .vexp2 _ _ _ _ | .vlog2 _ _ _ _ | .vrcp _ _ _ _ | .vrsqrt _ _ _ _ | .vpopc _ _ _ _ | .vredsum _ _ _ _ _
  | .vredmax _ _ _ _ _ | .vredmin _ _ _ _ _ | .vargmax _ _ _ _ _ | .vscan _ _ _ _ | .vperm _ _ _ _ _
  | .vslide _ _ _ _ _ | .vtopk _ _ _ _ _ _ | .vbcast _ _ _ _ | .vmvx _ _ _ _ | .vins _ _ _ _ | .vmov _ _ _ _
  | .vldg _ _ _ _ _ | .vsts _ _ _ _ _ | .mma _ _ | .mmv _ _ | .mldb _ _ | .mldbS _ _ | .mst _ _ | .mrd _ _ _
  | .mzero _ | .mring _ _ _ | .mvgo _ _ | .mvred _ _ | .mvst _ _ | .mvkill _ | .sbind _ _ _ | .cbind _ _ _
  | .sunbind _ | .cret _ | .ceos _ | .cwait _ _ _ | .cadd _ _ | .cset _ _ | .crd _ _ | .mw _ _ | .send _ _ _
  | .sendw _ _ _ | .exit _ _ | .bind _ _ _ | .unbind _ _ | .yield | .mbopen _ _ | .mbpub _ _ _ | .mbld _ _ _
  | .mbsnap _ _ _ | .mbver _ _ | .tnow _ | .tuntil _ _ _ | .swget _ _ _ | .swadv _ _ _ | .gust _ _ | .gustrel _
  | .gustq _ _ | .qpost _ | .qclaim _ _ | .hacc _ _ | .lpin _ _ | .lunpin _ _ | .lfill _ _ _ | .ldrop _ _ _
  | .lprobe _ _ | .glaunch _ _ | .gabort _ _ _ | .ecall | .ebreak | .eret | .halt | .tinv _ _ | .csrr _ _ | .csrw _ _
  | .csrs _ _ | .csrc _ _ | .ewr _ _ | .erd _ _ | .safe _ _ | .pfxExt _ | .pfxOpt _ | .illegalEncoding _
  | .messageArrival _ | .inboxPortAccept _ | .messageDispatch _ | .creditReturn _ | .successorSend _
  | .unboundHoldExpiry _ | .gangRequestAccept | .placementPass | .gangMemberStart _ _ | .triggerNotice _
  | .l1ResizeComplete _ | .pageWalkComplete _ _ | .translationReplay _ | .translationAbort _
  | .storeBufferPerform _ _ | .hostMemoryAccess _ | .matrixCommandComplete _ | .latchFillComplete _ _
  | .handoffClaim _ | .handoffComplete _ | .moverElement _ _ | .channelBeatArrival _ | .channelCreditReturn _
  | .remoteCaddArrival _ | .squallScan | .tickDelivery _ | .tickStart _ _ | .budgetExpiry _ _ | .budgetKill _ _
  | .mbsnapCopyComplete _ | .gustCodeStart _ | .gustHoldExpiry _ | .gustRelocation _ | .heartbeatSend
  | .heartbeatReceive | .heartbeatWindowExpiry | .fatalErrorMessage | .hsctlTake | .mirrorPublishReceive _
  | .keepRegionMirrorReceive _ | .timeSourceCorrection _ | .streamRecordArrival _ _ | .ingestRecordCommit _
  | .decodeTick _ | .decodeTickLate _ | .tuntilTimerExpiry _ _ | .egressLaunch _ | .serviceStepScheduler _
  | .stepBoundary | .samplingQueuePost _ | .lineMissEvent _ | .lineFillEvent _ | .lineEvictionEvent _
  | .agentBudgetExpiry _ _ | .loaderStart _ | .loaderDescriptorComplete _ | .fgetParkRetry _ _ | .futureWake _ _
  | .queuePacketStart _ _ | .doorbellWrite _ _ | .reconcilePass | .serviceInstallContext _ | .serviceShootdown _
  | .shootdownComplete | .serviceCreateQueue _ | .serviceDestroyQueue _ | .queueDestroyComplete _
  | .serviceLoadCodeObject _ _ | .serviceMigratePage _ | .serviceSetFrameOwner _ | .serviceUnknown _
  | .thermalControlTick _ _ | .partitionEntryWrite _ _ | .partitionHalt _ | .partitionResume _ | .partitionSave _
  | .partitionRestore _ | .partitionSpill _ | .partitionFill _ | .partitionCommandComplete _ | .correctableError _ _
  | .uncorrectableError _ _ | .fatalError _ _ | .errqWrite _ | .msixWindowExpiry _ | .dbgHaltreq _ | .dbgResume _
  | .dbgStep _ | .dbgBksync _ | .bksyncComplete _ | .dbgdatAccess _ _ | .logDwellExpiry _ _ | .logctlWrite _ _
  | .pmselWrite _ _ | .tickEntryWrite _ _ | .mailboxSlotWrite _ _ | .gustPoolWrite _ | .gustProfileWrite _ _
  | .tmctlWrite _ | .timedStreamWrite _ _ | .treeTemplateWrite _ _ | .eventTableRowWrite _ _ _ | .sqcfgWrite _
  | .shedctlWrite _ | .feataccWrite _ | .perstRelease | .bootGo | .bootVerifyComplete _ | .attestRequest
  | .attestComplete | .registerWrite _ _ _ | .requestResponse _ _ | .wrsTimeout _ _ | .barrierArrival _
  | .perstAssert | .sourceLockLoss => false

/-- The options `vcvt` takes (R482). -/
def cvtOptions (src dst : Elem) : Bool × Bool × Bool :=
  match src, dst with
  | .flt _, _ => (true, true, false)
  | .int _, .flt _ => (true, true, false)
  | .int a, .int b => (false, !(decide (b.lo ≤ a.lo) && decide (a.hi ≤ b.hi)), false)

/-- The options an option prefix may set for an instruction: rounding, saturation, semiring (R74, R75). For `vst` the path
decides further at issue (R487). -/
def optionsOf : Instr → Bool × Bool × Bool
  | .amofadd _ _ _ _ _ _ | .vaddF _ _ _ _ _ | .vsubF _ _ _ _ _ | .vmulF _ _ _ _ _ | .vfma _ _ _ _ _ | .vfms _ _ _ _ _
  | .vdotF _ _ _ _ _ | .vexp2 _ _ _ _ | .vlog2 _ _ _ _ | .vrcp _ _ _ _ | .vrsqrt _ _ _ _ | .mvred _ _ | .mrd _ _ _ => (true, false, false)
  | .vadd _ _ _ _ _ _ | .vsub _ _ _ _ _ _ | .vmul _ _ _ _ _ _ | .vabs _ _ _ _ | .vneg _ _ _ _ | .vdot _ _ _ _ _ _ => (false, true, false)
  | .mvgo _ _ | .mst _ _ | .vst _ _ _ _ => (true, true, false)
  | .mma _ _ => (true, true, true)
  | .mmv _ _ => (true, false, true)
  | .vredsum _ _ _ y _ | .vscan _ _ _ y => (isFloatType y, !isFloatType y, false)
  | .vcvt _ _ s _ e => cvtOptions (elemOfCode s) (elemOfCode e)
  | .add _ _ _ | .sub _ _ _ | .and _ _ _ | .or _ _ _ | .xor _ _ _ | .andn _ _ _ | .sll _ _ _ | .srl _ _ _
  | .sra _ _ _ | .rol _ _ _ | .slt _ _ _ | .sltu _ _ _ | .min _ _ _ | .max _ _ _ | .minu _ _ _ | .maxu _ _ _
  | .mul _ _ _ | .mulh _ _ _ | .mulhu _ _ _ | .div _ _ _ | .divu _ _ _ | .rem _ _ _ | .remu _ _ _ | .clz _ _
  | .ctz _ _ | .popc _ _ | .sextB _ _ | .sextH _ _ | .zextB _ _ | .zextH _ _ | .bfx _ _ _ | .bfi _ _ _ | .addi _ _ _
  | .andi _ _ _ | .ori _ _ _ | .xori _ _ _ | .slti _ _ _ | .sltiu _ _ _ | .lui _ _ | .slli _ _ _ | .srli _ _ _
  | .srai _ _ _ | .addpi _ _ _ | .addp _ _ _ | .subp _ _ _ | .movp _ _ | .beq _ _ _ | .bne _ _ _ | .blt _ _ _
  | .bge _ _ _ | .bltu _ _ _ | .bgeu _ _ _ | .bkany _ _ | .bkall _ _ | .bknone _ _ | .bceos _ _ | .j _ | .jal _
  | .jalr _ _ _ | .jalrFar _ _ _ | .dbnz _ _ | .lb _ _ _ | .lbu _ _ _ | .lh _ _ _ | .lhu _ _ _ | .lw _ _ _
  | .ld _ _ _ | .sb _ _ _ | .sh _ _ _ | .sw _ _ _ | .sd _ _ _ | .vld _ _ _ _ | .pf _ _ _ | .amoaddW _ _ _ _ _ _
  | .amoaddD _ _ _ _ _ _ | .amoandW _ _ _ _ _ _ | .amoandD _ _ _ _ _ _ | .amoorW _ _ _ _ _ _ | .amoorD _ _ _ _ _ _
  | .amoxorW _ _ _ _ _ _ | .amoxorD _ _ _ _ _ _ | .amominW _ _ _ _ _ _ | .amominD _ _ _ _ _ _ | .amomaxW _ _ _ _ _ _
  | .amomaxD _ _ _ _ _ _ | .amominuW _ _ _ _ _ _ | .amominuD _ _ _ _ _ _ | .amomaxuW _ _ _ _ _ _
  | .amomaxuD _ _ _ _ _ _ | .amoswapW _ _ _ _ _ _ | .amoswapD _ _ _ _ _ _ | .casW _ _ _ _ _ _ | .casD _ _ _ _ _ _
  | .lrW _ _ _ _ _ | .lrD _ _ _ _ _ | .scW _ _ _ _ _ _ | .scD _ _ _ _ _ _ | .fence _ _ _ | .fencei | .barv _ _ _
  | .barw _ _ _ | .trig | .waitdep _ | .wrs _ _ | .fput _ _ _ | .fget _ _ | .freset _ _ | .vmin _ _ _ _ _ _
  | .vmax _ _ _ _ _ _ | .vand _ _ _ _ _ | .vor _ _ _ _ _ | .vxor _ _ _ _ _ | .vandn _ _ _ _ _ | .vsll _ _ _ _ _
  | .vsrl _ _ _ _ _ | .vsra _ _ _ _ _ | .vclamp _ _ _ _ _ _ | .vminF _ _ _ _ _ | .vmaxF _ _ _ _ _ | .vabsF _ _ _ _
  | .vnegF _ _ _ _ | .vclampF _ _ _ _ _ | .vcmpEq _ _ _ _ _ _ | .vcmpNe _ _ _ _ _ _ | .vcmpLt _ _ _ _ _ _
  | .vcmpLe _ _ _ _ _ _ | .vcmpGt _ _ _ _ _ _ | .vcmpGe _ _ _ _ _ _ | .vsel _ _ _ _ _ | .kmovX _ _ | .kand _ _ _
  | .kor _ _ _ | .kxor _ _ _ | .knot _ _ | .kmovK _ _ | .kpopc _ _ | .kfirst _ _ | .kgen _ _ | .vpopc _ _ _ _
  | .vredmax _ _ _ _ _ | .vredmin _ _ _ _ _ | .vargmax _ _ _ _ _ | .vperm _ _ _ _ _ | .vslide _ _ _ _ _
  | .vtopk _ _ _ _ _ _ | .vbcast _ _ _ _ | .vmvx _ _ _ _ | .vins _ _ _ _ | .vmov _ _ _ _ | .vldg _ _ _ _ _
  | .vsts _ _ _ _ _ | .mldb _ _ | .mldbS _ _ | .mzero _ | .mring _ _ _ | .mvst _ _ | .mvkill _ | .sbind _ _ _
  | .cbind _ _ _ | .sunbind _ | .cret _ | .ceos _ | .cwait _ _ _ | .cadd _ _ | .cset _ _ | .crd _ _ | .mw _ _
  | .send _ _ _ | .sendw _ _ _ | .exit _ _ | .bind _ _ _ | .unbind _ _ | .yield | .mbopen _ _ | .mbpub _ _ _
  | .mbld _ _ _ | .mbsnap _ _ _ | .mbver _ _ | .tnow _ | .tuntil _ _ _ | .swget _ _ _ | .swadv _ _ _ | .gust _ _
  | .gustrel _ | .gustq _ _ | .qpost _ | .qclaim _ _ | .hacc _ _ | .lpin _ _ | .lunpin _ _ | .lfill _ _ _
  | .ldrop _ _ _ | .lprobe _ _ | .glaunch _ _ | .gabort _ _ _ | .ecall | .ebreak | .eret | .halt | .tinv _ _
  | .csrr _ _ | .csrw _ _ | .csrs _ _ | .csrc _ _ | .ewr _ _ | .erd _ _ | .safe _ _ | .pfxExt _ | .pfxOpt _
  | .illegalEncoding _ | .messageArrival _ | .inboxPortAccept _ | .messageDispatch _ | .creditReturn _
  | .successorSend _ | .unboundHoldExpiry _ | .gangRequestAccept | .placementPass | .gangMemberStart _ _
  | .triggerNotice _ | .l1ResizeComplete _ | .pageWalkComplete _ _ | .translationReplay _ | .translationAbort _
  | .storeBufferPerform _ _ | .hostMemoryAccess _ | .matrixCommandComplete _ | .latchFillComplete _ _
  | .handoffClaim _ | .handoffComplete _ | .moverElement _ _ | .channelBeatArrival _ | .channelCreditReturn _
  | .remoteCaddArrival _ | .squallScan | .tickDelivery _ | .tickStart _ _ | .budgetExpiry _ _ | .budgetKill _ _
  | .mbsnapCopyComplete _ | .gustCodeStart _ | .gustHoldExpiry _ | .gustRelocation _ | .heartbeatSend
  | .heartbeatReceive | .heartbeatWindowExpiry | .fatalErrorMessage | .hsctlTake | .mirrorPublishReceive _
  | .keepRegionMirrorReceive _ | .timeSourceCorrection _ | .streamRecordArrival _ _ | .ingestRecordCommit _
  | .decodeTick _ | .decodeTickLate _ | .tuntilTimerExpiry _ _ | .egressLaunch _ | .serviceStepScheduler _
  | .stepBoundary | .samplingQueuePost _ | .lineMissEvent _ | .lineFillEvent _ | .lineEvictionEvent _
  | .agentBudgetExpiry _ _ | .loaderStart _ | .loaderDescriptorComplete _ | .fgetParkRetry _ _ | .futureWake _ _
  | .queuePacketStart _ _ | .doorbellWrite _ _ | .reconcilePass | .serviceInstallContext _ | .serviceShootdown _
  | .shootdownComplete | .serviceCreateQueue _ | .serviceDestroyQueue _ | .queueDestroyComplete _
  | .serviceLoadCodeObject _ _ | .serviceMigratePage _ | .serviceSetFrameOwner _ | .serviceUnknown _
  | .thermalControlTick _ _ | .partitionEntryWrite _ _ | .partitionHalt _ | .partitionResume _ | .partitionSave _
  | .partitionRestore _ | .partitionSpill _ | .partitionFill _ | .partitionCommandComplete _ | .correctableError _ _
  | .uncorrectableError _ _ | .fatalError _ _ | .errqWrite _ | .msixWindowExpiry _ | .dbgHaltreq _ | .dbgResume _
  | .dbgStep _ | .dbgBksync _ | .bksyncComplete _ | .dbgdatAccess _ _ | .logDwellExpiry _ _ | .logctlWrite _ _
  | .pmselWrite _ _ | .tickEntryWrite _ _ | .mailboxSlotWrite _ _ | .gustPoolWrite _ | .gustProfileWrite _ _
  | .tmctlWrite _ | .timedStreamWrite _ _ | .treeTemplateWrite _ _ | .eventTableRowWrite _ _ _ | .sqcfgWrite _
  | .shedctlWrite _ | .feataccWrite _ | .perstRelease | .bootGo | .bootVerifyComplete _ | .attestRequest
  | .attestComplete | .registerWrite _ _ _ | .requestResponse _ _ | .wrsTimeout _ _ | .barrierArrival _
  | .perstAssert | .sourceLockLoss => (false, false, false)

/-- The instructions that R71 wants a `safe` before whatever their operands; for loads and stores the path decides
(R413, R444). -/
def needsSafe : Instr → Bool
  | .amoaddW _ _ _ _ _ _ | .amoaddD _ _ _ _ _ _ | .amoandW _ _ _ _ _ _ | .amoandD _ _ _ _ _ _ | .amoorW _ _ _ _ _ _
  | .amoorD _ _ _ _ _ _ | .amoxorW _ _ _ _ _ _ | .amoxorD _ _ _ _ _ _ | .amominW _ _ _ _ _ _ | .amominD _ _ _ _ _ _
  | .amomaxW _ _ _ _ _ _ | .amomaxD _ _ _ _ _ _ | .amominuW _ _ _ _ _ _ | .amominuD _ _ _ _ _ _
  | .amomaxuW _ _ _ _ _ _ | .amomaxuD _ _ _ _ _ _ | .amoswapW _ _ _ _ _ _ | .amoswapD _ _ _ _ _ _
  | .amofadd _ _ _ _ _ _ | .casW _ _ _ _ _ _ | .casD _ _ _ _ _ _ | .lrW _ _ _ _ _ | .lrD _ _ _ _ _ | .scW _ _ _ _ _ _
  | .scD _ _ _ _ _ _ | .fence _ _ _ | .fencei | .barw _ _ _ | .waitdep _ | .wrs _ _ | .fput _ _ _ | .fget _ _
  | .freset _ _ | .mma _ _ | .mmv _ _ | .mldb _ _ | .mldbS _ _ | .mst _ _ | .mrd _ _ _ | .mzero _ | .cwait _ _ _
  | .sendw _ _ _ | .qclaim _ _ => true
  | .exit _ t => t != 0
  | .add _ _ _ | .sub _ _ _ | .and _ _ _ | .or _ _ _ | .xor _ _ _ | .andn _ _ _ | .sll _ _ _ | .srl _ _ _
  | .sra _ _ _ | .rol _ _ _ | .slt _ _ _ | .sltu _ _ _ | .min _ _ _ | .max _ _ _ | .minu _ _ _ | .maxu _ _ _
  | .mul _ _ _ | .mulh _ _ _ | .mulhu _ _ _ | .div _ _ _ | .divu _ _ _ | .rem _ _ _ | .remu _ _ _ | .clz _ _
  | .ctz _ _ | .popc _ _ | .sextB _ _ | .sextH _ _ | .zextB _ _ | .zextH _ _ | .bfx _ _ _ | .bfi _ _ _ | .addi _ _ _
  | .andi _ _ _ | .ori _ _ _ | .xori _ _ _ | .slti _ _ _ | .sltiu _ _ _ | .lui _ _ | .slli _ _ _ | .srli _ _ _
  | .srai _ _ _ | .addpi _ _ _ | .addp _ _ _ | .subp _ _ _ | .movp _ _ | .beq _ _ _ | .bne _ _ _ | .blt _ _ _
  | .bge _ _ _ | .bltu _ _ _ | .bgeu _ _ _ | .bkany _ _ | .bkall _ _ | .bknone _ _ | .bceos _ _ | .j _ | .jal _
  | .jalr _ _ _ | .jalrFar _ _ _ | .dbnz _ _ | .lb _ _ _ | .lbu _ _ _ | .lh _ _ _ | .lhu _ _ _ | .lw _ _ _
  | .ld _ _ _ | .sb _ _ _ | .sh _ _ _ | .sw _ _ _ | .sd _ _ _ | .vld _ _ _ _ | .vst _ _ _ _ | .pf _ _ _ | .barv _ _ _
  | .trig | .vadd _ _ _ _ _ _ | .vsub _ _ _ _ _ _ | .vmul _ _ _ _ _ _ | .vmin _ _ _ _ _ _ | .vmax _ _ _ _ _ _
  | .vabs _ _ _ _ | .vneg _ _ _ _ | .vand _ _ _ _ _ | .vor _ _ _ _ _ | .vxor _ _ _ _ _ | .vandn _ _ _ _ _
  | .vsll _ _ _ _ _ | .vsrl _ _ _ _ _ | .vsra _ _ _ _ _ | .vclamp _ _ _ _ _ _ | .vdot _ _ _ _ _ _ | .vaddF _ _ _ _ _
  | .vsubF _ _ _ _ _ | .vmulF _ _ _ _ _ | .vminF _ _ _ _ _ | .vmaxF _ _ _ _ _ | .vabsF _ _ _ _ | .vnegF _ _ _ _
  | .vfma _ _ _ _ _ | .vfms _ _ _ _ _ | .vclampF _ _ _ _ _ | .vdotF _ _ _ _ _ | .vcmpEq _ _ _ _ _ _
  | .vcmpNe _ _ _ _ _ _ | .vcmpLt _ _ _ _ _ _ | .vcmpLe _ _ _ _ _ _ | .vcmpGt _ _ _ _ _ _ | .vcmpGe _ _ _ _ _ _
  | .vsel _ _ _ _ _ | .kmovX _ _ | .kand _ _ _ | .kor _ _ _ | .kxor _ _ _ | .knot _ _ | .kmovK _ _ | .kpopc _ _
  | .kfirst _ _ | .kgen _ _ | .vcvt _ _ _ _ _ | .vexp2 _ _ _ _ | .vlog2 _ _ _ _ | .vrcp _ _ _ _ | .vrsqrt _ _ _ _
  | .vpopc _ _ _ _ | .vredsum _ _ _ _ _ | .vredmax _ _ _ _ _ | .vredmin _ _ _ _ _ | .vargmax _ _ _ _ _
  | .vscan _ _ _ _ | .vperm _ _ _ _ _ | .vslide _ _ _ _ _ | .vtopk _ _ _ _ _ _ | .vbcast _ _ _ _ | .vmvx _ _ _ _
  | .vins _ _ _ _ | .vmov _ _ _ _ | .vldg _ _ _ _ _ | .vsts _ _ _ _ _ | .mring _ _ _ | .mvgo _ _ | .mvred _ _
  | .mvst _ _ | .mvkill _ | .sbind _ _ _ | .cbind _ _ _ | .sunbind _ | .cret _ | .ceos _ | .cadd _ _ | .cset _ _
  | .crd _ _ | .mw _ _ | .send _ _ _ | .bind _ _ _ | .unbind _ _ | .yield | .mbopen _ _ | .mbpub _ _ _ | .mbld _ _ _
  | .mbsnap _ _ _ | .mbver _ _ | .tnow _ | .tuntil _ _ _ | .swget _ _ _ | .swadv _ _ _ | .gust _ _ | .gustrel _
  | .gustq _ _ | .qpost _ | .hacc _ _ | .lpin _ _ | .lunpin _ _ | .lfill _ _ _ | .ldrop _ _ _ | .lprobe _ _
  | .glaunch _ _ | .gabort _ _ _ | .ecall | .ebreak | .eret | .halt | .tinv _ _ | .csrr _ _ | .csrw _ _ | .csrs _ _
  | .csrc _ _ | .ewr _ _ | .erd _ _ | .safe _ _ | .pfxExt _ | .pfxOpt _ | .illegalEncoding _ | .messageArrival _
  | .inboxPortAccept _ | .messageDispatch _ | .creditReturn _ | .successorSend _ | .unboundHoldExpiry _
  | .gangRequestAccept | .placementPass | .gangMemberStart _ _ | .triggerNotice _ | .l1ResizeComplete _
  | .pageWalkComplete _ _ | .translationReplay _ | .translationAbort _ | .storeBufferPerform _ _
  | .hostMemoryAccess _ | .matrixCommandComplete _ | .latchFillComplete _ _ | .handoffClaim _ | .handoffComplete _
  | .moverElement _ _ | .channelBeatArrival _ | .channelCreditReturn _ | .remoteCaddArrival _ | .squallScan
  | .tickDelivery _ | .tickStart _ _ | .budgetExpiry _ _ | .budgetKill _ _ | .mbsnapCopyComplete _ | .gustCodeStart _
  | .gustHoldExpiry _ | .gustRelocation _ | .heartbeatSend | .heartbeatReceive | .heartbeatWindowExpiry
  | .fatalErrorMessage | .hsctlTake | .mirrorPublishReceive _ | .keepRegionMirrorReceive _ | .timeSourceCorrection _
  | .streamRecordArrival _ _ | .ingestRecordCommit _ | .decodeTick _ | .decodeTickLate _ | .tuntilTimerExpiry _ _
  | .egressLaunch _ | .serviceStepScheduler _ | .stepBoundary | .samplingQueuePost _ | .lineMissEvent _
  | .lineFillEvent _ | .lineEvictionEvent _ | .agentBudgetExpiry _ _ | .loaderStart _ | .loaderDescriptorComplete _
  | .fgetParkRetry _ _ | .futureWake _ _ | .queuePacketStart _ _ | .doorbellWrite _ _ | .reconcilePass
  | .serviceInstallContext _ | .serviceShootdown _ | .shootdownComplete | .serviceCreateQueue _
  | .serviceDestroyQueue _ | .queueDestroyComplete _ | .serviceLoadCodeObject _ _ | .serviceMigratePage _
  | .serviceSetFrameOwner _ | .serviceUnknown _ | .thermalControlTick _ _ | .partitionEntryWrite _ _
  | .partitionHalt _ | .partitionResume _ | .partitionSave _ | .partitionRestore _ | .partitionSpill _
  | .partitionFill _ | .partitionCommandComplete _ | .correctableError _ _ | .uncorrectableError _ _
  | .fatalError _ _ | .errqWrite _ | .msixWindowExpiry _ | .dbgHaltreq _ | .dbgResume _ | .dbgStep _ | .dbgBksync _
  | .bksyncComplete _ | .dbgdatAccess _ _ | .logDwellExpiry _ _ | .logctlWrite _ _ | .pmselWrite _ _
  | .tickEntryWrite _ _ | .mailboxSlotWrite _ _ | .gustPoolWrite _ | .gustProfileWrite _ _ | .tmctlWrite _
  | .timedStreamWrite _ _ | .treeTemplateWrite _ _ | .eventTableRowWrite _ _ _ | .sqcfgWrite _ | .shedctlWrite _
  | .feataccWrite _ | .perstRelease | .bootGo | .bootVerifyComplete _ | .attestRequest | .attestComplete
  | .registerWrite _ _ _ | .requestResponse _ _ | .wrsTimeout _ _ | .barrierArrival _ | .perstAssert
  | .sourceLockLoss => false

end Sys2Proof.Machine
end

