-- ==== Sys2Proof/Machine/Ops.lean ====
section
/-! DEFINITION. What the meaning of an instruction answers, taking a trap (R301, R303), fetching (R84, R88), debug stops
(R321, R322), the end of an activation (R394) and the points at which a slot stops (R70). -/

namespace Sys2Proof.Machine

/-- Answer of a step. -/
abbrev Out := Host.Outcome State Fault Refusal

/-! Trap causes (R298). -/
def causeIllegal : Nat := 0x01
def causePriv : Nat := 0x02
def causePath : Nat := 0x03
def causeNodram : Nat := 0x04
def causeRange : Nat := 0x05
def causeDir : Nat := 0x06
def causeAtom : Nat := 0x07
def causeAlign : Nat := 0x08
def causeForeign : Nat := 0x09
def causeXlat : Nat := 0x0A
def causePoison : Nat := 0x0B
def causeMsg : Nat := 0x0C
def causeSafe : Nat := 0x0D
def causeBudget : Nat := 0x0E
def causeMatrix : Nat := 0x0F
def causeMover : Nat := 0x10
def causeMailbox : Nat := 0x11
def causeGust : Nat := 0x12
def causeQueue : Nat := 0x13
def causeEcall : Nat := 0x14
def causeEbreak : Nat := 0x15

/-- What the meaning of an instruction answers: it retires; it retires and jumps; it retires into another run state; it is a
`safe`; it is a prefix; it returns from a trap; it traps with a cause and a value; it blocks for a reason; it waits for a
walk; or it has settled its slot itself, the activation having ended. -/
inductive Res where
  | retire (s : State)
  | jump (pc : Dword) (s : State)
  | leave (r : RunState) (s : State)
  | marked (s : State)
  | pending (w : Word) (s : State)
  | resume (pc : Dword) (s : State)
  | trap (code : Nat) (tval : Dword) (s : State)
  | wait (w : Wait) (s : State)
  | walk (w : Walk) (s : State)
  | done (s : State)

/-! Units of the device that a thread belongs to. -/

/-- The activation of the thread whose turn it is, or a task's blank one. -/
def State.act (s : State) : Activation := s.th.act.getD {}

/-- The thread runs Gust code (R80). -/
def State.isGust (s : State) : Bool := s.act.kind.isGust

/-- The queue whose program a thread runs (R276). -/
def Activation.queueOf (a : Activation) : Option Nat :=
  match a.kind with
  | .queueProgram q => some q
  | _ => none

/-- The event-table row whose handler a thread runs (R265). -/
def Activation.rowOf (a : Activation) : Option Nat :=
  match a.kind with
  | .handler r => some r
  | _ => none

/-- A feature is accepted (R336). -/
def State.feature (s : State) (n : Nat) : Bool := s.boot.featacc.getLsbD n

/-- An event-table row of a slice (R264). -/
def State.row (s : State) (slice r : Nat) : BitVec 128 := FMap.get (FMap.get s.slices slice {}).rows r 0

/-- Write an event-table row. -/
def State.setRow (s : State) (slice r : Nat) (v : BitVec 128) : State :=
  let k := FMap.get s.slices slice {}
  { s with slices := FMap.put s.slices slice { k with rows := FMap.set k.rows r v 0 } }

/-- First byte of a row's window (R264). -/
def rowBase (v : BitVec 128) : Nat := bits v.toNat 56 8 * 1024
/-- Size of a row's window in bytes (R264). -/
def rowSize (v : BitVec 128) : Nat := bits v.toNat 48 8 * 1024

/-! Debug stops (R321, R322). -/

/-- The slots that are STOPPED, as bits (R320). -/
def Core.stoppedBits (k : Core) : Nat :=
  (List.range 4).foldl (fun a n => if (k.thread n).run = .stopped then a + 2 ^ n else a) 0

/-- A prefix that waits for its word is given up: the pair restarts from the prefix (R72, R75). -/
def Thread.rewind (t : Thread) : Thread :=
  if t.pfx.isSome then { t.setPc (t.bank.pc - 4) with pfx := none } else t

/-- A slot stops now (R321). One that a change of `l1cfg` interlocks stays so when it is released before the change ends. A claimer in line resumes at its `safe` (R439), and a `halt` that a step has carried out ends
with the stop (R322, R406). -/
def Thread.stop (t : Thread) (now : Nat) : Thread :=
  let h := t.rewind
  let h := if t.run = .blocked .queueClaim then
      (match t.safePt with | some p => { h.setPc p.1 with sp := true } | none => h)
    else h
  { h with run := .stopped, walk := none, timer := none, wake := none, parked := false, stopWhy := 0, stopDue := false,
           saveKind := 0, locked := t.locked || t.run == .blocked .interlock,
           takenAt := if t.run = .idle && t.shadow.isNone then now else t.takenAt }

/-- What ALLSTOP does to another slot: it stops now, or at its next boundary outside a prefix pair, when its command
completes, or when it is no longer suspended (R321). -/
def Thread.allStop (t : Thread) (now : Nat) : Thread :=
  match t.run with
  | .suspended _ => { t with stopWhy := 6, stopDue := true }
  | .stopped => t
  | .matrix => { t with stopWhy := 6, stopDue := true }
  | .ready => if t.pfx.isSome then { t with stopWhy := 6 } else t.stop now
  | _ => t.stop now

/-- Stop a slot for a reason, and under ALLSTOP the others with it, when it is a break, an `ebreak`, a step or a trap; REASON is that of the last slot to stop (R320, R321). A
wait that a stopped slot had ends. -/
def State.debugStop (s : State) (c n why : Nat) : State :=
  let s := s.modCore c fun k =>
    let k := k.setThread n ((k.thread n).stop s.clock.now)
    let before := k.stoppedBits
    let k := if k.dbg.allstop && decide (2 ≤ why ∧ why ≤ 5) then
        ((List.range 4).filter (· != n)).foldl (fun k m => k.setThread m ((k.thread m).allStop s.clock.now)) k
      else k
    { k with dbg := { k.dbg with reason := BitVec.ofNat 3 (if k.stoppedBits = before then why else 6) } }
  (List.range 4).foldl (fun s m => if (s.thread c m).run = .stopped then s.unpark c m else s) s

/-! Ends of activations outside an `exit` (R266, R277, R303). -/

/-- An agent handler overran or trapped: OVR of its row is raised, and at OVRLIM the row is disabled (R264, R266); a row that
has been given to another address-space id since is left alone. -/
def State.overrun (s : State) (c n r : Nat) : State :=
  let slice := unitIndex c
  let v := (s.row slice r).toNat
  let ovr := min (bits v 80 8 + 1) 255
  let lim := if bits v 88 8 = 0 then 16 else bits v 88 8
  let mine := bits v 96 16 == (((s.thread c n).act.getD {}).asid).toNat
  let v := setBits v 80 8 ovr
  if !mine then s
  else if lim ≤ ovr ∧ !bit v 126 then
    (s.setRow slice r (BitVec.ofNat 128 (setBits v 126 1 1))).threadRecord c n 0x10 2 [(20, 1, r), (21, 1, ovr)]
  else s.setRow slice r (BitVec.ofNat 128 v)

/-- A queue (R278). -/
def State.queueAt (s : State) (q : Nat) : Queue := FMap.get s.queues q {}

/-- Change a queue. -/
def State.modQueue (s : State) (q : Nat) (f : Queue → Queue) : State :=
  { s with queues := FMap.put s.queues q (f (s.queueAt q)) }

/-- The program of a queue's packet ends: one that exits hands its staged launches to placement in order, and RIDX advances
(R277, R284). -/
def State.endProgram (s : State) (t : Thread) (how : EndKind) : State :=
  match t.act.bind Activation.queueOf with
  | some q =>
    let asid := (t.act.getD {}).asid
    let s := if how = EndKind.exit then
        { s with gangPort := s.gangPort ++ t.staged.map fun d => ({ desc := d, asid := asid, queue := some q } : GangRequest) }
      else s
    s.modQueue q fun k => { k with running := false, ridx := if how = EndKind.exit then k.ridx + 1 else k.ridx }
  | none => s

/-- A handler that ends lets go the line that its event held (R265). -/
def State.endLine (s : State) (c : Nat) (t : Thread) : State :=
  match t.act.bind (·.line) with
  | some h => s.letGo (unitIndex c) h.1 h.2
  | none => s

/-- End an activation: its channel ends go, its program ends, then everything R394 lists, and its line; a step or an ALLSTOP that
waited for the slot stops it at this boundary (R321, R322). -/
def State.endThread (s : State) (c n : Nat) (how : EndKind) : State :=
  let t := s.thread c n
  let s := (((s.unlinkSlot c n).endProgram t how).endActivation c n how).endLine c t
  if t.stopWhy ≠ 0 && !(t.act.getD {}).kind.isGust then s.debugStop c n t.stopWhy.toNat else s

/-- A queue faults: its program is killed, its staged launches are discarded and RIDX stays (R277, R279). -/
def State.faultQueue (s : State) (c n q code : Nat) : State :=
  let s := s.threadRecord c n 0x12 2 [(20, 2, q), (22, 1, code), (24, 4, (s.queueAt q).ridx.toNat)]
  let s := s.endThread c n .killed
  s.modQueue q fun k => { k with fcode := code, st := if k.st = .active then .faulted else k.st }

/-- The front-end slot that runs a queue's program (R276). -/
def State.programSlot (s : State) (q : Nat) : Option (Nat × Nat) :=
  (List.range 32).findSome? fun i =>
    let c := 352 + i / 4
    match (s.thread c (i % 4)).act with
    | some a => if a.queueOf = some q then some (c, i % 4) else none
    | none => none

/-- A queue faults outside its program (R281): a running program is killed with it. -/
def State.faultAny (s : State) (q code : Nat) : State :=
  match s.programSlot q with
  | some (c, n) => s.faultQueue c n q code
  | none =>
    let s := s.feRecord 0x12 2 (s.queueAt q).asid.toNat [(20, 2, q), (22, 1, code), (24, 4, (s.queueAt q).ridx.toNat)]
    s.modQueue q fun k => { k with fcode := code, st := if k.st = .active then .faulted else k.st }

/-! Stopping a slot (R70). -/

/-- What a stop is for: the abort of a gang (R285), the end of Gust code (R218), a seizure (R215), a partition HALT (R306)
or thermal parking (R296). -/
inductive StopKind where
  | ended | discarded | seized | halted | parked
  deriving DecidableEq, Repr

/-- The stop that a slot with an activation is asked for. -/
def State.stopWanted (s : State) (c n : Nat) : Option StopKind :=
  let k := s.core c
  let t := k.thread n
  match t.act with
  | none => none
  | some a =>
    if t.abort then some .ended
    else
      match a.kind with
      | .gust p _ =>
        let g := FMap.get s.gusts p {}
        if g.held && decide (g.accepted ≤ a.start) then none else some .discarded
      | _ =>
        if k.gust.isSome && !k.gustOn then some .seized
        else if k.halting then some .halted
        else
          match a.gang.bind fun p => s.gang p.1 with
          | some g => if g.parked then some .parked else none
          | none => none

/-- Suspend a slot where R70 lets it stop: blocked behind a `safe` it goes back to that `safe`, on a bound register it stays
at the instruction, prefix included, and at a `safe` it goes on behind it. A slot blocked while it counts as following a
`safe` though none is recorded, as at the start of an activation, is saved in full; after `eret` the last recorded `safe`
serves (DESIGN CHOICE, log entry 68). A wait on a bound register directly behind a `safe` meets two of R70's cases, and is saved in
full at the instruction (DESIGN CHOICE, log entry 93). -/
def State.suspend (s : State) (c n : Nat) (w : Wait) : State :=
  let t := s.thread c n
  let s := if t.run = .blocked .reservation then s.dropResv c n else s
  let t := match t.run with
    | .blocked .bound => { t.rewind with saveKind := 2 }
    | .blocked _ =>
      match t.safePt with
      | some p => { t.setPc p.1 with pfx := none, saveKind := 1 }
      | none => { t.rewind with saveKind := 2 }
    | .suspended _ => t
    | .stopped => { t with saveKind := 2 }
    | _ => { t with saveKind := 1 }
  let run := match t.run with
    | .suspended .fault => .suspended .fault
    | .stopped => .stopped
    | _ => RunState.suspended w
  (s.unpark c n).setThread c n { t with run := run, walk := none, timer := none, wake := none, parked := false, blockedSince := s.clock.now }

/-- A slot is at a point at which R70 lets it stop; a slot in MATRIX is not, and a READY one only behind a `safe`. -/
def Thread.stoppable (t : Thread) (atSafe : Bool) : Bool :=
  match t.run with
  | .blocked .bound => true
  | .blocked .interlock => false
  | .blocked _ => t.sp
  | .suspended _ => true
  | .stopped => true
  | .ready => atSafe
  | _ => false

/-! Fetch (R68, R84, R88, R299 step 2). -/

/-- The check of a pc by its core type, its mode and the code it runs: the location of the word in the core's own SRAM, a
translated address, or a cause (R84, R88, R264). -/
inductive FetchPlace where
  | at_ (loc : Nat)
  | virt (va : Nat)
  | bad (code : Nat)
  deriving DecidableEq, Repr

/-- Where a thread fetches a word from. -/
def State.fetchPlace (s : State) (c n : Nat) (pc : Dword) : FetchPlace :=
  let t := s.thread c n
  let a := t.act.getD {}
  let p := pc.toNat
  let inside (lo hi : Nat) : FetchPlace :=
    if p < lo ∨ hi ≤ p then .bad causeRange else if p % 4 ≠ 0 then .bad causeAlign else .at_ (sramLoc c p)
  if a.kind.isGust then inside 0x1B0000 0x1F0000
  else
    match coreType c with
    | .reasoning =>
      if bits p 56 8 ≠ 0 then .bad causePath
      else if bits p 48 8 ≠ 0 then .bad causeRange
      else if p % 4 ≠ 0 then .bad causeAlign
      else .virt p
    | .reflex => inside 0 0x2F0000
    | .agent =>
      match a.rowOf with
      | some _ => if t.csr.mode then inside 0 0x20000 else inside a.window.1 (a.window.1 + a.window.2)
      | none => inside 0 0x20000
    | .frontEnd => inside 0 0x80000

/-- A fetched word, a trap, or a walk to wait for. -/
inductive Fetched where
  | word (w : FetchedWord) (s : State)
  | trap (code : Nat) (tval : Dword)
  | walk (w : Walk)

/-- The address of a poisoned granule, given the address and location of an access that touches it (R298). -/
def granuleAddr (a : Dword) (loc g : Nat) : Dword := a + BitVec.ofInt 64 ((g : Int) - loc)

/-- Read `n` bytes of a fetch at a pc: the location, a trap with the address at fault, or a walk. -/
def State.fetchLoc (s : State) (c slot : Nat) (pc : Dword) (n : Nat) : Nat ⊕ (Nat × Dword) ⊕ Walk :=
  let asid := ((s.thread c slot).act.getD {}).asid
  let poison (loc : Nat) : Nat ⊕ (Nat × Dword) ⊕ Walk :=
    match s.poisoned loc (loc + n) with
    | some g => .inr (.inl (causePoison, granuleAddr pc loc g))
    | none => .inl loc
  match s.fetchPlace c slot pc with
  | .bad code => .inr (.inl (code, pc))
  | .at_ loc => poison loc
  | .virt va =>
    match s.translate c asid 0 va .fetch with
    | .hit loc => poison loc
    | .miss w => .inr (.inr w)

/-- The size of a core's SRAM (R84, R88, R258, R275). -/
def sramSize (c : Nat) : Nat :=
  match coreType c with
  | .reasoning => 0x200000
  | .reflex => 0x300000
  | .agent => 0x20000
  | .frontEnd => 0x80000

/-- The byte of the bitmap that holds a word's break bit; words outside the range have none (R325). -/
def State.bitmapByte (s : State) (c pc : Nat) : Option Nat :=
  let d := (s.core c).dbg
  let base := d.bkbase.toNat / 0x1000 * 0x1000
  if pc < base ∨ base + 0x1000 * (d.bkbase.toNat % 0x1000 + 1) ≤ pc then none
  else some (d.bkmap.toNat + (pc - base) / 32)

/-- The break bit that the bitmap holds for the word at an address now; a byte that lies in no memory reads zero (R514), and so
does one beyond the end of the core's own SRAM (DESIGN CHOICE: log entry 89). -/
def State.bitmapBit (s : State) (c pc : Nat) : Bool :=
  match s.bitmapByte c pc with
  | none => false
  | some a =>
    let byte :=
      if coreType c = .reasoning then (if isBacked a then s.readNat (dramLoc a) 1 else 0)
      else if a < sramSize c then s.readNat (sramLoc c a) 1 else 0
    bit byte ((pc - (s.core c).dbg.bkbase.toNat / 0x1000 * 0x1000) / 4 % 8)

/-- The record of a bitmap read that names no memory (R325, R514). -/
def State.bitmapRecord (s : State) (c pc : Nat) : State :=
  match s.bitmapByte c pc with
  | some a => if (coreType c) = CoreType.reasoning ∧ (isBacked a) = false then s.coreUnbacked c a else s
  | none => s

/-- A word is fetched from memory, and its break bit is filled from the bitmap with it (R325). -/
def State.freshWord (s : State) (c pc loc : Nat) : FetchedWord :=
  { word := BitVec.ofNat 32 (s.readNat loc 4), pc := pc, brk := s.bitmapBit c pc }

/-- The words that what a core fetches from holds at most: 32 KiB, which R10 and R16 give the instruction cache of a reasoning
tile; the fetch buffers of the other core types, whose size the spec does not give, hold as many (DESIGN CHOICE: log
entry 67). -/
def cacheWords : Nat := 8192

/-- The word a slot fetches for a pc from a location: one it has fetched since its last `fencei`, else one the instruction cache
or fetch buffer holds, else the stored one, which that then holds too (R125). The spec gives the cache no line size and no
replacement, and the fetch buffers no size: the model keeps single words and drops the oldest (DESIGN CHOICE, log entry 67). -/
def State.fetchWord (s : State) (c slot pc loc : Nat) : FetchedWord × State :=
  match FMap.find (s.thread c slot).fetched loc with
  | some w => (w, s)
  | none =>
    let keep (w : FetchedWord) (s : State) : State :=
      s.modThread c slot fun t => { t with fetched := FMap.put t.fetched loc w }
    match (s.core c).icache.find? (·.1 == loc) with
    | some e => (e.2, keep e.2 s)
    | none =>
      let w := s.freshWord c pc loc
      (w, keep w ((s.bitmapRecord c pc).modCore c fun k => { k with icache := (loc, w) :: k.icache.take (cacheWords - 1) }))

/-- Bytes of an entry header that lie in the page of its first byte (R68). -/
def headerPart (h : Dword) : Nat := min 16 (4096 - h.toNat % 4096)

/-- Where the 16 bytes of an entry header lie, in two parts where a page ends between them; whatever refuses one of them names
the header's address (R68). -/
def State.headerLocs (s : State) (c slot : Nat) (h : Dword) : (Nat × Nat) ⊕ (Nat × Dword) ⊕ Walk :=
  let n := headerPart h
  let shown (r : (Nat × Dword) ⊕ Walk) : (Nat × Nat) ⊕ (Nat × Dword) ⊕ Walk :=
    match r with
    | .inl e => .inr (.inl (e.1, h))
    | .inr w => .inr (.inr { w with shown := some h.toNat })
  match s.fetchLoc c slot h n with
  | .inr r => shown r
  | .inl l =>
    if n = 16 then .inl (l, l)
    else
      match s.fetchLoc c slot (h + BitVec.ofNat 64 n) (16 - n) with
      | .inr r => shown r
      | .inl r => .inl (l, r)

/-- Read the entry header of an activation with the fetch of its first instruction, loading `lmbase`, `lmbaseh` and `lmcnt`
(R68). The checks of the pc stand before those of the header (R84; DEDUCED from R299, log entry 90). -/
def State.fetchHeader (s : State) (c slot : Nat) : State ⊕ (Nat × Dword) ⊕ Walk :=
  let t := s.thread c slot
  match t.act with
  | none => .inl s
  | some a =>
    if a.headerDone || t.bank.pc != a.entry then .inl s
    else
      match s.fetchPlace c slot a.entry with
      | .bad code => .inr (.inl (code, a.entry))
      | _ =>
        let h := a.entry - 16
        let n := headerPart h
        match s.headerLocs c slot h with
        | .inr e => .inr e
        | .inl l =>
          let s := if coreType c = .reasoning then
              (s.touchTlb c a.asid 0 h.toNat .fetch).touchTlb c a.asid 0 (h.toNat + 15) .fetch
            else s
          let v := leNat (s.read l.1 n ++ s.read l.2 (16 - n))
          let csr := { t.csr with lmbase := BitVec.ofNat 64 v, lmcnt := BitVec.ofNat 32 (bits v 64 32) }
          .inl (s.setThread c slot { t with csr := csr, act := some { a with headerDone := true } })

/-- Fetch the word at a thread's pc (R125). -/
def State.fetch (s : State) (c slot : Nat) : Fetched :=
  match s.fetchHeader c slot with
  | .inr (.inl (code, v)) => .trap code v
  | .inr (.inr w) => .walk w
  | .inl s =>
    let pc := (s.thread c slot).bank.pc
    match s.fetchLoc c slot pc 4 with
    | .inr (.inl (code, v)) => .trap code v
    | .inr (.inr w) => .walk w
    | .inl loc =>
      let asid := ((s.thread c slot).act.getD {}).asid
      let s := if coreType c = .reasoning then s.touchTlb c asid 0 pc.toNat .fetch else s
      let r := s.fetchWord c slot pc.toNat loc
      .word r.1 r.2

/-- The fetch at a trap vector itself faults (R301). -/
def State.vectorFaults (s : State) (c slot : Nat) (pc : Dword) : Bool :=
  match s.fetchLoc c slot pc 4 with
  | .inl _ => false
  | .inr (.inl _) => true
  | .inr (.inr w) =>
    match s.walkTable ((s.thread c slot).act.getD {}).asid 0 w.va with
    | .fault _ _ => true
    | .leaf level _ e =>
      let loc := leafLoc 0 level e w.va
      !leafAllows e .fetch || (s.poisoned loc (loc + 4)).isSome

/-! Traps (R301 to R303). -/

/-- The vector of a slot is taken, or the activation ends with a record of kind TRAPLOOP (R301). -/
def State.enterVector (s : State) (c n : Nat) : State :=
  let t := s.thread c n
  let s := s.modThread c n fun t => { t with vectorDue := false }
  if t.csr.tvec = 0 || s.vectorFaults c n t.csr.tvec then
    let s := s.threadRecord c n 0x19 2
      [(20, 1, t.csr.causeCode.toNat), (24, 8, t.csr.epc.toNat), (32, 8, t.csr.tval.toNat)]
    (s.mirrorKeep c n).endThread c n .killed
  else s.modThread c n fun t => { t.setPc t.csr.tvec with run := .ready }

/-- What a trap saves in its slot, and the mode it leaves (R301). -/
def Csrs.trapped (r : Csrs) (epc : Dword) (pfx : Bool) (code : Nat) (tval : Dword) : Csrs :=
  { r with epc := epc, causePfx := pfx, causeCode := BitVec.ofNat 8 code, tval := tval, pmode := r.mode, mode := true }

/-- The first part of a trap (R301): `epc`, `cause`, `tval` and `status` are written and the reservation is lost. -/
def State.saveTrap (s : State) (c n code : Nat) (tval : Dword) : State :=
  let t := s.thread c n
  let epc := if t.pfx.isSome then t.bank.pc - 4 else t.bank.pc
  (s.setThread c n { t with
    csr := t.csr.trapped epc t.pfx.isSome code tval, pfx := none, run := .ready, timer := none, wake := none, parked := false,
    walk := none }).dropResv c n

/-- A trap in a user-mode handler of an agent (R266): OVR is raised and the activation is killed, and firmware takes the trap
at the slot's vector, in supervisor mode, if the slot has one that can be fetched (DEDUCED, log entry 66). That is an activation
of its own: its counters read 0, it has a serial and a start record (R261, R326, R328). The registers of R301 are written
already. -/
def State.handlerTrap (s : State) (c n r : Nat) : State :=
  let v := (s.thread c n).csr
  let why := (s.thread c n).stopWhy
  let s := ((s.overrun c n r).modThread c n fun t => { t with stopWhy := 0, vectorDue := false }).endThread c n .killed
  let t := s.thread c n
  let a : Activation := { kind := .firmware, entry := v.tvec, ctx := s.contextId false 0 }
  let fw := s.setThread c n { t with csr := v, act := some a }
  if v.tvec = 0 ∨ t.run ≠ .idle ∨ fw.vectorFaults c n v.tvec then (if why = 0 then s else s.debugStop c n why.toNat)
  else
    ((s.setThread c n { t with csr := v }).begin c n { t.bank with pc := v.tvec } a 0 0 0 0 false false true).modThread c n
      fun t => { t with stopWhy := why }

/-- The second part of a trap: a queue program faults its queue (R277), a trap in a user-mode handler goes to firmware (R266),
and any other thread takes its vector (R301). -/
def State.settleTrap (s : State) (c n : Nat) : State :=
  let t := s.thread c n
  match (t.act.getD {}).kind with
  | .queueProgram q => s.faultQueue c n q (if t.csr.causeCode.toNat = causeXlat then 5 else 4)
  | .handler r => if t.csr.pmode then s.enterVector c n else s.handlerTrap c n r
  | _ => s.enterVector c n

/-- The trap of a thread other than Gust code: TRAPSTOP stops the slot between its two parts, and a step ends with the trap,
before the first instruction of its handler (R301, R319, R321, R322). -/
def State.vectorTrap (s : State) (c n code : Nat) (tval : Dword) : State :=
  let s := s.saveTrap c n code tval
  if (s.core c).dbg.trapstop then (s.modThread c n fun t => { t with vectorDue := true }).debugStop c n 5
  else
    let why := (s.thread c n).stopWhy
    let s := s.settleTrap c n
    if why ≠ 0 && (s.thread c n).run == .ready then s.debugStop c n why.toNat else s

/-- A synchronous trap of a thread: Gust code ends its member with a record (R303), a queue program that TRAPSTOP does not
stop faults its queue with no register written (R277, R303), and any other thread traps as R301 lays down. -/
def State.takeTrap (s : State) (c n code : Nat) (tval : Dword) : State :=
  let t := s.thread c n
  let epc := if t.pfx.isSome then t.bank.pc - 4 else t.bank.pc
  match (t.act.getD {}).kind with
  | .gust p m =>
    let s := s.threadRecord c n 0x0C 2
      [(20, 1, p), (21, 1, m), (22, 1, code), (24, 8, epc.toNat), (32, 8, tval.toNat)]
    s.endThread c n .killed
  | .queueProgram q =>
    if (s.core c).dbg.trapstop then s.vectorTrap c n code tval
    else s.faultQueue c n q (if code = causeXlat then 5 else 4)
  | _ => s.vectorTrap c n code tval

end Sys2Proof.Machine
end

