-- ==== Sys2Proof/Machine/Csr.lean ====
section
/-! DEFINITION. The CSR map (R62 to R65): numbers, privilege, reads and writes, and the effects of a write
(R85, R86, R388). -/

namespace Sys2Proof.Machine

/-- The code of a wait reason (R57). -/
def Wait.code : Wait → Nat
  | .bound => 1 | .latch => 1 | .unit => 1 | .unitBuf => 1 | .counter => 2 | .future => 3 | .reservation => 4 | .credit => 5 | .memory => 6 | .barrier => 7
  | .dependence => 8 | .queueClaim => 9 | .successors => 10 | .interlock => 11 | .fault => 12 | .preempted => 13
  | .seized => 14

/-- The value of `thst` (R57). -/
def RunState.thst : RunState → Nat
  | .idle => 0
  | .ready => 1
  | .blocked w => 2 + 256 * w.code
  | .matrix => 3
  | .suspended w => 4 + 256 * w.code
  | .stopped => 5

/-- The value of `status` (R64). -/
def Csrs.status (c : Csrs) : Word :=
  BitVec.ofNat 32 ((if c.gustc then 128 else 0) + (if c.gelig then 64 else 0) + (if c.bank then 32 else 0)
    + (if c.pmode then 2 else 0) + (if c.mode then 1 else 0))

/-- The value of `cause` (R65). -/
def Csrs.cause (c : Csrs) : Word := BitVec.ofNat 32 ((if c.causePfx then 2 ^ 31 else 0) + c.causeCode.toNat)

/-- The low half of a 64-bit CSR. -/
def low (v : Dword) : Word := v.extractLsb' 0 32

/-- The high half of a 64-bit CSR. -/
def high (v : Dword) : Word := v.extractLsb' 32 32

/-- A 64-bit CSR with its low half replaced. -/
def setLow (v : Dword) (w : Word) : Dword := high v ++ w

/-- A 64-bit CSR with its high half replaced. -/
def setHigh (v : Dword) (w : Word) : Dword := w ++ low v

/-- A slot CSR but `thst`, by number (R63). -/
def Csrs.get (c : Csrs) (n : Nat) : Option Word :=
  match n with
  | 0x00 => some (c.fflags.setWidth 32)
  | 0x01 => some (c.aflags.setWidth 32)
  | 0x02 => some (c.frm.setWidth 32)
  | 0x03 => some (c.chst.setWidth 32)
  | 0x10 => some c.ltile
  | 0x11 => some c.gsize
  | 0x12 => some c.gname
  | 0x13 => some (c.depst.setWidth 32)
  | 0x14 => some c.ser
  | 0x18 => some (low c.lmbase)
  | 0x19 => some (high c.lmbase)
  | 0x1A => some c.lmcnt
  | 0x20 => some c.status
  | 0x21 => some (low c.epc)
  | 0x22 => some (high c.epc)
  | 0x23 => some c.cause
  | 0x24 => some (low c.tval)
  | 0x25 => some (high c.tval)
  | 0x26 => some (low c.tvec)
  | 0x27 => some (high c.tvec)
  | 0x28 => some c.escr
  | 0x31 => some c.ctxid
  | _ => none

/-- The write of a slot CSR by an instruction; RO registers and reserved bits keep their values (R7, R63 to R65, R301,
R388). -/
def Csrs.put (c : Csrs) (n : Nat) (v : Word) : Csrs :=
  match n with
  | 0x00 => { c with fflags := v.setWidth 4 }
  | 0x01 => { c with aflags := v.setWidth 4 }
  | 0x02 => { c with frm := v.setWidth 2 }
  | 0x03 => { c with chst := c.chst &&& ~~~(v.setWidth 8) }
  | 0x18 => { c with lmbase := setLow c.lmbase v }
  | 0x19 => { c with lmbase := setHigh c.lmbase v }
  | 0x1A => if 4096 < v.toNat then c else { c with lmcnt := v }
  | 0x20 => { c with pmode := v.getLsbD 1, mode := v.getLsbD 0 }
  | 0x21 => { c with epc := setLow c.epc v }
  | 0x22 => { c with epc := setHigh c.epc v }
  | 0x23 => { c with causePfx := v.getLsbD 31, causeCode := v.setWidth 8 }
  | 0x24 => { c with tval := setLow c.tval v }
  | 0x25 => { c with tval := setHigh c.tval v }
  | 0x26 => { c with tvec := setLow c.tvec (v &&& 0xFFFFFFFC) }
  | 0x27 => { c with tvec := setHigh c.tvec v }
  | 0x28 => { c with escr := v }
  | _ => c

/-- A slot CSR as a context area gives it back: every field, RO ones among them (R307). -/
def Csrs.restore (c : Csrs) (n : Nat) (v : Word) : Csrs :=
  match n with
  | 0x03 => { c with chst := v.setWidth 8 }
  | 0x10 => { c with ltile := v }
  | 0x11 => { c with gsize := v }
  | 0x12 => { c with gname := v }
  | 0x13 => { c with depst := v.setWidth 4 }
  | 0x14 => { c with ser := v }
  | 0x20 => { c with gustc := v.getLsbD 7, gelig := v.getLsbD 6, bank := v.getLsbD 5, pmode := v.getLsbD 1, mode := v.getLsbD 0 }
  | 0x31 => { c with ctxid := v }
  | _ => c.put n v

/-- The tile CSRs that R63 lists. -/
def isTileCsr (n : Nat) : Bool :=
  n == 0x40 || n == 0x41 || n == 0x42 || n == 0x43 || n == 0x48 || n == 0x49 || n == 0x4A || n == 0x50 || n == 0x51 || n == 0x61

/-- A CSR number that R63 lists (R62). -/
def isCsr (n : Nat) : Bool := (Csrs.get {} n).isSome || n == 0x30 || isTileCsr n || n == 0x60

/-- A CSR marked S (R62, R63). -/
def csrPriv (n : Nat) : Bool := (decide (0x20 ≤ n) && decide (n ≤ 0x28)) || (decide (0x40 ≤ n) && decide (n ≤ 0x43))

/-- The value of a CSR of a slot (R63). -/
def State.csrRead (s : State) (c n num : Nat) : Word :=
  let k := s.core c
  match num with
  | 0x30 => BitVec.ofNat 32 (k.thread n).run.thst
  | 0x40 => k.slotcls.setWidth 32
  | 0x41 => k.spbase
  | 0x42 => k.spsize
  | 0x43 => k.l1cfg.setWidth 32
  | 0x48 => k.cx.w4sc
  | 0x49 => k.cx.w3sc
  | 0x4A => k.cx.mxsc
  | 0x50 => BitVec.ofNat 32 s.clock.cc
  | 0x51 => BitVec.ofNat 32 (s.clock.cc / 2 ^ 32)
  | 0x60 => BitVec.ofNat 32 s.shed.mclk
  | 0x61 => k.asid.setWidth 32
  | _ => ((k.thread n).csr.get num).getD 0

/-- First offset of the L1 portion for a setting of `l1cfg` (R85). -/
def l1StartOf (size : BitVec 2) : Nat :=
  if size = 0 then 0x1B0000 else if size = 1 then 0x190000 else if size = 2 then 0x170000 else 0x130000

/-- The spill ring lies wholly in scratchpad (R86). -/
def ringFits (base size l1 : Nat) : Bool := decide (base + size ≤ l1)

/-- A new L1 portion leaves the spill ring and every valid keep region alone (R85). -/
def State.l1Fits (s : State) (c : Nat) (new : BitVec 2) : Bool :=
  let k := s.core c
  let l1 := l1StartOf new
  ringFits k.spbase.toNat k.spsize.toNat l1 &&
    k.cx.binds.all fun e => !bindValid e.2 || bindKeepSize e.2 == 0 ||
      decide (64 * (bindKeepOff e.2 + bindKeepSize e.2) ≤ l1)

/-- The end of the scratchpad of a core (R84, R88), for the spill ring. While `l1cfg` changes it is that of the old L1 portion, so a
ring may come to lie in the new one (the spec is silent; DESIGN CHOICE, log entry 95). -/
def State.ringLimit (s : State) (c : Nat) : Nat :=
  match coreType c with
  | .reasoning => l1StartOf (s.core c).l1cfg
  | .reflex => 0x2F0000
  | .agent => 0x20000
  | .frontEnd => 0x80000

/-- A write of `slotcls`: a slot with no activation takes its class at once (R24). -/
def Core.setClasses (k : Core) (v : Byte) (now : Nat) : Core :=
  (List.range 4).foldl (fun k n =>
    let t := k.thread n
    if t.act.isNone then k.setThread n (t.takeClass (bits v.toNat (2 * n) 2) now) else k) { k with slotcls := v }

/-- The write of a CSR of a slot; the answer says that the writer is interlocked until a change of `l1cfg` completes
(R85, R86, R388). -/
def State.csrWrite (s : State) (c n num : Nat) (v : Word) : State × Bool :=
  let k := s.core c
  match num with
  | 0x40 => (s.setCore c (k.setClasses (v.setWidth 8) s.clock.now), false)
  | 0x41 =>
    if v.toNat % 64 = 0 ∧ ringFits v.toNat k.spsize.toNat (s.ringLimit c) ∧ k.pending.isEmpty then
      (s.setCore c { k with spbase := v }, false)
    else (s, false)
  | 0x42 =>
    if v.toNat % 0x1000 = 0 ∧ 0x1000 ≤ v.toNat ∧ v.toNat ≤ 0x10000 ∧ ringFits k.spbase.toNat v.toNat (s.ringLimit c) ∧
        k.pending.isEmpty then
      (s.setCore c { k with spsize := v }, false)
    else (s, false)
  | 0x43 =>
    if coreType c = .reasoning ∧ s.l1Fits c (v.setWidth 2) ∧ k.l1pending.isNone then
      (s.setCore c { k with l1pending := some (v.setWidth 2) }, true)
    else (s, false)
  | 0x48 => (s.setCore c { k with cx := { k.cx with w4sc := v } }, false)
  | 0x49 => (s.setCore c { k with cx := { k.cx with w3sc := v } }, false)
  | 0x4A => (s.setCore c { k with cx := { k.cx with mxsc := v } }, false)
  | _ => (s.modThread c n fun t => { t with csr := t.csr.put num v }, false)

/-! Engine registers (R156, R177, R391, R392). -/

/-- An engine register exists on a core type (R391). -/
def hasEngine (t : CoreType) (n : Nat) : Bool :=
  match t with
  | .reasoning => decide (n < 10) || (decide (16 ≤ n) && decide (n < 48))
  | .reflex => decide (n < 10) || (decide (16 ≤ n) && decide (n < 48))
  | .agent => decide (16 ≤ n) && decide (n < 48)
  | .frontEnd => false

/-- W(N): the bits of an engine register that a write can set (R155, R156, R177). -/
def engineMask (n : Nat) : Nat :=
  match n with
  | 0 => 0x1FFF
  | 1 => 0xFF
  | 2 => 7
  | 3 => 0xFFFFFFFF
  | 4 => 0xFFFFFF
  | 5 => 0xFFFFFFFFFF
  | 6 => 0
  | 7 => 0xFFFFFFFF000F
  | 8 => 0xFFF
  | 9 => 0
  | _ =>
    if n < 16 ∨ 48 ≤ n then 0
    else if n % 8 = 7 then 0x1FFF00000000 + 0xFC000000 + 0xFF07 else 0xFFFFFFFFFFFFFFFF

/-- The code of a latch buffer's state (R156). -/
def BufState.code : BufState → Nat
  | .empty => 0 | .filling => 1 | .full => 2 | .busy => 3

/-- The buffer that became FULL first, among those that are FULL (R159). -/
def Matrix.headFull (x : Matrix) : Option Nat :=
  if x.buf0.st = .full ∧ (x.buf1.st ≠ .full ∨ x.buf0.order < x.buf1.order) then some 0
  else if x.buf1.st = .full then some 1
  else none

/-- HEAD of `mx.lst`: the buffer the next consumer takes; while none is FULL, the one that fills (R156, R159). -/
def Matrix.head (x : Matrix) : Nat :=
  match x.headFull with
  | some b => b
  | none => if x.buf1.st = .filling ∧ x.buf0.st ≠ .filling then 1 else 0

/-- The value of `mx.lst` (R156). -/
def Matrix.lst (x : Matrix) : Nat :=
  x.buf0.st.code + x.buf1.st.code * 4 + x.head * 16 +
    x.held.foldl (fun a e => a + 2 ^ (8 + e.1) + e.2 * 2 ^ (12 + 2 * e.1)) 0

/-- Read an engine register: e5, e6 and e9 are tile-wide (R156). -/
def State.engineRead (s : State) (c slot n : Nat) : Dword :=
  let x := (s.core c).cx.mx
  if n = 5 then x.lat
  else if n = 6 then x.ring
  else if n = 9 then BitVec.ofNat 64 x.lst
  else (s.thread c slot).getE n

/-- A value of `mx.lat` that R157 accepts. -/
def Matrix.latOk (x : Matrix) (v : Nat) : Bool :=
  x.buf0.st == .empty && x.buf1.st == .empty && bits v 0 12 == 0 && decide (bits v 32 8 ≤ 32)

/-- Write an engine register (R157, R392). -/
def State.engineWrite (s : State) (c slot n : Nat) (v : Dword) : State :=
  let msk := BitVec.ofNat 64 (engineMask n)
  let new := (v &&& msk) ||| (s.engineRead c slot n &&& ~~~msk)
  if n = 5 then
    if (s.core c).cx.mx.latOk new.toNat then
      s.modCore c fun k => { k with cx := { k.cx with mx := { k.cx.mx with
        lat := new, latFree := (s.thread c slot).csr.mode || k.gustOn } } }
    else s
  else if n = 6 ∨ n = 9 then s
  else s.modThread c slot (·.setE n new)

end Sys2Proof.Machine
end

