-- ==== Sys2Proof/Machine/Context.lean ====
section
/-! DEFINITION. A tile's context: what a save writes to its context area and a restore reads back (R69, R307, R313), the
start of Gust code on a seized tile and the return of its tenant (R215, R218), and how a stopped slot goes on (R70). -/

namespace Sys2Proof.Machine

/-- The live-map entry of the `safe` a slot stopped at (R67, R68), none when it cannot be read; a table in generic memory is
read as a load of the slot's context, which sets A (R104). -/
def State.liveMap (s : State) (c : Nat) (t : Thread) : State × Option Nat :=
  match t.safePt with
  | none => (s, none)
  | some (_, a) =>
    let asid := (t.act.getD {}).asid
    let hit (s : State) : State × Option Nat :=
      match s.translate c asid 0 a .load with
      | .hit loc => (s.touchTlb c asid 0 a .load, some loc)
      | .miss _ => (s, none)
    let r := match coreType c with
      | .reasoning =>
        if bits a 48 16 ≠ 0 then (s, none)
        else
          match s.translate c asid 0 a .load with
          | .hit _ => hit s
          | .miss w =>
            match s.performWalk c asid w with
            | (s, none) => hit s
            | (s, some _) => (s, none)
      | _ => (s, if bits a 24 32 = 0 then some (sramLoc c (bits a 0 24)) else none)
    match r.2 with
    | some l => (r.1, if (r.1.poisoned l (l + 16)).isSome then none else some (r.1.readNat l 16))
    | none => (r.1, none)

/-- The save word's kind of a slot (R307). -/
def Thread.imageKind (t : Thread) : Nat :=
  match t.act with
  | none => 0
  | some _ =>
    match t.run with
    | .suspended .fault => 3
    | .stopped => 2
    | _ => if t.saveKind = 1 then 1 else 2

/-- The wait code that `thst` reports after the restore of a slot (R307). -/
def Thread.imageWait (t : Thread) : Nat :=
  match t.run with
  | .suspended .fault => 12
  | .suspended .preempted => 13
  | _ => 0

/-- Store the words of a register file at a location; `keep` says which registers are written. -/
def State.storeRegs (s : State) (loc width : Nat) (val : Nat → Nat) (count : Nat) (keep : Nat → Bool) : State :=
  (List.range count).foldl (fun s i => if keep i then s.storeNat (loc + width * i) width (val i) else s) s

/-- Write one register bank's image (R307); k0 reads all ones (R58). -/
def State.storeBank (s : State) (loc : Nat) (b : Bank) (keepX keepV keepK : Nat → Bool) : State :=
  let all : Nat → Bool := fun _ => true
  let s := s.storeRegs loc 4 (fun i => (FMap.get b.x i 0).toNat) 32 keepX
  let s := s.storeRegs (loc + 0x80) 32 (fun i => (FMap.get b.v i 0).toNat) 32 keepV
  let s := s.storeRegs (loc + 0x480) 4 (fun i => if i = 0 then 2 ^ 32 - 1 else (FMap.get b.k i 0).toNat) 8 keepK
  let s := s.storeRegs (loc + 0x4A0) 4 (fun i => (FMap.get b.m i 0).toNat) 8 all
  let s := s.storeNat (loc + 0x4C0) 8 b.pc.toNat
  s.storeRegs (loc + 0x600) 8 (fun i => (FMap.get b.e i 0).toNat) 64 all

/-- A slot's image in the context area (R69, R307). A slot that stopped behind a `safe` whose live map cannot be read is saved
in full (log entry 68). Bit 0 of the map's xmask and kmask is ignored (R68). The pc of a pair that a translation fault stopped is that of its prefix (R112). -/
def State.saveSlot (s : State) (c n : Nat) : State :=
  let t := s.thread c n
  let loc := ctxLoc c (0x800 * n)
  if t.imageKind = 0 then s.storeNat (loc + 0x4D8) 4 0
  else
    let r := if t.imageKind = 1 then s.liveMap c t else (s, none)
    let live := r.2
    let kind := if t.imageKind = 1 ∧ live.isNone then 2 else t.imageKind
    let marked (lo i : Nat) : Bool := match live with | some e => (i != 0 || lo == 32) && bit e (lo + i) | none => true
    let s := r.1.storeBank loc t.bank (marked 0) (marked 32) (marked 64)
    let s := s.storeRegs (loc + 0x600) 8 (fun i => (s.engineRead c n i).toNat) 10 (fun i => i == 5 || i == 6 || i == 9)
    let s := match live with | some e => s.storeNat (loc + 0x4C8) 16 e | none => s
    let s := s.storeNat (loc + 0x4D8) 4 (kind + 256 * t.imageWait)
    let s := s.storeRegs (loc + 0x500) 4 (fun i => (s.csrRead c n i).toNat) 0x40 (fun i => isCsr i)
    if coreType c = .reflex then
      s.storeBank (ctxLoc c (0x2000 + 0x800 * n)) t.other (fun _ => true) (fun _ => true) (fun _ => true)
    else s.storeNat (ctxLoc c (0x2000 + 0x800 * n)) 0x800 0

/-! The tile's part of the area (R307). The spec names what each piece holds; where it does not lay the piece out, the layout
is the model's (DESIGN CHOICE, log entry 8), and a restore takes the piece from the context itself. -/

/-- The size of an accumulator bank in words (R307). -/
def bankWords (c : Nat) : Nat := if coreType c = .reflex then 512 else 2048

/-- The key of the accumulator that a word of a bank's image holds, row by row (R168, R307). -/
def bankKey (c b i : Nat) : Nat :=
  if coreType c = .reflex then 4096 * b + 64 * (i / 32) + i % 32 else 4096 * b + i

/-- The image of a timer. -/
def Timer.image (t : Timer) : Nat := t.at_ % 2 ^ 64 + t.ctr * 2 ^ 64 + 2 ^ 127

/-- The code of STATE of a channel (R176). -/
def MoverState.image : MoverState → Nat
  | .idle => 0 | .running => 1 | .halted => 2 | .stopped => 3

/-- The bits of `mv.ctl` that are not reserved, without gaps (R177). -/
def ctlImage (c : Nat) : Nat := bits c 0 3 + bits c 8 8 * 2 ^ 3 + bits c 26 19 * 2 ^ 11

/-- The image of a mover channel: eight words each for the running and the queued command, whose last holds the bits of `mv.ctl`
with the progress, STATE and ERR above them. -/
def Mover.image (v : Mover) : Nat :=
  let word (m : Option MoverCmd) (i : Nat) : Nat := ((m.bind fun m => m.desc[i]?).getD 0).toNat
  let regs (m : Option MoverCmd) : Nat :=
    (List.range 7).foldl (fun a i => a + word m i * 2 ^ (64 * i)) (ctlImage (word m 7) * 2 ^ 448)
  regs v.run + regs v.queued * 2 ^ 512 + ((v.run.map (·.idx)).getD 0) % 2 ^ 32 * 2 ^ 480 +
    (v.st.image * 2 ^ 32 + v.err % 256 * 2 ^ 40 + v.done % 256 * 2 ^ 48) * 2 ^ 960

/-- The image of a binding of a bound register: its slot, kind, buffers read, credits, entries, loose bytes and flags. -/
def Bound.image (b : Bound) : Nat :=
  let kind := match b.kind with
    | .readStream ch => 1 + 16 * ch
    | .writeStream ch => 2 + 16 * ch
    | .chanIn _ port bufs => 3 + 16 * port + 256 * bufs
    | .chanOut _ port => 4 + 16 * port
  b.slot % 256 + kind * 2 ^ 8 + b.readBufs * 2 ^ 32 + b.credits * 2 ^ 40 + b.fifo.length * 2 ^ 48 + b.part.length * 2 ^ 56
    + (if b.linked then 2 ^ 96 else 0) + (if b.finished then 2 ^ 97 else 0) + (if b.filling then 2 ^ 98 else 0)

/-- The image of the matrix engine's tile state: e5, e6, e9, and the progress of each fill and hand-off. -/
def Matrix.image (x : Matrix) : Nat :=
  let fill (f : Fill) : Nat := f.buf + f.slot * 2 ^ 8 + f.total * 2 ^ 32 + f.got * 2 ^ 64
  let hand (h : Handoff) : Nat := h.buf + h.succ * 2 ^ 8 + h.bytes * 2 ^ 32
  x.lat.toNat + x.ring.toNat * 2 ^ 64 + x.lst * 2 ^ 128 +
    (List.range 2).foldl (fun a i => a + ((x.fills[i]?.map fill).getD 0) * 2 ^ (256 + 128 * i)
      + ((x.hands[i]?.map hand).getD 0) * 2 ^ (512 + 128 * i)) 0

/-- A held message's image: its bytes and the time it was held (R50, R307). -/
def holdImage (m : Message) : Nat := m.nat + m.heldAt % 2 ^ 64 * 2 ^ 320

/-- Write the engines' part of a tile's area: timers, channels, the bindings of every slot, 16 bytes each, with as many entries of
their FIFOs as the area has room for, the lowest slot's first (log entry 8), the matrix engine, the queue
pointers, the unbound hold and the held accumulator banks (R168, R173, R193, R307). -/
def State.saveEngines (s : State) (c : Nat) : State :=
  let k := s.core c
  let x := k.cx
  let bound (i n : Nat) : Option Bound := x.bounds.find? fun b => b.reg == 24 + i && b.slot == n
  let entries (i : Nat) : List (Option Vec) := (List.range 4).flatMap fun n => ((bound i n).map (·.fifo)).getD []
  let s := s.storeRegs (ctxLoc c 0x4600) 16 (fun i => (x.timers[i]?.map Timer.image).getD 0) 8 (fun _ => true)
  let s := s.storeRegs (ctxLoc c 0x4700) 128 (fun i => (FMap.get x.movers i {}).image) 4 (fun _ => true)
  let s := s.storeRegs (ctxLoc c 0x4900) 16 (fun i => ((bound (i / 4) (i % 4)).map Bound.image).getD 0) 32 (fun _ => true)
  let s := s.storeNat (ctxLoc c 0x4B00) 256 x.mx.image
  let s := s.storeNat (ctxLoc c 0x4C00) 256 (k.spbase.toNat + k.pending.length * 2 ^ 32 + k.overflow.length * 2 ^ 64
    + k.overMax * 2 ^ 96 + k.hold.length * 2 ^ 128)
  let entry (i : Nat) : Nat := ((((entries (i / 4))[i % 4]?).getD none).map BitVec.toNat).getD 0
  let s := s.storeRegs (ctxLoc c 0x5000) 32 entry 32 (fun _ => true)
  let s := s.storeRegs (ctxLoc c 0x5400) 48 (fun i => (k.hold[i]?.map holdImage).getD 0) 64 (fun _ => true)
  x.mx.held.foldl (fun s e => s.storeRegs (ctxLoc c (0x8000 + 4 * bankWords c * e.1)) 4
    (fun i => (FMap.get x.mx.acc (bankKey c e.1 i) 0).toNat) (bankWords c) (fun _ => true)) s

/-- Save the context of a tile: its area is written, reservations of its slots end, and the tile's context is away
(R129, R307). -/
def State.saveTile (s : State) (c : Nat) : State :=
  let s := (List.range 4).foldl (fun s n => (s.saveSlot c n).dropResv c n) s
  let k := s.core c
  let s := s.storeRegs (ctxLoc c 0x4000) 4 (fun i => (FMap.get k.cx.ctr i 0).toNat) 64 (fun _ => true)
  let s := s.storeRegs (ctxLoc c 0x4100) 16 (fun i => (FMap.get k.cx.binds i 0).toNat) 64 (fun _ => true)
  let s := s.storeRegs (ctxLoc c 0x4500) 4 (fun i => (s.csrRead c 0 (0x40 + i)).toNat) 0x40 (fun i => isTileCsr (0x40 + i))
  let bar (i : Nat) : TileBar := FMap.get k.cx.bars i {}
  let s := s.storeRegs (ctxLoc c 0x4D00) 16 (fun i => (bar i).phase % 2 ^ 32 + (bar i).arrived * 2 ^ 32 + (bar i).need * 2 ^ 64)
    4 (fun _ => true)
  (s.saveEngines c).modCore c fun k => { k with saved := some { k.cx with
    mx := { k.cx.mx with
      acc := k.cx.mx.acc.filter fun e => (FMap.find k.cx.mx.held (e.1 / 4096)).isSome
      ints := k.cx.mx.ints &&& BitVec.ofNat 4 (k.cx.mx.held.foldl (fun a e => a + 2 ^ e.1) 0) } } }

/-- Read a register file back: the registers that were written, every other one zero (R69). -/
def State.loadRegs {w : Nat} (s : State) (loc count : Nat) (keep : Nat → Bool) : FMap (BitVec w) :=
  (List.range count).foldl (fun m i =>
    if keep i then FMap.set m i (BitVec.ofNat w (s.readNat (loc + w / 8 * i) (w / 8))) 0 else m) []

/-- Read one register bank's image back (R307); the reserved bits of engine registers stay zero (R2, R392). -/
def State.loadBank (s : State) (loc : Nat) (keepX keepV keepK : Nat → Bool) : Bank :=
  let e : FMap Dword := s.loadRegs (loc + 0x600) 64 fun i => i != 5 && i != 6 && i != 9
  { x := s.loadRegs loc 32 fun i => keepX i && i != 0
    v := s.loadRegs (loc + 0x80) 32 keepV
    k := s.loadRegs (loc + 0x480) 8 fun i => keepK i && i != 0
    m := s.loadRegs (loc + 0x4A0) 8 fun _ => true
    e := e.foldl (fun m r => FMap.set m r.1 (r.2 &&& BitVec.ofNat 64 (engineMask r.1)) 0) []
    pc := BitVec.ofNat 64 (s.readNat (loc + 0x4C0) 8) }

/-- The slot a context area gives back: the registers and CSRs of its image, those that its live-map copy does not mark
reading zero, with the issue state of R441 as after every restore, beside what the image does not hold. -/
def State.loadSlot (s : State) (c n : Nat) (t : Thread) : Thread :=
  if t.act.isNone then t
  else
    let loc := ctxLoc c (0x800 * n)
    let partly := s.readNat (loc + 0x4D8) 4 % 16 == 1
    let e := s.readNat (loc + 0x4C8) 16
    let marked (lo i : Nat) : Bool := if partly then bit e (lo + i) else true
    let csr := (List.range 0x40).foldl (fun (r : Csrs) i =>
      if isCsr i && i != 0x30 then r.restore i (BitVec.ofNat 32 (s.readNat (loc + 0x500 + 4 * i) 4)) else r) t.csr
    { t with
      bank := s.loadBank loc (marked 0) (marked 32) (marked 64)
      other := if coreType c = .reflex then
          s.loadBank (ctxLoc c (0x2000 + 0x800 * n)) (fun _ => true) (fun _ => true) (fun _ => true)
        else t.other
      csr := csr, pfx := none, sp := true, ic := 0, lc := 0, fetched := [] }

/-- The first poisoned granule of a slot's image, on a reflex tile of either bank's, as an offset in the core's own SRAM
(R313). -/
def State.slotPoison (s : State) (c n : Nat) : Option Nat :=
  let at_ (o : Nat) : Option Nat := (s.poisoned (ctxLoc c o) (ctxLoc c (o + 0x800))).map (· - sramLoc c 0)
  at_ (0x800 * n) <|> if coreType c = .reflex then at_ (0x2000 + 0x800 * n) else none

/-- The first poisoned granule of a tile's state from offset 0x4000 up to the firmware's part, or in its banks (R313). -/
def State.tilePoison (s : State) (c : Nat) : Option Nat :=
  (s.poisoned (ctxLoc c 0x4000) (ctxLoc c 0x6000)).map (· - ctxLoc c 0) <|>
    (s.poisoned (ctxLoc c 0x8000) (ctxLoc c 0x10000)).map (· - ctxLoc c 0)

/-- The tile barriers that a context area gives back (R307, R377). -/
def State.loadBars (s : State) (c : Nat) : FMap TileBar :=
  (List.range 4).foldl (fun m i =>
    let v := s.readNat (ctxLoc c (0x4D00 + 16 * i)) 16
    FMap.put m i { phase := bits v 0 32, arrived := bits v 32 32, need := bits v 64 32 }) []

/-- The accumulators of the held banks that a context area gives back (R168, R307). -/
def State.loadBanks (s : State) (c : Nat) (held : FMap Nat) : FMap Word :=
  held.foldl (fun m e => (List.range (bankWords c)).foldl (fun m i =>
    FMap.set m (bankKey c e.1 i) (BitVec.ofNat 32 (s.readNat (ctxLoc c (0x8000 + 4 * bankWords c * e.1 + 4 * i)) 4)) 0) m) []

/-- Load the context of a tile back from its area; a slot whose image is poisoned loses its activation (R307, R313). -/
def State.loadTile (s : State) (c : Nat) : State :=
  match (s.core c).saved with
  | none => s
  | some i =>
    let threads := i.threads.map fun e => (e.1, s.loadSlot c e.1 e.2)
    let word (n : Nat) : Word := BitVec.ofNat 32 (s.readNat (ctxLoc c (0x4500 + 4 * (n - 0x40))) 4)
    let ctr : FMap Word := s.loadRegs (ctxLoc c 0x4000) 64 fun _ => true
    let binds : FMap (BitVec 128) := s.loadRegs (ctxLoc c 0x4100) 64 fun _ => true
    let s := s.modCore c fun k => { k with
      saved := none
      slotcls := (word 0x40).setWidth 8
      spbase := word 0x41
      spsize := word 0x42
      cx := { i with
        threads := threads
        ctr := ctr
        binds := binds
        bars := s.loadBars c
        w4sc := (word 0x48)
        w3sc := (word 0x49)
        mxsc := (word 0x4A)
        mx := { i.mx with acc := s.loadBanks c i.mx.held } } }
    let s := s.modCore c fun k => k.setClasses k.slotcls s.clock.now
    (List.range 4).foldl (fun s n =>
      match s.slotPoison c n with
      | some off =>
        if (s.thread c n).imageKind = 0 then s
        else ((s.threadRecord c n 0x17 2 [(24, 8, off)]).mirrorKeep c n).endThread c n .killed
      | none => s) s

/-! How a stopped slot goes on. -/

/-- Take the front end's answer to a translation fault on a slot whose tile is here: on a replay the instruction executes
again, from its prefix on; on an abort it traps, as governed by its prefix if it had one (R72, R82, R110, R112). -/
def State.settleFault (s : State) (c n : Nat) : State :=
  let t := s.thread c n
  let k := s.core c
  if t.run ≠ .suspended .fault ∨ k.halting ∨ k.gust.isSome then s
  else
    match t.answer, t.fault with
    | .replay, _ =>
      s.setThread c n { t with run := .ready, fault := none, answer := .waiting, walk := none, faultPfx := false }
    | .abort, some w =>
      let u := { t with run := .ready, fault := none, answer := .waiting, walk := none, faultPfx := false }
      let s := s.setThread c n (if t.faultPfx then { u.setPc (u.bank.pc + 4) with pfx := some 0 } else u)
      s.takeTrap c n causeXlat (BitVec.ofNat 64 w.addr)
    | _, _ => s

/-- A suspended slot goes on, unless something still holds it: a HALT, parking, an abort, or its own `halt`, which only a
RESUME ends (`full`) (R70, R296, R305, R406). -/
def State.goOn (s : State) (c n : Nat) (full : Bool) : State :=
  let k := s.core c
  let t := k.thread n
  match t.run with
  | .suspended .fault => s.settleFault c n
  | .suspended _ =>
    if k.gust.isSome then s
    else if k.halting || (t.saveKind = 9 && !full) then s.setThread c n { t with run := .suspended .preempted }
    else
      let kind := if t.saveKind = 1 then 1 else 2
      let t := { t with run := .ready, saveKind := 0, parked := false }
      match (s.setThread c n t).stopWanted c n with
      | some .ended => (s.setThread c n t).endThread c n .killed
      | some .parked => s.setThread c n { t with run := .suspended .preempted, saveKind := kind }
      | _ => s.setThread c n t
  | .idle =>
    if k.dbg.haltreq then
      (s.setThread c n (t.stop s.clock.now)).modCore c fun k => { k with dbg := { k.dbg with reason := 1 } }
    else s
  | _ => s

/-- Every slot of a core goes on. -/
def State.goOnAll (s : State) (c : Nat) (full : Bool) : State :=
  (List.range 4).foldl (fun s n => s.goOn c n full) s

/-! Gust on a tile (R215, R218). -/

/-- Every slot of a tile has stopped, its stores have drained and its matrix unit is at rest (R70, R215, R306). -/
def Core.quiet (k : Core) : Bool :=
  k.cx.mx.running.isNone &&
    k.cx.threads.all fun e =>
      e.2.sbuf.isEmpty &&
        (match e.2.run with
          | .idle => true
          | .suspended _ => true
          | .stopped => true
          | _ => false)

/-- Start Gust code on a seized tile: the tenant's context goes to its area unless it is there already, and slot 0 starts
with the registers of R215. -/
def State.startGust (s : State) (c p m : Nat) : State :=
  let g := FMap.get s.gusts p {}
  let here := (s.core c).saved.isNone
  let s := if here then s.saveTile c else s
  let s := s.modCore c fun k => { k with
    gustOn := true
    gustSaved := here
    gustUsed := []
    cx := { k.cx with
      threads := k.cx.threads.map fun e => (e.1, { csr := e.2.csr })
      ctr := [], binds := [], clearing := [], mx := { acc := k.cx.mx.acc }, movers := [], bounds := [],
      timers := [], bars := [], creditsUsed := [] } }
  let entry := BitVec.ofNat 64 (0x1B0000 + bits g.reg.toNat 0 18)
  let htile := bits g.reg.toNat 110 5
  let asid := (FMap.get s.parts 0 {}).asid
  let a : Activation :=
    { kind := .gust p m, bind := p, entry := entry, asid := asid, ctx := s.contextId true asid, headerDone := false }
  let b := startBank (infoWord false false false (unitIndex c) 0 p) (BitVec.ofNat 32 (htile * 2 ^ 24 + 5 * 2 ^ 21))
    g.payload 0 entry
  let s := s.begin c 0 b a (BitVec.ofNat 32 m) (BitVec.ofNat 32 g.tiles.length) 0 0 true true false
  { s with gusts := FMap.put s.gusts p { g with started := g.started ++ [m] } }

/-- The profile whose seizure is to have a tile. -/
def State.seizedBy (s : State) (c : Nat) : Option Nat :=
  (s.gusts.find? fun e => e.2.held && e.2.tiles.contains c).map (·.1)

/-- The successors of a tile's Gust code that have not left when its seizure ends, of which R29 and R218 say nothing, leave at
once and with no credit, since the pool they would take one from is discarded (DESIGN CHOICE: log entry 88). -/
def State.sendGustSuccessors (s : State) (c : Nat) : State :=
  (s.core c).succQ.foldl (fun s e => match e with
    | .message dst m =>
      if m.srcKind = 5 then
        let s := s.pm c 0x0A 1
        { s with flight := { s.flight with messages := s.flight.messages ++ [(dst, m)] } }
      else s
    | .gang _ _ => s) (s.modCore c fun k => { k with succQ := k.succQ.filter (!·.isGust) })

/-- The pool of a tile's Gust code ends with the code: credits on their way to it, and those that its messages still hold, are
dropped (R29). -/
def State.dropGustCredits (s : State) (c : Nat) : State :=
  let m (e : Message) : Message := if e.srcKind = 5 ∧ e.credit.any (fun p => p.1 == c) then { e with credit := none } else e
  { s with
    flight := { s.flight with
      credits := s.flight.credits.filter fun e => !(e.1 == c && e.2.2)
      messages := s.flight.messages.map fun e => (e.1, m e.2) }
    queuePort := s.queuePort.map m
    cores := s.cores.map fun e => if e.2.inbox.any (fun i => i.srcKind == 5) then (e.1, { e.2 with inbox := e.2.inbox.map m }) else e }

/-- The tenant of a seized tile comes back: its context is loaded, and its threads go on, unless a new seizure waits for
the tile (R215, R218). -/
def State.returnTenant (s : State) (c : Nat) : State :=
  let k := s.core c
  let s := if k.gustSaved then s.loadTile c
    else if k.gustOn then s.modCore c fun k => ({ k with cx := { mx := { acc := k.cx.mx.acc } } } : Core).setClasses k.slotcls s.clock.now
    else s
  let next := s.seizedBy c
  let s := (s.sendGustSuccessors c).dropGustCredits c
  let s := s.modCore c fun k => { k with gust := next, gustOn := false, gustSaved := false, gustUsed := [] }
  s.goOnAll c false

/-- Gust code has ended on a tile whose seizure has ended too: the tenant comes back (R218). -/
def State.gustOver (s : State) (c : Nat) : State :=
  let k := s.core c
  match k.gust with
  | some p =>
    let g := FMap.get s.gusts p {}
    if k.gustOn && k.cx.threads.all (fun e => e.2.act.isNone) && !(g.held && g.started.contains (g.tiles.idxOf c)) then
      s.returnTenant c
    else s
  | none => s

/-- The end of Gust code that a release cuts short: its state is discarded and nothing counts it (R218). -/
def State.discardGust (s : State) (c n : Nat) : State :=
  let s := s.logActivation c n true true
  let s := s.unlinkSlot c n
  let s := (s.dropResv c n).dropClaims c n
  ((s.modThread c n fun t => { t with run := .idle, act := none }).unpark c n).returnTenant c

/-- Stop a slot for a reason, at a point where R70 lets it. -/
def State.stopAs (s : State) (c n : Nat) : StopKind → State
  | .ended => s.endThread c n .killed
  | .discarded => s.discardGust c n
  | .seized => s.suspend c n .seized
  | .halted => s.suspend c n .preempted
  | .parked => s.suspend c n .preempted

/-- The slot may have reached a point at which it must stop (R70). -/
def State.stopPoint (s : State) (c n : Nat) (atSafe : Bool) : State :=
  match s.stopWanted c n with
  | none => s
  | some k => if (s.thread c n).stoppable atSafe then s.stopAs c n k else s

/-- Ask every slot of a core to stop: those that stand at a point of R70 stop at once. -/
def State.askStop (s : State) (c : Nat) : State :=
  (List.range 4).foldl (fun s n => s.stopPoint c n false) s

end Sys2Proof.Machine
end

