-- ==== Sys2Proof/Machine/Issue.lean ====
section
/-! DEFINITION. Issuing an instruction: the checks of R299 before it, and how it retires, waits or traps. -/

namespace Sys2Proof.Machine

/-! How an instruction leaves the issue slot. -/

/-- An instruction retires: pc moves on, the prefix is spent, and the issue state of R441 follows. -/
def Thread.retire (t : Thread) (pc : Dword) (sp : Bool) : Thread :=
  { t.setPc pc with pfx := none, sp := sp, run := .ready,
                    ic := if sp then 0 else if t.csr.gelig then t.ic + 1 else t.ic, lc := if sp then 0 else t.lc,
                    skipBreak := false, ebkStop := false, timer := none, wake := none, parked := false, walk := none }

/-- A retirement is noted: its moment (R216), and in a queue program its count against the budget (R277). -/
def Thread.noteRetired (t : Thread) (cc words : Nat) : Thread :=
  { t with
    retiredAt := cc
    act := t.act.map fun a =>
      match a.queueOf with
      | some _ => { a with retired := a.retired + words }
      | none => a }

/-- The words that retire with an instruction: its prefix retires with it (R72, R330). -/
def Thread.words (t : Thread) : Nat := if t.pfx.isSome then 2 else 1

/-- Count a retired instruction (R277, R330) and end a step (R322): the slot stops now, or, when the instruction leaves it in
another wait, before its next instruction. `words` is 2 for a prefix pair, which retires as one (R72, R330). -/
def State.retired (s : State) (c n words : Nat) : State :=
  let s := s.pm c 0x02 words
  let s := s.modThread c n (·.noteRetired s.clock.cc words)
  let t := s.thread c n
  if t.stopWhy = 0 || t.pfx.isSome then s
  else if t.run == .ready || t.run == .suspended .preempted || t.run == .blocked .interlock then s.debugStop c n t.stopWhy.toNat
  else s.setThread c n { t with stopDue := true }

/-- The thread whose turn it is waits on an object (R195). -/
def State.waitsOn (s : State) (obj : Nat) : State := s.modTh fun t => { t with waitObj := obj }

/-- A slot blocks; the time it began to wait is kept while it waits for the same reason (R55, R195). -/
def State.block (s : State) (c n : Nat) (w : Wait) : State :=
  s.modThread c n fun t =>
    { t with run := .blocked w, blockedSince := if t.run = .blocked w then t.blockedSince else s.clock.now }

/-! Page walks (R108). -/

/-- The slice that a walk goes to (R108). -/
def WalkReq.slice (r : WalkReq) : Nat :=
  bits r.page 0 6 ^^^ bits r.page 6 6 ^^^ bits r.page 12 6 ^^^ bits r.page 18 6 ^^^ bits r.page 24 6 ^^^ bits r.page 30 6 ^^^
    bits r.asid.toNat 0 6

/-- The walk of a page that a walk's address lies in, for a core and an address-space id. -/
def Walk.request (w : Walk) (c : Nat) (asid : BitVec 16) : WalkReq :=
  { core := c, asid := asid, root := pathRoot w.path, page := w.va / 4096 }

/-- The walk that a slot waits for. -/
def State.walkOf (s : State) (c n : Nat) : Option WalkReq :=
  let t := s.thread c n
  match t.run, t.walk with
  | .blocked _, some w => some (w.request c (t.act.getD {}).asid)
  | _, _ => none

/-- The walk that a mover channel's element waits for (R107, R108). -/
def State.chanWalk (s : State) (c ch : Nat) : Option WalkReq :=
  let v := FMap.get (s.core c).cx.movers ch {}
  match v.st, v.run, v.walk with
  | .running, some m, some w => some (w.request c m.issuer.asid)
  | _, _, _ => none

/-- What a `pf` walks for. -/
def Prefetch.walk (p : Prefetch) : Walk := { path := p.path, va := p.va, kind := .load }

/-- The walk that a `pf` waits for. -/
def Prefetch.request (p : Prefetch) (c : Nat) : WalkReq := p.walk.request c p.asid

/-- The walks that a core's slots, channels and `pf`s wait for, in this order. -/
def State.coreWalks (s : State) (c : Nat) : List WalkReq :=
  (List.range 4).filterMap (s.walkOf c) ++ (List.range 4).filterMap (s.chanWalk c) ++ (s.core c).prefetches.map (·.request c)

/-- The slots that wait for one walk: misses of a tile on one page merge (R108). -/
def State.walkSlots (s : State) (r : WalkReq) : List Nat := (List.range 4).filter fun n => s.walkOf r.core n == some r

/-- A request's tile has a Gust seizure pending (R108, R216). -/
def State.walkUrgent (s : State) (r : WalkReq) : Bool := let k := s.core r.core; k.gust.isSome && !k.gustOn

/-- Free walkers of a slice, 32 in all, take requests from its queue: in arrival order, those of tiles with a seizure pending
first (R108). `fuel` bounds them. -/
def Slice.serveWalks (urgent : WalkReq → Bool) : Nat → Slice → Slice
  | 0, k => k
  | fuel + 1, k =>
    if 32 ≤ k.walking.length then k
    else
      match k.walkQ.find? urgent <|> k.walkQ.head? with
      | none => k
      | some r => Slice.serveWalks urgent fuel { k with walking := k.walking ++ [r], walkQ := k.walkQ.erase r }

/-- A request enters the walk queue of its slice, which has 64 places; one for a walk that is there already merges with
it, and with the queue full it waits at the tile (R108). -/
def State.queueWalk (s : State) (r : WalkReq) : State :=
  let k := s.sliceAt r.slice
  if k.walking.contains r || k.walkQ.contains r || decide (64 ≤ k.walkQ.length) then s
  else s.modSlice r.slice fun k => Slice.serveWalks s.walkUrgent 1 { k with walkQ := k.walkQ ++ [r] }

/-- The walks of a slice move on: those that nothing waits for any more are dropped, free walkers take queued requests, and
requests that waited at their tiles come in, the lowest core first and in it slots, channels and `pf`s (R108; log entry 78). -/
def State.moveWalks (s : State) (n : Nat) : State :=
  let k := s.sliceAt n
  let wanted (r : WalkReq) : Bool := (s.coreWalks r.core).contains r
  let full := decide (64 ≤ k.walkQ.length)
  let s := s.modSlice n fun k =>
    Slice.serveWalks s.walkUrgent 32 { k with walking := k.walking.filter wanted, walkQ := k.walkQ.filter wanted }
  if !full then s
  else s.cores.foldl (fun s e => ((s.coreWalks e.1).filter fun r => r.slice == n).foldl State.queueWalk s) s

/-- A TLB miss is counted and its request goes to its slice (R108, R330). -/
def State.askWalk (s : State) (r : WalkReq) : State := ((s.pm r.core 0x07 1).moveWalks r.slice).queueWalk r

/-- A thread waits for a walk (R108). -/
def State.awaitWalk (s : State) (c n : Nat) (w : Walk) : State :=
  ((s.block c n .memory).modThread c n fun t => { t with walk := some w }).askWalk
    (w.request c ((s.thread c n).act.getD {}).asid)

/-- A trap is taken; where it ends Gust code after a release, the tenant comes back (R218, R301). -/
def State.trapped (s : State) (c n code : Nat) (tval : Dword) : State := (s.takeTrap c n code tval).gustOver c

/-- The record of an access fault met by a fetch: PATH, RANGE or ALIGN of the pc (R82, R84, R88, R316); there is no
instruction word to name, and its field holds zero. -/
def State.fetchRecord (s : State) (c n code : Nat) (pc : Dword) : State :=
  if code = causePath ∨ code = causeRange ∨ code = causeAlign then
    s.threadRecord c n 0x01 2 [(24, 8, pc.toNat), (32, 1, code)]
  else s

/-- Carry out what the meaning of an instruction answered, on the thread whose turn it is. A prefix retires with the instruction
that it governs (R72). -/
def State.finish (s : State) : Res → State
  | .retire t => (t.modTh fun h => h.retire (h.bank.pc + 4) false).retired s.cur s.slot s.th.words
  | .jump pc t => (t.modTh fun h => h.retire pc false).retired s.cur s.slot s.th.words
  | .leave r t =>
    (t.modTh fun h => { h.retire (h.bank.pc + 4) false with run := r, parked := true }).retired s.cur s.slot s.th.words
  | .marked t =>
    (((t.modTh fun h => h.retire (h.bank.pc + 4) true).pm s.cur 0x0E 1).retired s.cur s.slot s.th.words).stopPoint
      s.cur s.slot true
  | .pending w t => t.modTh fun h => { h.setPc (h.bank.pc + 4) with pfx := some w, run := .ready }
  | .resume pc t => (t.modTh fun h => { h.retire pc false with sp := true }).retired s.cur s.slot s.th.words
  | .trap code tval t => t.trapped s.cur s.slot code tval
  | .wait w t => (t.block s.cur s.slot w).stopPoint s.cur s.slot false
  | .walk w t => (t.awaitWalk s.cur s.slot w).stopPoint s.cur s.slot false
  | .done t => t.gustOver s.cur

/-! The checks before an instruction (R299 steps 3 to 5). -/

/-- An instruction word, for a trap value. -/
def wordValue (w : Word) : Dword := w.setWidth 64

/-- A prefix that R73 to R75 do not allow before the instruction. -/
def State.badPfx (s : State) (i : Instr) : Bool :=
  match s.pfx with
  | none => false
  | some w =>
    if bits w.toNat 24 2 = 0 then !takesExt i
    else
      let o := optionsOf i
      (s.optRound != 0 && !o.1) || (s.optSat != 0 && !o.2.1) || (s.optRing != 0 && !o.2.2)

/-- A `pfx` or `safe`, which no prefix may govern (R75). -/
def isPfxOrSafe : Instr → Bool
  | .pfxExt _ => true
  | .pfxOpt _ => true
  | .safe _ _ => true
  | _ => false

/-- A prefix word (R72). -/
def isPfx : Instr → Bool
  | .pfxExt _ => true
  | .pfxOpt _ => true
  | _ => false

/-- The instruction is illegal here: absent, gated, malformed, or wrongly prefixed (R8, R15, R75, R300). -/
def State.illegal (s : State) (i : Instr) : Bool :=
  availability (groupOf i) (coreType s.cur) == .no || !s.feature (featureOf (groupOf i)) || (usesF16 i && !s.feature 8) ||
    (usesDom i && coreType s.cur == .reflex) || !wellFormed i || s.badPfx i || (s.pfx.isSome && isPfxOrSafe i)

/-- What R387 refuses of a CSR: a number that R63 does not list, or a privileged one in user mode; the cause, or 0. -/
def State.csrRefuses (s : State) (n : Nat) : Nat :=
  if !isCsr n then causeIllegal else if csrPriv n && !s.sup then causePriv else 0

/-- The instruction names a CSR or an engine register that it may not, has an option that its path does not take, or sets a
reserved bit of an operand: its meaning traps ILLEGAL or PRIV, which stand above the rules of R71 (R58, R75, R113, R299, R387,
R457, R462). -/
def State.namesRefused (s : State) : Instr → Bool
  | .csrr _ c => s.csrRefuses c.toNat != 0
  | .csrw _ c => s.csrRefuses c.toNat != 0
  | .csrs _ c => s.csrRefuses c.toNat != 0
  | .csrc _ c => s.csrRefuses c.toNat != 0
  | .ewr _ n => !hasEngine (coreType s.cur) n.toNat
  | .erd _ n => !hasEngine (coreType s.cur) n.toNat
  | .vst _ b _ _ => s.opt != 0 && s.basePath b != 0x14 && s.basePath b != 0x15
  | .swget _ _ t => bits (s.x t).toNat 8 24 != 0
  | .swadv _ _ t => bits (s.x t).toNat 7 25 != 0
  | .tuntil _ _ t => bits (s.x t).toNat 6 26 != 0
  | .tinv _ m => bits (s.x m).toNat 2 14 != 0
  | _ => false

/-- The checks of R299 before the instruction's own: the cause and trap value of the first that fails. -/
def State.refuses (s : State) (i : Instr) : Option (Nat × Dword) :=
  if s.illegal i then some (causeIllegal, wordValue (encode i))
  else if availability (groupOf i) (coreType s.cur) == .sup && !s.sup then some (causePriv, wordValue (encode i))
  else if isPfx i || s.namesRefused i then none
  else if s.th.csr.gelig && decide (512 ≤ s.th.ic) && !isPfxOrSafe i then some (causeSafe, 2)
  else if needsSafe i && !s.th.sp then some (causeSafe, 1)
  else none

/-- An illegal prefix traps as governed by itself: `epc` is its own address and PFX is set (R75). -/
def State.pfxTrap (s : State) (tval : Dword) : State :=
  let s := if s.pfx.isSome then s else s.modTh fun t => { t.setPc (t.bank.pc + 4) with pfx := some 0 }
  s.trapped s.cur s.slot causeIllegal tval

/-- Issue an instruction: the checks of R299, then its own meaning, and what follows from its answer. -/
def issue (i : Instr) (body : State → Res) (s : State) : Out :=
  match s.refuses i with
  | some (code, tval) =>
    if isPfx i && code == causeIllegal then .next (s.pfxTrap tval) else .next (s.finish (.trap code tval s))
  | none => .next (s.finish (body s))

/-- An event of the outside world or of a unit; `ok` says that the units it names exist, else there is no such event. -/
def event (ok : Bool) (body : State → State) (s : State) : Out :=
  if ok then .next (body s) else .fault .malformedEvent

/-- The binding an activation record names (R316). -/
def State.budgetRecord (s : State) (c n kind : Nat) : State :=
  let a := (s.thread c n).act.getD {}
  s.threadRecord c n kind 2 [(20, 4, a.cycles), (24, 1, a.bind)]

/-- The BUDGET trap of a reflex activation at an instruction boundary (R201). -/
def State.budgetTrap (s : State) (c n : Nat) : State :=
  let a := (s.thread c n).act.getD {}
  ((s.budgetRecord c n 0x09).modThread c n fun t => { t.rewind with act := some { a with budgetTaken := true } }).takeTrap c n
    causeBudget (BitVec.ofNat 64 a.cycles)

/-- A vector instruction's operands: bound registers are tested, the body runs, and when it retires each bound source gives
up one entry (R468). -/
def State.vector (s : State) (srcs dsts : List Nat) (body : State → Res) : Res :=
  match s.vecCheck srcs dsts with
  | .trap code => .trap causeMover (BitVec.ofNat 64 code) s
  | .block r => .wait .bound (s.waitsOn r)
  | .go =>
    match body s with
    | .retire t => .retire (t.popSources srcs)
    | r => r

/-- Return from a trap (R302): the mode comes back from PMODE, pc from `epc`, and the reservation ends. -/
def State.returnFromTrap (s : State) : Res :=
  let c := s.th.csr
  .resume c.epc ((s.modCsr fun c => { c with mode := c.pmode }).dropResv s.cur s.slot)

end Sys2Proof.Machine
end

