-- ==== Sys2Proof/Machine/Debug.lean ====
section
/-! DEFINITION. The debug block of a core (R319 to R325), its log registers (R327 to R329) and its performance counters
(R330). -/

namespace Sys2Proof.Machine

/-! Break bits (R325). -/

/-- A slot that is about to issue a fetched word stops before it: its break bit is 1 and BKEN is set, and it is not the first
word that a released slot issues (R321, R322, R325). -/
def State.breakAt (s : State) (c n : Nat) (w : FetchedWord) : Bool :=
  let t := s.thread c n
  (s.core c).dbg.bken && w.brk && !t.skipBreak && !(t.act.getD {}).kind.isGust

/-! Stops and releases (R321, R322, R406). -/

/-- HALTREQ is set: idle slots stop at once (R321). -/
def State.haltIdle (s : State) (c : Nat) : State :=
  (List.range 4).foldl (fun s n =>
    if (s.thread c n).run = .idle then
      (s.modThread c n (·.stop s.clock.now)).modCore c fun k => { k with dbg := { k.dbg with reason := 1 } }
    else s) s

/-- Release a stopped slot; `why` is the reason its next stop has, 4 for a single step. The next instruction of the slot, that of
its next activation where it stopped at a boundary, ignores its break bit and is the step (R322). -/
def State.release (s : State) (c n why : Nat) : State :=
  let k := s.core c
  let t := k.thread n
  if t.run ≠ .stopped then s
  else
    match t.act with
    | none =>
      if k.dbg.haltreq then s
      else s.setThread c n { t with run := .idle, freeSince := s.clock.now, skipBreak := true, stopWhy := BitVec.ofNat 3 why }
    | some _ =>
      let run : RunState := if k.gust.isSome && !k.gustOn then .suspended .seized
        else if k.halting then .suspended .preempted
        else if t.locked && k.l1pending.isSome then .blocked .interlock else .ready
      s.setThread c n { t with
        run := run, parked := run == .blocked .interlock, locked := false, skipBreak := true, stopWhy := BitVec.ofNat 3 why }

/-- RESUME: every stopped slot is released, and slots that wait in `halt` go on (R322, R406). -/
def State.dbgResumeAll (s : State) (c : Nat) : State :=
  (List.range 4).foldl (fun s n =>
    let t := s.thread c n
    if t.saveKind = 9 ∧ t.run = .suspended .preempted then s.goOn c n true else s.release c n 0) s

/-- BKSYNC: the break bits are being reloaded (R325). -/
def State.bksync (s : State) (c : Nat) : State :=
  s.modCore c fun k => { k with dbg := { k.dbg with bkbusy := true } }

/-- A fetched word takes its break bit from the bitmap as it stands now (R325). -/
def State.reloadBit (s : State) (c : Nat) (w : FetchedWord) : FetchedWord := { w with brk := s.bitmapBit c w.pc }

/-- The reload ends: every word that the core holds has taken its bit afresh (R325). -/
def State.bksyncDone (s : State) (c : Nat) : State :=
  if !(s.core c).dbg.bkbusy then s
  else
    let fresh (l : List (Nat × FetchedWord)) : List (Nat × FetchedWord) := l.map fun e => (e.1, s.reloadBit c e.2)
    s.modCore c fun k => { k with
      dbg := { k.dbg with bkbusy := false }
      icache := fresh k.icache
      cx := { k.cx with threads := k.cx.threads.map fun e => (e.1, { e.2 with fetched := fresh e.2.fetched }) } }

/-- One bit of a register's value. -/
def flagBit (b : Bool) (i : Nat) : Nat := if b then 2 ^ i else 0

/-- The value of `dbgctl` (R320). -/
def Core.dbgctl (k : Core) : Nat :=
  let d := k.dbg
  flagBit d.haltreq 31 + flagBit d.bken 28 + flagBit d.ebkclm 27 + flagBit d.trapstop 26 + flagBit d.allstop 25
    + flagBit d.bkbusy 23 + flagBit d.err 22 + d.stepslot.toNat * 2 ^ 20 + d.reason.toNat * 2 ^ 16 + k.stoppedBits

/-- A write of `dbgctl` (R320 to R322, R325). -/
def State.writeDbgctl (s : State) (c v : Nat) : State :=
  let s := s.modCore c fun k => { k with dbg := { k.dbg with
    haltreq := bit v 31, bken := bit v 28, ebkclm := bit v 27, trapstop := bit v 26, allstop := bit v 25,
    err := k.dbg.err && !bit v 22, stepslot := BitVec.ofNat 2 (bits v 20 2) } }
  let s := if bit v 31 && (s.core c).gust.isNone then s.haltIdle c else s
  let s := if bit v 30 then s.dbgResumeAll c else s
  let s := if bit v 29 then s.release c (bits v 20 2) 4 else s
  if bit v 24 then s.bksync c else s

/-! The register window (R324). -/

/-- The value of the register that `dbgsel` names. -/
def State.dbgValue (s : State) (c : Nat) : Nat :=
  let sel := (s.core c).dbg.sel.toNat
  let n := bits sel 0 2
  let i := bits sel 8 8
  let t := s.thread c n
  match bits sel 5 3 with
  | 0 => if i < 32 then (t.getX i).toNat else 0
  | 1 => if i < 32 then bits (t.getV i).toNat (64 * bits sel 16 2) 64 else 0
  | 2 => if i < 8 then (t.getK i).toNat else 0
  | 3 => if i < 8 then (t.getM i).toNat else 0
  | 4 => if hasEngine (coreType c) i then (s.engineRead c n i).toNat else 0
  | 5 => if isCsr i then (s.csrRead c n i).toNat else 0
  | 6 => t.bank.pc.toNat
  | _ => 0

/-- Write the register that `dbgsel` names. -/
def State.dbgPut (s : State) (c v : Nat) : State :=
  let sel := (s.core c).dbg.sel.toNat
  let n := bits sel 0 2
  let i := bits sel 8 8
  let t := s.thread c n
  let w := BitVec.ofNat 32 v
  match bits sel 5 3 with
  | 0 => if i < 32 then s.setThread c n (t.setX i w) else s
  | 1 => if i < 32 then
      s.setThread c n (t.setV i (BitVec.ofNat 256 (setBits (t.getV i).toNat (64 * bits sel 16 2) 64 v))) else s
  | 2 => if i < 8 then s.setThread c n (t.setK i w) else s
  | 3 => if i < 8 then s.setThread c n (t.setM i w) else s
  | 4 => if hasEngine (coreType c) i then s.engineWrite c n i (BitVec.ofNat 64 v) else s
  | 5 => if isCsr i then (s.csrWrite c n i w).1 else s
  | 6 => s.setThread c n { t.setPc (BitVec.ofNat 64 v) with ebkStop := false, vectorDue := false }
  | _ => s

/-- The slot that `dbgsel` names is not stopped: an access to `dbgdat` sets ERR (R324). -/
def State.dbgRefuses (s : State) (c : Nat) : Bool :=
  (s.thread c (bits (s.core c).dbg.sel.toNat 0 2)).run != .stopped

/-- A refused access to `dbgdat`. -/
def State.dbgErr (s : State) (c : Nat) : State :=
  s.modCore c fun k => { k with dbg := { k.dbg with err := true } }

/-- A write of `dbgdat` (R324). -/
def State.writeDbgdat (s : State) (c v : Nat) : State := if s.dbgRefuses c then s.dbgErr c else s.dbgPut c v

/-- What a read of `dbgdat` returns (R324). -/
def State.readDbgdat (s : State) (c : Nat) : Nat := if s.dbgRefuses c then 0 else s.dbgValue c

/-- What a read of `dbgdat` does beside returning its value (R324). -/
def State.touchDbgdat (s : State) (c : Nat) : State := if s.dbgRefuses c then s.dbgErr c else s

/-! The core log (R327, R329). -/

/-- The log state of a slot (R327). -/
def RunState.logState : RunState → Nat
  | .ready => 0
  | .matrix => 0
  | .blocked .interlock => 0
  | .blocked .memory => 2
  | .blocked _ => 1
  | _ => 3

/-- Follow the states of a core's slots while its log is enabled (R327). -/
def Core.watch (k : Core) (t : Clock) : Core :=
  if !k.log.en then k
  else
    (List.range 4).foldl (fun k n =>
      let st := (k.thread n).run.logState
      if FMap.get k.log.seen n 3 = st then k
      else
        let close (e : LogChange) : LogChange :=
          if e.slot = n ∧ e.words.isNone ∧ e.ended.isNone then { e with ended := some t.cc } else e
        { k with log := { k.log with
          seen := FMap.put k.log.seen n st
          queue := insertChange { slot := n, st := st, at_ := t.cc, ns := t.now } (k.log.queue.map close) } }) k

/-- Whether the head of what may be logged is settled: a record always, a change once its state has ended or has lasted DWELL
cycles (R327). -/
def LogChange.settled (e : LogChange) (dwell cc : Nat) : Bool :=
  e.words.isSome || e.ended.isSome || decide (e.at_ + dwell ≤ cc)

/-- A state that lasted less than DWELL cycles counts as part of the state logged before it (R327). -/
def LogChange.short (e : LogChange) (dwell : Nat) : Bool := e.ended.any fun t => decide (t < e.at_ + dwell)

/-- The oldest of what a core may log is settled, and is of the given slot. -/
def State.logDue (s : State) (c n : Nat) : Bool :=
  let l := (s.core c).log
  l.en &&
    (match l.queue with
      | e :: _ => e.slot == n && e.settled l.dwell.toNat s.clock.cc
      | [] => false)

/-- The oldest of what a core may log is written, or dropped where it is no change (R327, R328). -/
def State.logState (s : State) (c : Nat) : State :=
  let l := (s.core c).log
  match l.queue with
  | [] => s
  | e :: rest =>
    let s := (s.modCore c fun k => { k with log := { k.log with queue := rest } })
    match e.words with
    | some w => s.logEntry c e.at_ e.ns w.1 w.2
    | none =>
      if e.short l.dwell.toNat || FMap.get l.logged e.slot 3 == e.st then s
      else
        (s.modCore c fun k => { k with log := { k.log with logged := FMap.put k.log.logged e.slot e.st } }).logEntry c e.at_ e.ns
          (e.slot * 2 ^ 28 + e.st * 2 ^ 26) []

/-- The sizes that LOG2N can name (R329). -/
def logSizeOk (c n : Nat) : Bool := decide (12 ≤ n) && decide (n ≤ if coreType c = .reflex then 16 else 24)

/-- A write of `logctl`: LOG2N and DWELL stay while EN = 1, and a rising EN writes a time sync, behind a loss
entry where words have been lost and there is room for it (R328, R329). A size that
LOG2N cannot name leaves the field as it is (DESIGN CHOICE, log entry 71). -/
def State.writeLogctl (s : State) (c v : Nat) : State :=
  let l := (s.core c).log
  let l1 := { l with en := bit v 63, act := bit v 62 }
  let size := if logSizeOk c (bits v 57 5) then BitVec.ofNat 5 (bits v 57 5) else l.log2n
  let l2 := if l.en then l1 else { l1 with log2n := size, dwell := BitVec.ofNat 12 (bits v 45 12) }
  if !l.en && bit v 63 then
    let states := (List.range 4).map fun n => (n, ((s.core c).thread n).run.logState)
    let s := s.modCore c fun k => { k with log := { l2 with
      last := s.clock.cc, logged := states, seen := states, queue := [] } }
    let t := s.closeGap c
    if l.gap ≠ 0 ∧ (t.core c).log.gap = 0 then t else t.logOrLose c s.clock.cc (timeSync s.clock.now)
  else s.modCore c fun k => { k with log := l2 }

/-- The value of `logctl` (R329). -/
def CoreLog.ctl (l : CoreLog) : Nat :=
  flagBit l.en 63 + flagBit l.act 62 + l.log2n.toNat * 2 ^ 57 + l.dwell.toNat * 2 ^ 45

/-- A write of `logbase`: ignored while EN = 1, and when it names no memory (R329, R514). -/
def State.writeLogbase (s : State) (c v : Nat) : State :=
  let l := (s.core c).log
  if l.en || (coreType c != .reflex && !isBacked (bits v 0 48)) then s
  else s.modCore c fun k => { k with log := { k.log with base := BitVec.ofNat 48 v } }

/-- A write of `logr`: room in the ring may return (R329). -/
def State.writeLogr (s : State) (c v : Nat) : State :=
  (s.modCore c fun k => { k with log := { k.log with ridx := BitVec.ofNat 32 v } }).closeGap c

/-- A write of `bkmap`: ignored on a reasoning tile when it names no memory (R325, R514). -/
def State.writeBkmap (s : State) (c v : Nat) : State :=
  if coreType c = .reasoning ∧ !isBacked v then s
  else s.modCore c fun k => { k with dbg := { k.dbg with bkmap := BitVec.ofNat 64 v } }

/-- A write of `pmsel`: a byte with a reserved code reads zero (R330). -/
def pmselValue (v : Nat) : Dword :=
  BitVec.ofNat 64 (leNat ((leBytes 8 v).map fun b => if b.toNat ≤ 0x0F then b else 0))

end Sys2Proof.Machine
end

