-- ==== Sys2Proof/Machine/Gangs.lean ====
section
/-! DEFINITION. Gangs: descriptors and their checks (R43, R44, R46, R515), producers (R47, R49), eligibility and placement
(R45, R286 to R288), aborts (R285), and the partition a tile belongs to (R304). -/

namespace Sys2Proof.Machine

/-! Partitions and domains. -/

/-- A partition has its tiles (R304, R309). -/
def Partition.holds (p : Partition) : Bool := p.st != .free && p.st != .spilled

/-- The partition that holds a core: entry 0 for the reflex array, else the entry whose TILES names the tile (R304). -/
def State.partOf (s : State) (c : Nat) : Option Partition :=
  if coreType c = .reflex then FMap.find s.parts 0
  else (s.parts.find? fun e => e.1 != 0 && e.2.holds && e.2.tiles.getLsbD c).map (·.2)

/-- The domain of a reasoning tile (R14). -/
def domainOf (t : Nat) : Nat := bits t 6 2 * 4 + bits t 2 2

/-- The tiles of the Gust pool (R212). -/
def State.inPool (s : State) (t : Nat) : Bool := s.gustPool.getLsbD t

/-! Descriptors (R43). -/

/-- A number in the bytes of a descriptor. -/
def field (d : List Byte) (at_ n : Nat) : Nat := leNat ((d.drop at_).take n)

/-- The names of the producers a descriptor names, in order (R43). -/
def prodNames (d : List Byte) : List Nat := [field d 12 4, field d 16 4, field d 20 4, field d 24 4]

/-- A gang holds its name: it is pending or live (R46). -/
def Gang.current (g : Gang) : Bool := g.st != .ended

/-- The current gang of a name and an address-space id (R46, R49). -/
def State.namedGang (s : State) (name : Nat) (asid : BitVec 16) : Option Gang :=
  s.gangs.find? fun g => g.current && g.name.toNat == name && g.asid == asid

/-- The live gang of a name and an address-space id (R285). -/
def State.liveGang (s : State) (name : Nat) (asid : BitVec 16) : Option Gang :=
  s.gangs.find? fun g => g.st == .live && g.name.toNat == name && g.asid == asid

/-- Some gang of an address-space id is live (R291, R304). -/
def State.anyLive (s : State) (asid : BitVec 16) : Bool := s.gangs.any fun g => g.st == .live && g.asid == asid

/-- The reason a descriptor is rejected for, 0 when it is accepted (R44, R46, R515). -/
def State.gangReason (s : State) (d : List Byte) (asid : BitVec 16) : Nat :=
  let n := field d 0 2
  let shape := field d 2 1
  let sp := field d 3 1
  let flags := field d 6 1
  if n = 0 ∨ 256 < n ∨ (shape = 1 ∧ 16 < n) ∨ (shape = 2 ∧ sp ≠ 0 ∧ (n % sp ≠ 0 ∨ 16 < n / sp)) then 1
  else if 2 < shape ∨ (shape < 2 ∧ sp ≠ 0) ∨ (shape = 2 ∧ (sp = 0 ∨ 16 < sp)) then 2
  else if field d 7 1 ≠ 0 ∨ bits flags 4 4 ≠ 0 ∨ bits flags 0 2 = 0 then 3
  else if field d 8 4 = 0 then 4
  else if (s.namedGang (field d 8 4) asid).isSome then 5
  else 0

/-- Report a gang that never runs (R44, R289, R316). -/
def State.rejectGang (s : State) (name : Nat) (asid : BitVec 16) (reason : Nat) : State :=
  s.feRecord 0x05 2 asid.toNat [(20, 4, name), (24, 1, reason)]

/-- The lower in priority of two classes (R284). -/
def lowerClass (a b : Nat) : Nat := max a b

/-- A gang as its request is accepted, with its producers resolved (R43, R46, R49, R284). -/
def State.makeGang (s : State) (r : GangRequest) : Gang :=
  let d := r.desc
  let found := (prodNames d).map fun n => (n, s.namedGang n r.asid)
  let depst := (List.range 4).foldl (fun a i =>
    match found.getD i (0, none) with
    | (n, none) => if n = 0 then a else a + 2 ^ i
    | _ => a) 0
  let cls := bits (field d 6 1) 0 2
  { no := s.gangs.foldl (fun a g => max a (g.no + 1)) 0
    name := BitVec.ofNat 32 (field d 8 4)
    asid := r.asid
    ctx := s.contextId false r.asid
    n := field d 0 2
    shape := field d 2 1
    sparam := field d 3 1
    etag := BitVec.ofNat 16 (field d 4 2)
    cls := match r.queue with | some q => lowerClass cls (s.queueAt q).cls | none => cls
    gust := bit (field d 6 1) 2
    waitexit := bit (field d 6 1) 3
    prods := found.filterMap fun p => p.2.map (·.no)
    depst := BitVec.ofNat 4 depst
    payload := (List.range 8).map fun i => BitVec.ofNat 32 (field d (28 + 4 * i) 4)
    queue := r.queue }

/-- The placement unit takes the first request at its port (R41, R46); the step scheduler learns which gang is its own. -/
def State.acceptGang (s : State) : State :=
  match s.gangPort with
  | [] => s
  | r :: rest =>
    let s := { s with gangPort := rest }
    let why := s.gangReason r.desc r.asid
    let g := s.makeGang r
    let s := if r.step then { s with gen := { s.gen with submitted := false, stepGang := if why = 0 then some g.no else none } }
      else s
    if why ≠ 0 then s.rejectGang (field r.desc 8 4) r.asid why else { s with gangs := s.gangs ++ [g] }

/-! Producers (R47). -/

/-- A producer is triggered, in the sense of its dependent's WAITEXIT (R47). -/
def Gang.triggered (g : Gang) (waitexit : Bool) : Bool :=
  match g.st with
  | .pending => false
  | .reserving => false
  | _ => g.members.all fun e => e.2.st != .running || (!waitexit && e.2.trig)

/-- The producers of a gang. -/
def State.producers (s : State) (g : Gang) : List Gang := g.prods.filterMap s.gang

/-- Every producer of a gang is triggered (R47). -/
def State.allTriggered (s : State) (g : Gang) : Bool := (s.producers g).all fun p => p.triggered g.waitexit

/-- Some producer of a gang ended by abort (R47). -/
def State.prodAborted (s : State) (g : Gang) : Bool := (s.producers g).any (·.aborted)

/-! Placement (R45, R286, R287). -/

/-- The free slot of a tile for a gang's binding, the tile's tenant being here or away; none where the binding is ONE and
already runs, since R32 allows it one activation on the tile (DEDUCED, log entry 65). -/
def State.memberSlot (s : State) (g : Gang) (t : Nat) : Option Nat :=
  let k := s.core t
  let x := k.ctx
  match x.bound g.etag.toNat with
  | none => none
  | some (i, e) =>
    if bindOne e && (List.range 4).any fun n => (FMap.get x.threads n ({} : Thread)).runsBinding i (bindTag e) then none
    else (List.range 4).find? fun n =>
      let h := FMap.get x.threads n ({} : Thread)
      h.run == .idle && h.shadow.isNone && (FMap.find k.reserved n).isNone && h.effCls == bindClass e

/-- A tile is eligible for a member of a gang (R45). -/
def State.eligible (s : State) (g : Gang) (t : Nat) : Bool :=
  (match s.partOf t with
    | some p => p.st == .running && p.asid == g.asid
    | none => false) &&
    (s.memberSlot g t).isSome && (g.gust || !s.inPool t)

/-- A tile refuses a reservation: the debugger holds it, or a seizure has it (R215, R321). -/
def State.refusesMember (s : State) (t : Nat) : Bool :=
  let k := s.core t
  k.dbg.haltreq || k.gust.isSome || k.halting

/-- The rank of a domain for a gang: producer tiles first, then eligible tiles, then the lower number (R287). -/
structure DomainRank where
  dom : Nat
  near : Nat
  tiles : List Nat
  deriving DecidableEq, Repr

/-- One domain comes before another (R287). -/
def DomainRank.before (a b : DomainRank) : Bool :=
  if a.near ≠ b.near then decide (b.near < a.near)
  else if a.tiles.length ≠ b.tiles.length then decide (b.tiles.length < a.tiles.length)
  else decide (a.dom < b.dom)

/-- Insert a domain in rank order. -/
def insertRank (d : DomainRank) : List DomainRank → List DomainRank
  | [] => [d]
  | e :: r => if d.before e then d :: e :: r else e :: insertRank d r

/-- The domains in rank order, with their eligible tiles in ascending id (R287). -/
def State.rankDomains (s : State) (g : Gang) : List DomainRank :=
  let able := (List.range 256).filter (s.eligible g)
  let prods := ((s.producers g).filter (·.st == .live)).flatMap fun p => p.members.map (·.2.tile)
  (List.range 16).foldr (fun d r => insertRank
    { dom := d, near := (prods.eraseDups.filter fun t => domainOf t == d).length,
      tiles := able.filter fun t => domainOf t == d } r) []

/-- The tiles for a gang's members, in the order of their logical ids (R44, R287). -/
def State.chooseTiles (s : State) (g : Gang) : Option (List Nat) :=
  let ranks := s.rankDomains g
  match g.shape with
  | 1 => (ranks.find? fun d => decide (g.n ≤ d.tiles.length)).map fun d => d.tiles.take g.n
  | 2 =>
    let each := g.n / g.sparam
    let fit := (ranks.filter fun d => decide (each ≤ d.tiles.length)).take g.sparam
    if fit.length = g.sparam then some (fit.flatMap fun d => d.tiles.take each) else none
  | _ =>
    let all := ranks.flatMap (·.tiles)
    if g.n ≤ all.length then some (all.take g.n) else none

/-- The starting message of a member (R45, R288). Where it goes back to the pending queue, the arrival time in its ring entry is 0:
it never reached an inbox port, and the spec gives it no time (DESIGN CHOICE: log entry 64). -/
def Gang.startingMessage (g : Gang) (id start : Nat) : Message :=
  { ctl := BitVec.ofNat 32 (g.cls * 2 ^ 16 + g.etag.toNat), payload := g.payload, srcKind := 3, asid := g.asid,
    gang := some (g.no, id), notBefore := start }

/-- Change a slot of the tenant of a tile, here or away. -/
def State.modTenant (s : State) (c n : Nat) (f : Thread → Thread) : State :=
  s.modCore c (·.modCtx fun x => { x with threads := FMap.put x.threads n (f (FMap.get x.threads n {})) })

/-- A launch commits: each member's tile holds the starting message until the start time (R288). -/
def State.commitGang (s : State) (g : Gang) (tiles : List Nat) : State :=
  let start := s.clock.now + 2000
  let places := (List.range tiles.length).filterMap fun i =>
    let t := tiles.getD i 0
    (s.memberSlot g t).map fun n => (i, t, n)
  let s := places.foldl (fun s p =>
    s.modTenant p.2.1 p.2.2 fun t => { t with shadow := some (g.startingMessage p.1 start), takenAt := s.clock.now }) s
  s.modGang g.no fun g => { g with
    st := .live, start := start, members := places.map fun p => (p.1, { tile := p.2.1, home := p.2.1, slot := p.2.2 }) }

/-- A class is not placed or started at a shedding level (R296). -/
def sheds (level cls : Nat) : Bool := (decide (1 ≤ level) && cls == 3) || (decide (2 ≤ level) && cls == 2) || decide (5 ≤ level)

/-! Aborts (R285). -/

/-- A slot of a context that is away loses its activation (R285, R394). -/
def TileCtx.endAway (x : TileCtx) (n : Nat) : TileCtx :=
  let t := FMap.get x.threads n {}
  { x.endStreams n with
    threads := FMap.put x.threads n { t with run := .idle, act := none, abort := false }
    mx := x.mx.endSlot n }

/-- What the end of an activation whose context is away does beside it: its channel ends and its claims on egress queues go
(R188, R235, R394). -/
def State.endedAway (s : State) (c n : Nat) (x : TileCtx) : State :=
  (s.unlinkAway c n x).dropClaim c n (FMap.get x.threads n ({} : Thread)).csr.ctxid

/-- The slot of a context in which a gang member runs. -/
def TileCtx.memberSlot (x : TileCtx) (p : Nat × Nat) : Option Nat :=
  (List.range 4).find? fun n => (FMap.get x.threads n {}).act.any fun a => a.gang == some p

/-- No slot of a context holds the starting message of a gang member any more (R285). -/
def TileCtx.dropStarting (x : TileCtx) (p : Nat × Nat) (now : Nat) : TileCtx :=
  { x with threads := x.threads.map fun e => (e.1, if e.2.shadow.any (·.gang == some p) then e.2.unload now else e.2) }

/-- The starting message of a gang member goes, from whichever slot of its tile holds it, from the pending queue or from the
unbound hold (R285). -/
def State.dropStarting (s : State) (c : Nat) (p : Nat × Nat) : State :=
  let keep (m : Message) : Bool := m.gang != some p
  let s := s.modCore c fun k => { k.modCtx (·.dropStarting p s.clock.now) with hold := k.hold.filter keep }
  if (s.core c).pending.all keep && (s.core c).overflow.all keep then s
  else
    ((s.modCore c fun k => { k with pending := k.pending.filter keep, overflow := k.overflow.filter keep }).syncRing c).refillRing c

/-- The same on a tile whose context is spilled. -/
def TileImage.dropStarting (e : TileImage) (p : Nat × Nat) (now : Nat) : TileImage :=
  let keep (m : Message) : Bool := m.gang != some p
  { e with
    ctx := e.ctx.dropStarting p now, pending := e.pending.filter keep, overflow := e.overflow.filter keep
    hold := e.hold.filter keep }

/-- Change the spilled context of one tile of a partition. -/
def State.modImage (s : State) (p j : Nat) (f : TileImage → TileImage) : State :=
  let q := FMap.get s.parts p {}
  let imgs := (List.range q.images.length).map fun i => if i = j then f (q.images.getD i {}) else q.images.getD i {}
  { s with parts := FMap.put s.parts p { q with images := imgs } }

/-- Abort one member of a gang: a message not yet started goes, a suspended member ends where it stands, and a running one
at the first point R70 allows (R285). -/
def State.abortMember (s : State) (g : Gang) (id : Nat) (m : Member) : State :=
  let p := (g.no, id)
  if m.st ≠ .running then s
  else
    match s.spilledAt g.asid m.tile with
    | some (n, j) =>
      let x := ((FMap.get s.parts n {}).images.getD j {}).ctx
      let s := match x.memberSlot p with
        | some slot => (s.endedAway (awayCore n j) slot x).modImage n j fun e => { e with ctx := e.ctx.endAway slot }
        | none => s.modImage n j fun e => e.dropStarting p s.clock.now
      s.memberEnds p true
    | none =>
      let k := s.core m.tile
      match k.ctx.memberSlot p with
      | none => (s.dropStarting m.tile p).memberEnds p true
      | some slot =>
        if k.saved.isSome then
          let s := (s.endedAway m.tile slot k.ctx).storeNat (ctxLoc m.tile (0x800 * slot + 0x4D8)) 4 0
          ((s.endFills m.tile slot true).modCore m.tile (·.modCtx fun x => x.endAway slot)).memberEnds p true
        else (s.modThread m.tile slot fun t => { t with abort := true }).stopPoint m.tile slot false

/-- Abort a live gang (R285). -/
def State.abortGang (s : State) (no : Nat) : State :=
  match s.gang no with
  | none => s
  | some g => if g.st = .live then g.members.foldl (fun s e => s.abortMember g e.1 e.2) s else s

/-- A pending launch is rolled back and never runs (R47, R289). -/
def State.rollBack (s : State) (no : Nat) : State :=
  match s.gang no with
  | none => s
  | some g => (s.rejectGang g.name.toNat g.asid 6).modGang no fun g => { g with st := .ended, aborted := true }

/-- Try the pending launches of one class in arrival order until one cannot be placed (R286, R288). -/
def State.placeClass (s : State) : List Nat → State
  | [] => s
  | no :: rest =>
    match s.gang no with
    | none => s.placeClass rest
    | some g =>
      match s.chooseTiles g with
      | none => s
      | some tiles =>
        if tiles.any s.refusesMember then s.modGang no fun g => { g with tries := g.tries + 2 }
        else
          let s := s.commitGang g tiles
          let doomed := match g.queue with | some q => (s.queueAt q).destroyAbort | none => false
          (if doomed then s.abortGang no else s).placeClass rest

/-- A pass of the placement unit (R286); a fatal error stops placement (R314). -/
def State.placementPass (s : State) : State :=
  if s.fatal then s
  else
    [1, 2, 3].foldl (fun s cls =>
      if sheds s.shed.level cls then s
      else s.placeClass ((s.gangs.filter fun g => g.st == .pending && g.cls == cls).map (·.no))) s

/-- A pending launch could be tried now: its class is not shed. -/
def State.placementDue (s : State) : Bool :=
  !s.fatal && s.gangs.any fun g => g.st == .pending && !sheds s.shed.level g.cls &&
    (match s.chooseTiles g with
      | some tiles => !tiles.any s.refusesMember
      | none => false)

/-- A message starts a member of a gang that thermal shedding has parked (R296). -/
def State.parkedGang (s : State) (m : Message) : Bool :=
  match m.gang.bind fun p => s.gang p.1 with
  | some g => g.parked
  | none => false

/-- The time of a loaded message has come and its slot may start it (R200, R288). -/
def State.loadedDue (s : State) (c n : Nat) : Bool :=
  let k := s.core c
  let t := k.thread n
  match t.shadow with
  | none => false
  | some m =>
    t.run == .idle && decide (m.notBefore ≤ s.clock.now) && !s.dispatchBarred c && k.saved.isNone && !s.parkedGang m

/-- The message that an idle slot holds cannot start there any more: its binding is gone or clearing, or it no longer fits
the slot (R24, R51, R52, R66). -/
def Core.loadedGone (k : Core) (c n : Nat) : Bool :=
  match (k.thread n).shadow with
  | none => false
  | some m =>
    match k.cx.loadedEntry c m.tag with
    | some (i, e) => k.misfit n i e
    | none => true

/-- Start the loaded message of an idle slot; a message whose binding is gone is unbound, and one that no longer fits the
slot goes back to the pending queue (R24, R33, R51, R66, R288). -/
def State.startLoaded (s : State) (c n : Nat) : State :=
  match (s.thread c n).shadow with
  | none => s
  | some m =>
    match (s.core c).cx.loadedEntry c m.tag with
    | some (i, e) => if (s.core c).misfit n i e then s.unloadShadow c n else s.startMessage c n i e m
    | none => ((s.firingReturns m).modThread c n (·.unload s.clock.now)).holdMessage c m.unloaded

end Sys2Proof.Machine
end

