-- ==== Sys2Proof/Machine/Integer.lean ====
section
/-! DEFINITION. Scalar integer and pair instructions (R366 to R370, R419 to R421, R428, R432 to R434, R456, R497, R499). -/

namespace Sys2Proof.Machine

/-! Operations on words. -/

/-- Leading zero bits (R367). -/
def leadingZeros (v : Word) : Nat := if v = 0 then 32 else 31 - Nat.log2 v.toNat

/-- Trailing zero bits (R367). -/
def trailingZeros (v : Word) : Nat := ((List.range 32).find? fun i => v.getLsbD i).getD 32

/-- Bits that are 1 (R433). -/
def onesCount (v : Nat) (n : Nat) : Nat := ((List.range n).filter fun i => bit v i).length

/-- Extract a field (R368). -/
def fieldExtract (v c : Word) : Word :=
  BitVec.ofNat 32 (bits v.toNat (bits c.toNat 0 5) (min (bits c.toNat 8 6) 32))

/-- Insert a field (R368). -/
def fieldInsert (old v c : Word) : Word :=
  let pos := bits c.toNat 0 5
  let msk := BitVec.ofNat 32 ((2 ^ min (bits c.toNat 8 6) 32 - 1) * 2 ^ pos)
  (old &&& ~~~msk) ||| ((v <<< pos) &&& msk)

/-- Signed quotient (R369). -/
def divWord (a b : Word) : Word :=
  if b = 0 then BitVec.allOnes 32
  else if a = 0x80000000 ∧ b = BitVec.allOnes 32 then 0x80000000
  else BitVec.ofInt 32 (Int.tdiv a.toInt b.toInt)

/-- Unsigned quotient (R369). -/
def divuWord (a b : Word) : Word := if b = 0 then BitVec.allOnes 32 else BitVec.ofNat 32 (a.toNat / b.toNat)

/-- Signed remainder (R434). -/
def remWord (a b : Word) : Word :=
  if b = 0 then a
  else if a = 0x80000000 ∧ b = BitVec.allOnes 32 then 0
  else BitVec.ofInt 32 (a.toInt - Int.tdiv a.toInt b.toInt * b.toInt)

/-- Unsigned remainder (R434). -/
def remuWord (a b : Word) : Word := if b = 0 then a else BitVec.ofNat 32 (a.toNat % b.toNat)

/-- 1 or 0. -/
def boolWord (b : Bool) : Word := if b then 1 else 0

/-- Write an x register and retire. -/
def State.retX (s : State) (d : Reg) (v : Word) : Res := .retire (s.setX d v)

/-- Write a pair and retire. -/
def State.retP (s : State) (d : Reg) (v : Dword) : Res := .retire (s.setP d v)

/-! The instructions. -/

/-- `add`: the sum modulo 2^32 (R367). -/
def execAdd (d : Reg) (a : Reg) (b : Reg) (s : State) : Out :=
  issue (.add d a b) (fun s => s.retX d (s.x a + s.x b)) s

/-- `sub`: the difference modulo 2^32 (R433). -/
def execSub (d : Reg) (a : Reg) (b : Reg) (s : State) : Out :=
  issue (.sub d a b) (fun s => s.retX d (s.x a - s.x b)) s

/-- `and` (R367). -/
def execAnd (d : Reg) (a : Reg) (b : Reg) (s : State) : Out :=
  issue (.and d a b) (fun s => s.retX d (s.x a &&& s.x b)) s

/-- `or` (R433). -/
def execOr (d : Reg) (a : Reg) (b : Reg) (s : State) : Out :=
  issue (.or d a b) (fun s => s.retX d (s.x a ||| s.x b)) s

/-- `xor` (R497). -/
def execXor (d : Reg) (a : Reg) (b : Reg) (s : State) : Out :=
  issue (.xor d a b) (fun s => s.retX d (s.x a ^^^ s.x b)) s

/-- `andn`: xs AND NOT xt (R367). -/
def execAndn (d : Reg) (a : Reg) (b : Reg) (s : State) : Out :=
  issue (.andn d a b) (fun s => s.retX d (s.x a &&& ~~~(s.x b))) s

/-- `sll`: the amount is xt[4:0] (R433). -/
def execSll (d : Reg) (a : Reg) (b : Reg) (s : State) : Out :=
  issue (.sll d a b) (fun s => s.retX d (s.x a <<< bits (s.x b).toNat 0 5)) s

/-- `srl` (R433). -/
def execSrl (d : Reg) (a : Reg) (b : Reg) (s : State) : Out :=
  issue (.srl d a b) (fun s => s.retX d (s.x a >>> bits (s.x b).toNat 0 5)) s

/-- `sra` (R433). -/
def execSra (d : Reg) (a : Reg) (b : Reg) (s : State) : Out :=
  issue (.sra d a b) (fun s => s.retX d ((s.x a).sshiftRight (bits (s.x b).toNat 0 5))) s

/-- `rol` (R433). -/
def execRol (d : Reg) (a : Reg) (b : Reg) (s : State) : Out :=
  issue (.rol d a b) (fun s => s.retX d ((s.x a).rotateLeft (bits (s.x b).toNat 0 5))) s

/-- `slt` (R433). -/
def execSlt (d : Reg) (a : Reg) (b : Reg) (s : State) : Out :=
  issue (.slt d a b) (fun s => s.retX d (boolWord ((s.x a).slt (s.x b)))) s

/-- `sltu` (R433). -/
def execSltu (d : Reg) (a : Reg) (b : Reg) (s : State) : Out :=
  issue (.sltu d a b) (fun s => s.retX d (boolWord ((s.x a).ult (s.x b)))) s

/-- `min` (R421). -/
def execMin (d : Reg) (a : Reg) (b : Reg) (s : State) : Out :=
  issue (.min d a b) (fun s => s.retX d (if (s.x a).sle (s.x b) then s.x a else s.x b)) s

/-- `max` (R421). -/
def execMax (d : Reg) (a : Reg) (b : Reg) (s : State) : Out :=
  issue (.max d a b) (fun s => s.retX d (if (s.x b).sle (s.x a) then s.x a else s.x b)) s

/-- `minu` (R421). -/
def execMinu (d : Reg) (a : Reg) (b : Reg) (s : State) : Out :=
  issue (.minu d a b) (fun s => s.retX d (if (s.x a).ule (s.x b) then s.x a else s.x b)) s

/-- `maxu` (R421). -/
def execMaxu (d : Reg) (a : Reg) (b : Reg) (s : State) : Out :=
  issue (.maxu d a b) (fun s => s.retX d (if (s.x b).ule (s.x a) then s.x a else s.x b)) s

/-- `mul` (R421). -/
def execMul (d : Reg) (a : Reg) (b : Reg) (s : State) : Out :=
  issue (.mul d a b) (fun s => s.retX d (s.x a * s.x b)) s

/-- `mulh` (R421). -/
def execMulh (d : Reg) (a : Reg) (b : Reg) (s : State) : Out :=
  issue (.mulh d a b) (fun s => s.retX d (BitVec.ofInt 32 ((s.x a).toInt * (s.x b).toInt / 2 ^ 32))) s

/-- `mulhu` (R421). -/
def execMulhu (d : Reg) (a : Reg) (b : Reg) (s : State) : Out :=
  issue (.mulhu d a b) (fun s => s.retX d (BitVec.ofNat 32 ((s.x a).toNat * (s.x b).toNat / 2 ^ 32))) s

/-- `div` (R369). -/
def execDiv (d : Reg) (a : Reg) (b : Reg) (s : State) : Out :=
  issue (.div d a b) (fun s => s.retX d (divWord (s.x a) (s.x b))) s

/-- `divu` (R369). -/
def execDivu (d : Reg) (a : Reg) (b : Reg) (s : State) : Out :=
  issue (.divu d a b) (fun s => s.retX d (divuWord (s.x a) (s.x b))) s

/-- `rem` (R434). -/
def execRem (d : Reg) (a : Reg) (b : Reg) (s : State) : Out :=
  issue (.rem d a b) (fun s => s.retX d (remWord (s.x a) (s.x b))) s

/-- `remu` (R434). -/
def execRemu (d : Reg) (a : Reg) (b : Reg) (s : State) : Out :=
  issue (.remu d a b) (fun s => s.retX d (remuWord (s.x a) (s.x b))) s

/-- `bfx`: position xt[4:0], width xt[13:8] (R368). -/
def execBfx (d : Reg) (a : Reg) (b : Reg) (s : State) : Out :=
  issue (.bfx d a b) (fun s => s.retX d (fieldExtract (s.x a) (s.x b))) s

/-- `bfi`: xd is also a source (R368). -/
def execBfi (d : Reg) (a : Reg) (b : Reg) (s : State) : Out :=
  issue (.bfi d a b) (fun s => s.retX d (fieldInsert (s.x d) (s.x a) (s.x b))) s

/-- `clz` (R367). -/
def execClz (d : Reg) (a : Reg) (s : State) : Out :=
  issue (.clz d a) (fun s => s.retX d (BitVec.ofNat 32 (leadingZeros (s.x a)))) s

/-- `ctz` (R367). -/
def execCtz (d : Reg) (a : Reg) (s : State) : Out :=
  issue (.ctz d a) (fun s => s.retX d (BitVec.ofNat 32 (trailingZeros (s.x a)))) s

/-- `popc` (R433). -/
def execPopc (d : Reg) (a : Reg) (s : State) : Out :=
  issue (.popc d a) (fun s => s.retX d (BitVec.ofNat 32 (onesCount (s.x a).toNat 32))) s

/-- `sext.b` (R433). -/
def execSextB (d : Reg) (a : Reg) (s : State) : Out :=
  issue (.sextB d a) (fun s => s.retX d (((s.x a).setWidth 8).signExtend 32)) s

/-- `sext.h` (R433). -/
def execSextH (d : Reg) (a : Reg) (s : State) : Out :=
  issue (.sextH d a) (fun s => s.retX d (((s.x a).setWidth 16).signExtend 32)) s

/-- `zext.b` (R499). -/
def execZextB (d : Reg) (a : Reg) (s : State) : Out :=
  issue (.zextB d a) (fun s => s.retX d (((s.x a).setWidth 8).setWidth 32)) s

/-- `zext.h` (R499). -/
def execZextH (d : Reg) (a : Reg) (s : State) : Out :=
  issue (.zextH d a) (fun s => s.retX d (((s.x a).setWidth 16).setWidth 32)) s

/-- `addi` (R367). -/
def execAddi (d : Reg) (a : Reg) (i : BitVec 16) (s : State) : Out :=
  issue (.addi d a i) (fun s => s.retX d (s.x a + s.immS i)) s

/-- `andi` (R367). -/
def execAndi (d : Reg) (a : Reg) (i : BitVec 16) (s : State) : Out :=
  issue (.andi d a i) (fun s => s.retX d (s.x a &&& s.immZ i)) s

/-- `ori` (R433). -/
def execOri (d : Reg) (a : Reg) (i : BitVec 16) (s : State) : Out :=
  issue (.ori d a i) (fun s => s.retX d (s.x a ||| s.immZ i)) s

/-- `xori` (R497). -/
def execXori (d : Reg) (a : Reg) (i : BitVec 16) (s : State) : Out :=
  issue (.xori d a i) (fun s => s.retX d (s.x a ^^^ s.immZ i)) s

/-- `slti` (R433). -/
def execSlti (d : Reg) (a : Reg) (i : BitVec 16) (s : State) : Out :=
  issue (.slti d a i) (fun s => s.retX d (boolWord ((s.x a).slt (s.immS i)))) s

/-- `sltiu`: the immediate compares as unsigned (R345, R433). -/
def execSltiu (d : Reg) (a : Reg) (i : BitVec 16) (s : State) : Out :=
  issue (.sltiu d a i) (fun s => s.retX d (boolWord ((s.x a).ult (s.immS i)))) s

/-- `lui` (R419). -/
def execLui (d : Reg) (i : BitVec 16) (s : State) : Out :=
  issue (.lui d i) (fun s => s.retX d (i ++ (0 : BitVec 16))) s

/-- `slli` (R433). -/
def execSlli (d : Reg) (a : Reg) (h : Reg) (s : State) : Out :=
  issue (.slli d a h) (fun s => s.retX d (s.x a <<< h.toNat)) s

/-- `srli` (R433). -/
def execSrli (d : Reg) (a : Reg) (h : Reg) (s : State) : Out :=
  issue (.srli d a h) (fun s => s.retX d (s.x a >>> h.toNat)) s

/-- `srai` (R433). -/
def execSrai (d : Reg) (a : Reg) (h : Reg) (s : State) : Out :=
  issue (.srai d a h) (fun s => s.retX d ((s.x a).sshiftRight h.toNat)) s

/-- `addpi`: the 32-bit or 16-bit immediate is sign-extended to 64 bits (R73, R370). -/
def execAddpi (d : Reg) (a : Reg) (i : BitVec 16) (s : State) : Out :=
  issue (.addpi d a i) (fun s => s.retP d (s.p a + (s.immS i).signExtend 64)) s

/-- `addp` (R370). -/
def execAddp (d : Reg) (a : Reg) (b : Reg) (s : State) : Out :=
  issue (.addp d a b) (fun s => s.retP d (s.p a + (s.x b).signExtend 64)) s

/-- `subp` (R456). -/
def execSubp (d : Reg) (a : Reg) (b : Reg) (s : State) : Out :=
  issue (.subp d a b) (fun s => s.retP d (s.p a - s.p b)) s

/-- `movp` (R428). -/
def execMovp (d : Reg) (a : Reg) (s : State) : Out :=
  issue (.movp d a) (fun s => s.retP d (s.p a)) s

end Sys2Proof.Machine
end

