-- ==== Sys2Proof/Machine/Access.lean ====
section
/-! DEFINITION. Where an address leads: the path table with its access checks (R77 to R94, R203, R226, R234), decode views,
and the store buffer's forwarding (R119). -/

namespace Sys2Proof.Machine

/-- The thread of a slot as an issuer. -/
def State.issuerOf (s : State) (c n : Nat) : Issuer :=
  let t := s.thread c n
  let a := t.act.getD {}
  { core := c, slot := n, sup := t.csr.mode, gang := a.gang, asid := a.asid, window := a.rowOf.map fun _ => a.window,
    gustProfile := (match a.kind with | .gust p _ => some p | _ => none),
    tag := if a.kind = .task then some a.tag.toNat else none }

/-- The thread whose turn it is, as an issuer. -/
def State.issuer (s : State) : Issuer := s.issuerOf s.cur s.slot

/-- What an access does (R83, R126): `scope` is the scope of an atomic, `lr` or `sc`. -/
inductive Access where
  | load | store
  | atomic (scope : Nat)
  deriving DecidableEq, Repr

/-- The access is an atomic. -/
def Access.isAtomic : Access → Bool
  | .atomic _ => true
  | _ => false

/-- The kind of access a translation needs (R106). -/
def Access.kind : Access → AccessKind
  | .load => .load
  | .store => .store
  | .atomic _ => .atomic

/-- The formats of the decode views (R89). -/
inductive View where
  | w4 | w3 | mxint8 | e4m3 | e5m2
  deriving DecidableEq, Repr

/-- Where an address leads. -/
inductive Place where
  | mem (loc : Nat)
  | virt (path va : Nat)
  | view (v : View) (off : Nat)
  | mailbox (slot off : Nat)
  | egress (q off : Nat)
  | slice (n off : Nat)
  | device (off : Nat)
  deriving DecidableEq, Repr

/-- The answer of the access check: a place, a fault class with the offset of the first byte at fault, or a wait for a
resource of the tile (R82, R85, R310). -/
inductive Reach where
  | to (p : Place)
  | fault (code off : Nat)
  | wait
  deriving DecidableEq, Repr

/-! Own SRAM (R79, R84, R85, R88, R264). -/

/-- The end of a tile's scratchpad (R84, R88). -/
def State.scratchEnd (s : State) (c : Nat) : Nat :=
  if coreType c = .reflex then 0x2F0000 else l1StartOf (s.core c).l1cfg

/-- Bytes `lo` to `hi - 1` of the issuer's own SRAM touch a region that the issuer's mode may not use (R84, R88). -/
def ownPriv (i : Issuer) (lo hi : Nat) : Bool :=
  match coreType i.core with
  | .reasoning => !(i.sup || i.gustProfile.isSome) && decide (lo < 0x200000) && decide (0x1B0000 < hi)
  | .reflex => !i.sup && decide (lo < 0x300000) && decide (0x2F0000 < hi)
  | _ => false

/-- The fault class of a raw access to bytes `lo` to `hi - 1` of the issuer's own SRAM, 0 when it is allowed; PRIV stands
above RANGE (R83). -/
def State.ownClass (s : State) (i : Issuer) (lo hi : Nat) : Nat :=
  if ownPriv i lo hi then causePriv
  else
  match coreType i.core with
  | .reasoning =>
    if hi ≤ s.scratchEnd i.core ∨ (hi ≤ 0x200000 ∧ (0x1B0000 ≤ lo ∨ s.scratchEnd i.core = 0x1B0000)) then 0 else causeRange
  | .reflex => if hi ≤ 0x300000 then 0 else causeRange
  | .agent =>
    match i.window with
    | some w =>
      if i.sup then (if hi ≤ 0x20000 then 0 else causeRange)
      else if w.1 ≤ lo ∧ hi ≤ w.1 + w.2 then 0 else causeRange
    | none => if hi ≤ 0x20000 then 0 else causeRange
  | .frontEnd => if hi ≤ 0x80000 then 0 else causeRange

/-- A raw access to own SRAM is allowed (R38, R40, R84, R88). -/
def State.ownAllowed (s : State) (i : Issuer) (lo n : Nat) : Bool := s.ownClass i lo (lo + n) == 0

/-- The bytes lie in the range that a change of `l1cfg` in progress affects (R85). -/
def State.l1Busy (s : State) (c lo hi : Nat) : Bool :=
  match (s.core c).l1pending with
  | none => false
  | some new =>
    let from_ := min (l1StartOf new) (l1StartOf (s.core c).l1cfg)
    decide (from_ < hi) && decide (lo < 0x1B0000)

/-! Views (R89, R90). -/

/-- The view of a path. -/
def viewOf (path : Nat) : View :=
  if path = 0x11 then .w4 else if path = 0x12 then .w3 else if path = 0x13 then .mxint8
  else if path = 0x14 then .e4m3 else .e5m2

/-- First packed byte of element I of a view and the number of bytes it draws on (R89). -/
def View.data (v : View) (e : Nat) : Nat × Nat :=
  match v with
  | .w4 => (e / 2, 1)
  | .w3 =>
    let b := 3 * (e % 32)
    (12 * (e / 32) + b / 8, (b + 2) / 8 - b / 8 + 1)
  | _ => (e, 1)

/-- The scale of element I of a view: its first byte and size, none for the formats without a scale (R89). -/
def State.viewScale (s : State) (c : Nat) (v : View) (e : Nat) : Option (Nat × Nat) :=
  let x := (s.core c).cx
  match v with
  | .w4 => some ((x.w4sc.toNat + 2 * (e / 32)) % 2 ^ 32, 2)
  | .w3 => some ((x.w3sc.toNat + 2 * (e / 32)) % 2 ^ 32, 2)
  | .mxint8 => some ((x.mxsc.toNat + e / 32) % 2 ^ 32, 1)
  | _ => none

/-- Every byte element I draws on lies where a raw access is allowed (R89). -/
def State.viewAllowed (s : State) (i : Issuer) (v : View) (e : Nat) : Bool :=
  let d := v.data e
  s.ownAllowed i d.1 d.2 &&
    (match s.viewScale i.core v e with
      | some (a, n) => s.ownAllowed i a n
      | none => true)

/-- The value of an integer element times a scale (R89, R90). -/
def scaledInt (q : Int) (scale : Num) : Num := (mulNum (Num.ofInt q) scale).1

/-- The BF16 value of element I through a view (R90). -/
def State.viewElement (s : State) (c : Nat) (v : View) (e : Nat) : Nat :=
  let byte (a n : Nat) := s.readNat (sramLoc c a) n
  let d := v.data e
  let raw := byte d.1 d.2
  let scaled (q : Int) : Nat :=
    match s.viewScale c v e with
    | some (a, _) => (roundFloat .bf16 0 false (scaledInt q (decodeFloat .bf16 (byte a 2)))).1
    | none => 0
  match v with
  | .w4 => scaled (signed (bits raw (4 * (e % 2)) 4) 4)
  | .w3 => scaled (signed (bits raw (3 * (e % 32) % 8) 3) 3)
  | .mxint8 =>
    match s.viewScale c v e with
    | some (a, _) =>
      let x := byte a 1
      if x = 0xFF then 0x7FC0
      else
        let q := signed raw 8
        (roundFloat .bf16 0 false (.fin (decide (q < 0)) q.natAbs ((x : Int) - 133))).1
    | none => 0
  | .e4m3 => (roundFloat .bf16 0 false (decodeFloat .e4m3 raw)).1
  | .e5m2 => (roundFloat .bf16 0 false (decodeFloat .e5m2 raw)).1

/-- The first poisoned granule that element I touches, as the raw offset of the granule (R313). -/
def State.viewPoison (s : State) (c : Nat) (v : View) (e : Nat) : Option Nat :=
  let at_ (a n : Nat) := (s.poisoned (sramLoc c a) (sramLoc c a + n)).map (· - sramLoc c 0)
  let d := v.data e
  at_ d.1 d.2 <|>
    (match s.viewScale c v e with
      | some (a, n) => at_ a n
      | none => none)

/-! Other units' memory. -/

/-- The members of a gang (R43). -/
def State.gangSize (s : State) (g : Option (Nat × Nat)) : Nat :=
  match g with
  | none => 0
  | some p => ((s.gang p.1).map (·.n)).getD 0

/-- A thread is an activation of HTAG on HTILE of a profile (R213). -/
def State.isHolder (s : State) (i : Issuer) (p : Nat) : Bool :=
  let r := (FMap.get s.gusts p {}).reg.toNat
  i.core == 256 + bits r 110 5 && i.tag == some (bits r 88 16)

/-- The seizure whose windows path 0x19 reaches: that of Gust code, or the one a reflex handler holds; the lowest-numbered
when a handler holds several (R94, log entry 7). Code of a seizure that has been released has none, even where its profile is
seized again (R94, R218; log entry 44). -/
def State.seizureOf (s : State) (i : Issuer) : Option Nat :=
  match i.gustProfile with
  | some p =>
    let old := (s.thread i.core i.slot).act.any fun a => a.kind.isGust && decide (a.start < (FMap.get s.gusts p {}).accepted)
    if old then none else some p
  | none =>
    if coreType i.core = .reflex then
      (List.range 16).find? fun p => (FMap.get s.gusts p {}).held && s.isHolder i p
    else none

/-- A mailbox slot (R202). -/
def State.mbSlot (s : State) (n : Nat) : MbSlot := FMap.get s.mbs n {}

/-- Slot configured (R202). -/
def MbSlot.valid (k : MbSlot) : Bool := bit k.reg.toNat 127
/-- Size of a version image in bytes (R202). -/
def MbSlot.size (k : MbSlot) : Nat := 64 * bits k.reg.toNat 111 15
/-- First byte of a buffer in the mailbox (R202). -/
def MbSlot.base (k : MbSlot) (b : Nat) : Nat := bits k.reg.toNat 0 25 + b * k.size
/-- A buffer of a slot. -/
def MbSlot.buf (k : MbSlot) (b : Nat) : MbBuffer := if b = 0 then k.b0 else if b = 1 then k.b1 else if b = 2 then k.b2 else k.b3
/-- Change a buffer of a slot. -/
def MbSlot.setBuf (k : MbSlot) (b : Nat) (v : MbBuffer) : MbSlot :=
  if b = 0 then { k with b0 := v } else if b = 1 then { k with b1 := v } else if b = 2 then { k with b2 := v } else { k with b3 := v }
/-- The OPEN buffer (R204). -/
def MbSlot.openBuf (k : MbSlot) : Option Nat := (List.range 4).find? fun b => (k.buf b).st == .opened
/-- The LATEST buffer (R204). -/
def MbSlot.latest (k : MbSlot) : Option Nat := (List.range 4).find? fun b => (k.buf b).st == .latest

/-- The thread is an activation of a slot's writer binding (R203, R205). -/
def MbSlot.isWriter (k : MbSlot) (i : Issuer) : Bool :=
  let r := k.reg.toNat
  let core := if bit r 71 then 256 + bits r 72 8 else bits r 72 8
  i.core == core && i.tag == some (bits r 80 16)

/-- A timed stream (R226). -/
def State.streamAt (s : State) (n : Nat) : Stream := FMap.get s.streams n {}
/-- Stream configured. -/
def Stream.valid (k : Stream) : Bool := bit k.reg.toNat 127
/-- Window size in bytes (R226). -/
def Stream.size (k : Stream) : Nat := 2 ^ bits k.reg.toNat 118 5
/-- Physical address of the window (R226). -/
def Stream.base (k : Stream) : Nat := 4096 * bits k.reg.toNat 48 36

/-- An egress queue (R233). -/
def State.egressAt (s : State) (q : Nat) : Egress := FMap.get s.egress q {}

/-! The path table (R78, R80, R83). -/

/-- The path byte of an address. -/
def pathByte (a : Dword) : Nat := bits a.toNat 56 8

/-- A path the table has (R78). -/
def pathKnown (p : Nat) : Bool :=
  [0x00, 0x01, 0x08, 0x09, 0x10, 0x11, 0x12, 0x13, 0x14, 0x15, 0x18, 0x19, 0x20, 0x21, 0x28, 0x2C, 0x30, 0x3F].contains p

/-- The feature that gates a path (R336). -/
def pathFeature (p : Nat) : Nat :=
  if p = 0x09 then 2 else if p = 0x20 ∨ p = 0x21 then 4 else if p = 0x28 ∨ p = 0x2C then 7 else 0

/-- The fault class of a path for a core type and the issuer's mode, 0 when it is available (R78, R80). -/
def pathClass (t : CoreType) (gust sup : Bool) (p : Nat) : Nat :=
  if !pathKnown p then causePath
  else if isTranslated p then (if t = .reflex ∨ gust then causeNodram else 0)
  else if p = 0x10 then 0
  else if t = .agent ∨ t = .frontEnd then
    if p = 0x30 ∨ p = 0x3F then (if sup then 0 else causePriv) else causePath
  else if p = 0x19 then (if t = .reflex ∨ gust then 0 else causePath)
  else if p = 0x18 then (if gust then causePath else 0)
  else if p = 0x30 then (if t = .reflex ∨ gust then causePath else if sup then 0 else causePriv)
  else if p = 0x3F then (if gust then causePath else if sup then 0 else causePriv)
  else 0

/-- The checks of a path that need no offset: PATH, NODRAM and PRIV of a path marked S (R181). -/
def State.pathCheck (s : State) (i : Issuer) (p : Nat) : Nat :=
  if !s.feature (pathFeature p) then causePath else pathClass (coreType i.core) i.gustProfile.isSome i.sup p

/-- A path on which stores are refused (R83). -/
def readOnlyPath (p : Nat) : Bool := [0x01, 0x11, 0x12, 0x13, 0x20, 0x28].contains p

/-- A path takes atomics of a scope (R78, R126). -/
def atomicOk (p scope : Nat) : Bool :=
  if p = 0x00 then scope != 0 else if p = 0x08 ∨ p = 0x09 then scope == 3
  else if p = 0x10 ∨ p = 0x18 ∨ p = 0x19 then scope == 0 else false

/-- DIR and ATOM, which stand below RANGE (R83, R127): the class, or 0. -/
def State.dirClass (s : State) (p : Nat) (acc : Access) : Nat :=
  match acc with
  | .load => if p = 0x2C then causeDir else 0
  | .store => if readOnlyPath p then causeDir else 0
  | .atomic scope => if !atomicOk p scope || ((p = 0x08 ∨ p = 0x09) && !s.feature 1) then causeAtom else 0

/-- The target of path 0x18: a core, a fault class (PRIV or RANGE), and whether FOREIGN or a wait follows (R93, R310). -/
def State.remoteTarget (s : State) (i : Issuer) (a : Nat) : Nat ⊕ Nat :=
  let id := bits a 32 8
  if bit a 40 then
    if id < s.gangSize i.gang then
      match s.memberTile i.gang id with
      | some c => .inl c
      | none => .inr causeRange
    else .inr causeRange
  else if !i.sup then .inr causePriv
  else if coreType i.core = .reflex then (if id < 32 then .inl (256 + id) else .inr causeRange)
  else if (s.partOf id).isSome then .inl id
  else .inr causeRange

/-- The region checks, PRIV and RANGE by offset, and where the bytes `lo` to `hi - 1` of an address lead (R77, R83). The
answer's code is 0 with a place, or a class. -/
def State.region (s : State) (i : Issuer) (a : Dword) (lo hi : Nat) : Nat × Place :=
  let v := bits a.toNat 0 56
  let p := pathByte a
  let none_ : Place := .device 0
  let off := bits v 0 32
  if isTranslated p then
    if bits v 48 8 ≠ 0 then (causeRange, none_) else (0, .virt p (v + lo))
  else if p = 0x10 then
    if bits v 32 24 ≠ 0 then (if ownPriv i (off + lo) (off + hi) then causePriv else causeRange, none_)
    else (s.ownClass i (off + lo) (off + hi), .mem (sramLoc i.core (off + lo)))
  else if p ≤ 0x15 then
    if bits v 32 24 ≠ 0 then (causeRange, none_) else (0, .view (viewOf p) off)
  else if p = 0x18 then
    match s.remoteTarget i v with
      | .inr code => (code, none_)
      | .inl c =>
        if bits v 41 15 ≠ 0 then (causeRange, none_) else (if off + hi ≤ s.scratchEnd c then 0 else causeRange, .mem (sramLoc c (off + lo)))
  else if p = 0x19 then
    if bits v 38 18 ≠ 0 ∨ bits v 18 14 ≠ 0 then (causeRange, none_)
    else
      match s.seizureOf i with
      | none => (causeRange, none_)
      | some g =>
        let k := FMap.get s.gusts g {}
        match k.tiles[bits v 32 6]? with
        | none => (causeRange, none_)
        | some t =>
          (if k.held && decide (bits v 0 18 + hi ≤ 0x40000) then 0 else causeRange,
            .mem (sramLoc t (0x1B0000 + bits v 0 18 + lo)))
  else if p = 0x20 ∨ p = 0x21 then
    let n := bits v 20 12
    let o := bits v 0 20
    let k := s.mbSlot n
    if bits v 32 24 ≠ 0 ∨ !k.valid ∨ k.size < o + hi then (causeRange, none_)
    else if p = 0x20 then (0, .mailbox n (o + lo))
    else if o + lo < 32 ∨ !k.isWriter i then (causeRange, none_)
    else
      match k.openBuf with
      | none => (causeRange, none_)
      | some b => (0, .mem (mbLoc (k.base b + o + lo)))
  else if p = 0x28 then
    let k := s.streamAt (bits v 32 7)
    if bits v 39 17 ≠ 0 ∨ bits v 24 8 ≠ 0 ∨ !k.valid then (causeRange, none_)
    else (0, .mem (dramLoc (k.base + (bits v 0 24 + lo) % k.size)))
  else if p = 0x2C then
    let q := bits v 32 8
    if bits v 40 16 ≠ 0 ∨ bits v 24 8 ≠ 0 ∨ 16 ≤ q ∨ !(s.egressAt q).v ∨ 2048 < bits v 0 24 + hi then (causeRange, none_)
    else (0, .egress q (bits v 0 24 + lo))
  else if p = 0x30 then
    if bits v 38 18 ≠ 0 ∨ bits v 24 8 ≠ 0 then (causeRange, none_) else (0, .slice (bits v 32 6) (bits v 0 24 + lo))
  else if bits v 32 24 ≠ 0 then (causeRange, none_) else (0, .device (off + lo))

/-- A physical id on path 0x18 that names a tile of another address-space id (R83, R93). -/
def State.isForeign (s : State) (i : Issuer) (a : Dword) : Bool :=
  pathByte a == 0x18 && !bit a.toNat 40 &&
    (match s.remoteTarget i a.toNat with
      | .inl c => (match s.partOf c with | some q => q.asid != i.asid | none => false)
      | .inr _ => false)

/-- The access waits for a tile of a partition that is not RUNNING (R310). -/
def State.mustWait (s : State) (i : Issuer) (a : Dword) : Bool :=
  pathByte a == 0x18 &&
    (match s.remoteTarget i (bits a.toNat 0 56) with
      | .inl c => isAway c ||
        (match s.partOf c with | some q => (q.st != .running || (s.core c).saved.isSome) && c != i.core | none => false)
      | .inr _ => false)

/-- The elements of a view that bytes `lo` to `hi - 1` from an offset touch. -/
def viewElements (off lo hi : Nat) : List Nat :=
  (List.range ((off + hi - 1) / 2 + 1 - (off + lo) / 2)).map fun j => (off + lo) / 2 + j

/-- An element of a view draws on bytes that a change of `l1cfg` in progress affects (R85, R89). -/
def State.viewBusy (s : State) (c : Nat) (v : View) (e : Nat) : Bool :=
  let d := v.data e
  s.l1Busy c d.1 (d.1 + d.2) ||
    (match s.viewScale c v e with | some (a, n) => s.l1Busy c a (a + n) | none => false)

/-- The access waits for a change of `l1cfg` in progress on the tile whose scratchpad it reaches: raw, through a view, or from
another tile (R85 step 4). -/
def State.l1Waits (s : State) (i : Issuer) (a : Dword) (lo hi : Nat) : Bool :=
  let p := pathByte a
  let v := bits a.toNat 0 56
  let off := bits v 0 32
  if p = 0x10 then bits v 32 24 == 0 && s.l1Busy i.core (off + lo) (off + hi)
  else if 0x11 ≤ p ∧ p ≤ 0x15 then bits v 32 24 == 0 && (viewElements off lo hi).any (s.viewBusy i.core (viewOf p))
  else if p = 0x18 then
    match s.remoteTarget i v with
    | .inl c => bits v 41 15 == 0 && s.l1Busy c (off + lo) (off + hi)
    | .inr _ => false
  else false

/-- Check an access to the bytes `lo` to `hi - 1` from an address, in the order of R83. `size` is the width that alignment
asks for; a view also refuses an access narrower than its element. -/
def State.reach (s : State) (i : Issuer) (a : Dword) (size lo hi : Nat) (acc : Access) : Reach :=
  let p := pathByte a
  let c := s.pathCheck i p
  let isView := decide (0x11 ≤ p) && decide (p ≤ 0x15)
  if c ≠ 0 then .fault c lo
  else
    let r := s.region i a lo hi
    let off := bits a.toNat 0 32
    let bad := if isView then (viewElements off lo hi).find? fun e => !s.viewAllowed i (viewOf p) e else none
    if r.1 = causePriv then .fault causePriv lo
    else if s.l1Waits i a lo hi then .wait
    else if r.1 ≠ 0 then .fault r.1 lo
    else if bad.isSome then .fault causeRange (max lo (2 * bad.getD 0 - off))
    else if s.dirClass p acc ≠ 0 then .fault (s.dirClass p acc) lo
    else if bits a.toNat 0 56 % size ≠ 0 ∨ (isView ∧ size < 2) then .fault causeAlign lo
    else if s.isForeign i a then .fault causeForeign lo
    else if s.mustWait i a then .wait
    else .to r.2

/-! The store buffer (R119). -/

/-- The bytes a buffered store writes. -/
abbrev Buffered := List (Nat × Byte)

/-- The byte a buffered store writes at a location. -/
def Buffered.at_ (b : Buffered) (loc : Nat) : Option Byte := (b.find? fun e => e.1 == loc).map (·.2)

/-- How the buffer serves a load: from memory, from one entry, or not before an entry has performed (R119). -/
inductive Forward where
  | memory
  | bytes (l : List Byte)
  | wait
  deriving DecidableEq, Repr

/-- The newest store of a buffer, oldest first, that overlaps the bytes at some locations decides (R119). -/
def forward (buf : List Buffered) (locs : List Nat) : Forward :=
  match buf.reverse.find? fun b => locs.any fun l => (b.at_ l).isSome with
  | none => .memory
  | some b => if locs.all fun l => (b.at_ l).isSome then .bytes (locs.map fun l => (b.at_ l).getD 0) else .wait

/-! Mailbox images (R203, R209). -/

/-- The header of an image, with the flags a read sets, as a number of 32 bytes (R203). -/
def State.mbHeader (s : State) (n b : Nat) (older stale : Bool) : Nat :=
  let k := s.mbSlot n
  let h := s.readNat (mbLoc (k.base b)) 32
  setBits h 160 3 ((if older then 2 else 0) + (if stale then 1 else 0))

/-- The header of a slot that holds no version (R203, R210). -/
def emptyHeader (stale : Bool) : Nat := (if stale then 5 else 4) * 2 ^ 160

/-- The bytes of the LATEST image of a slot from an offset (R203, R209). -/
def State.mbBytes (s : State) (n off len : Nat) : List Byte :=
  let k := s.mbSlot n
  match k.latest with
  | some b => s.read (mbLoc (k.base b + off)) len
  | none => (leBytes 64 (emptyHeader false)).drop off |>.take len |> fun l => l ++ List.replicate (len - l.length) 0

/-- The locations of the bytes a path 0x20 read takes, when a version is there (R209). -/
def State.mbLoc? (s : State) (n off : Nat) : Option Nat := (s.mbSlot n).latest.map fun b => mbLoc ((s.mbSlot n).base b + off)

/-! Timed egress (R222, R224, R234, R235). -/

/-- A frame of a queue may not leave this device now (R222, R224). -/
def State.egressHeld (s : State) (q : Egress) : Bool :=
  let h := s.spare
  (h.role == 2 && !h.taken && q.standby) || (h.role == 1 && h.taken)

/-- Commit a staged layout of bytes to a queue: the frame joins it or is discarded (R184, R234). -/
def State.commitFrame (s : State) (q : Nat) (room : Nat) (bs : List Byte) : State :=
  let k := s.egressAt q
  let launch := leNat (bs.take 8)
  let len := leNat ((bs.drop 8).take 2)
  let bad := len < 60 ∨ 1514 < len ∨ room < 32 + len ∨ ((bs.drop 10).take 22).any (· != 0) ∨ 64 ≤ k.frames.length ∨
    launch + 1000 < s.clock.now ∨ s.egressHeld k
  let k := if bad then { k with dropped := k.dropped + 1 }
    else { k with frames := k.frames ++ [{ launch := launch, bytes := (bs.drop 32).take len }] }
  { s with egress := FMap.put s.egress q k }

/-- A thread's store to the staging area of a queue (R234, R235). -/
def State.stageBytes (s : State) (i : Issuer) (q : Nat) (cells : List (Nat × Byte)) : State :=
  let k := s.egressAt q
  let me := (i.core, i.slot, (s.thread i.core i.slot).csr.ctxid)
  let commits := cells.any fun e => e.1 == 0
  if k.claim.isSome && k.claim != some me then
    if commits then { s with egress := FMap.put s.egress q { k with dropped := k.dropped + 1 } } else s
  else
    let stage := cells.foldl (fun m e => FMap.set m e.1 e.2 0) k.stage
    if commits then
      let s := { s with egress := FMap.put s.egress q { k with claim := none, stage := [] } }
      s.commitFrame q 2048 ((List.range 2048).map fun o => FMap.get stage o 0)
    else { s with egress := FMap.put s.egress q { k with claim := some me, stage := stage } }

end Sys2Proof.Machine
end

