-- ==== Sys2Proof/Machine/Hash.lean ====
section
/-! DEFINITION. SHA-256, which measures the firmware, code objects and agent rows (R337, R339). -/

namespace Sys2Proof.Machine

/-- Some number from 2 up to `d` divides `n` and is smaller than it. -/
def hasFactor (n : Nat) : Nat → Bool
  | 0 => false
  | d + 1 => (decide (2 ≤ d + 1 ∧ d + 1 < n) && n % (d + 1) == 0) || hasFactor n d

/-- The primes below 312, of which there are 64. -/
def shaPrimes : List Nat := ((List.range 312).drop 2).filter fun n => !hasFactor n 17

/-- Raise `r`, bit by bit from bit `b - 1` down, to the greatest number whose `k`-th power does not pass `v`. -/
def rootFrom (v k : Nat) : Nat → Nat → Nat
  | 0, r => r
  | b + 1, r => rootFrom v k b (if (r + 2 ^ b) ^ k ≤ v then r + 2 ^ b else r)

/-- The first 32 bits behind the point of the `k`-th root of `p`. -/
def rootWord (k p : Nat) : Word := BitVec.ofNat 32 (rootFrom (p * 2 ^ (32 * k)) k 37 0)

/-- The round constants: of the cube roots of the first 64 primes. -/
def shaKeys : List Word := shaPrimes.map (rootWord 3)

/-- The initial hash value: of the square roots of the first eight primes. -/
def shaInit : List Word := (shaPrimes.take 8).map (rootWord 2)

/-- The big-endian word of four bytes. -/
def beWord (b : List Byte) : Word := (b.getD 0 0) ++ (b.getD 1 0) ++ (b.getD 2 0) ++ (b.getD 3 0)

/-- The bytes of a word, most significant first. -/
def beBytes (w : Word) : List Byte := (leBytes 4 w.toNat).reverse

/-- The exclusive or of a word's rotations by two amounts with a third word. -/
def mixed (w : Word) (p q : Nat) (x : Word) : Word := w.rotateRight p ^^^ (w.rotateRight q ^^^ x)

/-- Put `n` more words before a message schedule that is held newest word first. -/
def shaSchedule : Nat → List Word → List Word
  | 0, w => w
  | n + 1, w =>
    let old := w.getD 14 0
    let new := w.getD 1 0
    shaSchedule n ((mixed old 7 18 (old >>> 3) + mixed new 17 19 (new >>> 10) + w.getD 6 0 + w.getD 15 0) :: w)

/-- One round on the eight working words, with a round constant and a word of the schedule. -/
def shaRound (l : List Word) (key word : Word) : List Word :=
  let x (i : Nat) : Word := l.getD i 0
  let pick := x 6 ^^^ (x 4 &&& (x 5 ^^^ x 6))
  let most := (x 0 &&& x 1) ||| (x 2 &&& (x 0 ||| x 1))
  let rise := key + word + pick + mixed (x 4) 6 11 ((x 4).rotateRight 25) + x 7
  [rise + most + mixed (x 0) 2 13 ((x 0).rotateRight 22), x 0, x 1, x 2, rise + x 3, x 4, x 5, x 6]

/-- Compress one block of 64 bytes. -/
def shaBlock (h : List Word) (block : List Byte) : List Word :=
  let first := (List.range 16).map fun i => beWord (block.drop (4 * i))
  let w := (shaSchedule 48 first.reverse).reverse
  let r := (List.range 64).foldl (fun l i => shaRound l (shaKeys.getD i 0) (w.getD i 0)) h
  List.zipWith (· + ·) h r

/-- The padding of a message of `n` bytes. -/
def shaPad (n : Nat) : List Byte :=
  0x80 :: (List.replicate ((119 - n % 64) % 64) 0 ++ (leBytes 8 (8 * n)).reverse)

/-- Compress the blocks of a padded message in order; `n` counts them. -/
def shaBlocks : Nat → List Word → List Byte → List Word
  | 0, h, _ => h
  | n + 1, h, b => shaBlocks n (shaBlock h (b.take 64)) (b.drop 64)

/-- SHA-256 of some bytes. -/
def sha256 (m : List Byte) : List Byte :=
  let p := m ++ shaPad m.length
  (shaBlocks (p.length / 64) shaInit p).flatMap beBytes

end Sys2Proof.Machine
end

