-- ==== Sys2Proof/Machine/Versions.lean ====
section
/-! DEFINITION. The versions of the mailbox: pins, clean versions, reads that meet poison, and the copies of `mbsnap`
(R202 to R204, R207, R208, R210). -/

namespace Sys2Proof.Machine

/-- Replace a mailbox slot. -/
def State.setMb (s : State) (n : Nat) (k : MbSlot) : State := { s with mbs := FMap.put s.mbs n k }

/-- The newest clean version: the highest VER in a buffer that is not OPEN and not BAD (R210). -/
def MbSlot.newestClean (k : MbSlot) : Option Nat :=
  (List.range 4).foldl (fun a b =>
    let v := k.buf b
    if v.st = .opened ∨ v.bad ∨ v.ver = 0 then a
    else match a with
      | none => some b
      | some c => if (k.buf c).ver < v.ver then some b else a) none

/-- The buffer a read takes and whether STALE_ECC is set: the LATEST one, or the newest clean version when that is BAD
(R207, R210). -/
def MbSlot.source (k : MbSlot) : Option Nat × Bool :=
  match k.latest with
  | none => (none, false)
  | some b => if (k.buf b).bad then (k.newestClean, true) else (some b, false)

/-- The first `len` bytes of the image in a buffer are free of poison. -/
def State.mbClean (s : State) (n b len : Nat) : Bool :=
  let a := mbLoc ((s.mbSlot n).base b)
  (s.poisoned a (a + len)).isNone

/-- The first bytes of an image as a reader sees them, its flags in place; with no version, those of an empty slot (R203). -/
def State.mbImage (s : State) (n : Nat) (b : Option Nat) (older stale : Bool) (len : Nat) : List Byte :=
  let k := s.mbSlot n
  let all := match b with
    | some b => leBytes 32 (s.mbHeader n b older stale) ++ s.read (mbLoc (k.base b) + 32) (min len k.size - 32)
    | none => leBytes 32 (emptyHeader stale)
  let l := all.take len
  l ++ List.replicate (len - l.length) 0

/-- The pinned buffers of a slot. -/
def MbSlot.pinned (k : MbSlot) : List Nat := (List.range 4).filter fun b => decide (0 < (k.buf b).pins)

/-- The newer of the pinned buffers that are not BAD (R208). -/
def MbSlot.newerPinned (k : MbSlot) : Option Nat :=
  k.pinned.foldl (fun a b =>
    if (k.buf b).bad then a
    else match a with
      | none => some b
      | some c => if (k.buf c).ver < (k.buf b).ver then some b else a) none

/-- The buffer an `mbsnap` pins or shares, with OLDER and STALE_ECC (R208, R210); none when no version can be read. -/
def MbSlot.snapTarget (k : MbSlot) : Option Nat × Bool × Bool :=
  let src := k.source
  match src.1 with
  | none => (none, false, src.2)
  | some b =>
    if 0 < (k.buf b).pins ∨ k.pinned.length < 2 then (some b, false, src.2)
    else
      match k.newerPinned with
      | some c => (some c, c != b, src.2)
      | none => (some b, false, src.2)

/-- One more copy pins a buffer. -/
def MbSlot.pin (k : MbSlot) (b : Nat) : MbSlot := k.setBuf b { k.buf b with pins := (k.buf b).pins + 1 }

/-- A copy no longer pins a buffer. -/
def MbSlot.unpin (k : MbSlot) (b : Nat) : MbSlot := k.setBuf b { k.buf b with pins := (k.buf b).pins - 1 }

/-- A copy in flight gets its buffer, which it pins, or the empty image when there is no version (R203, R208). -/
def State.snapPin (s : State) (c : Snap) (stale : Bool) : Snap × State :=
  let k := s.mbSlot c.slot
  let t := k.snapTarget
  match t.1 with
  | some b => ({ c with buf := b, older := t.2.1, stale := stale || t.2.2 }, s.setMb c.slot (k.pin b))
  | none => ({ c with bytes := some (s.mbImage c.slot none false (stale || t.2.2) k.size) }, s)

/-- A buffer becomes BAD, with a record (R210, R316): for a copy it names the issuer of the `mbsnap` (R311), for a read by
`mbld` or `mbver` the mailbox (R315, log entry 62). Every copy under way from it starts again from the newest clean version, so that
no BAD buffer stays pinned (R204, R210; log entry 92). -/
def State.mbBad (s : State) (n b : Nat) (copy : Option Snap) : State :=
  let k := s.mbSlot n
  let v := k.buf b
  let what : List RecordField := [(20, 2, n), (22, 1, b), (24, 8, v.ver)]
  let s := match copy with
    | some c => s.record 0x08 2 c.asid.toNat (unitIndex c.tile) c.thread (unitCode c.tile) ((16, 4, c.serial.toNat) :: what)
    | none => s.record 0x08 2 0 0 0 7 what
  let s := s.setMb n (k.setBuf b { v with bad := true, pins := 0 })
  (List.range s.snaps.length).foldl (fun s i =>
    match s.snaps[i]? with
    | none => s
    | some c =>
      if c.slot = n ∧ c.buf = b ∧ c.bytes.isNone then
        let r := s.snapPin c true
        { r.2 with snaps := r.2.snaps.set i r.1 }
      else s) s

/-- Read the first bytes of a slot's version at one point: each buffer that meets poison becomes BAD and the newest clean
version is returned (R207, R210). `fuel` bounds the buffers tried. -/
def State.mbFetch (s : State) (n len : Nat) : Nat → List Byte × State
  | 0 => (s.mbImage n none false true len, s)
  | fuel + 1 =>
    let k := s.mbSlot n
    let src := k.source
    match src.1 with
    | none => (s.mbImage n none false src.2 len, s)
    | some b =>
      if s.mbClean n b (min len k.size) then (s.mbImage n (some b) false src.2 len, s)
      else (s.mbBad n b none).mbFetch n len fuel

/-- The copies under way from a slot keep the bytes they pinned (R202). -/
def State.detachSnaps (s : State) (n : Nat) : State :=
  { s with snaps := s.snaps.map fun c =>
      if c.slot = n ∧ c.bytes.isNone then
        { c with bytes := some (s.mbImage n (some c.buf) c.older c.stale (s.mbSlot n).size) }
      else c }

/-- The bytes of a copy land and its counter gets its add (R208). -/
def State.snapLand (s : State) (c : Snap) (bs : List Byte) : State :=
  (s.store (sramLoc c.core c.dst) bs).addOwnCounter c.core c.thread c.ctr c.gust (BitVec.ofNat 32 bs.length)

/-- A copy runs to its end; one that meets poison starts again from the newest clean version (R208, R210). -/
def State.snapRun (s : State) (c : Snap) : Nat → State
  | 0 => s
  | fuel + 1 =>
    match c.bytes with
    | some bs => s.snapLand c bs
    | none =>
      let k := s.mbSlot c.slot
      if s.mbClean c.slot c.buf k.size then
        (s.snapLand c (s.mbImage c.slot (some c.buf) c.older c.stale k.size)).setMb c.slot (k.unpin c.buf)
      else
        let s := s.mbBad c.slot c.buf (some c)
        let r := s.snapPin c true
        r.2.snapRun r.1 fuel

/-- The copy of a place in the list ends (R208). -/
def State.snapDone (s : State) (i : Nat) : State :=
  match s.snaps[i]? with
  | none => s
  | some c => ({ s with snaps := s.snaps.eraseIdx i } : State).snapRun c 6

/-- The copies to some tiles end: they do not outlast the storage they write. -/
def State.finishSnaps (s : State) (tiles : List Nat) : State :=
  let mine := s.snaps.filter fun c => tiles.contains c.core
  mine.foldl (fun s c => s.snapRun c 6) { s with snaps := s.snaps.filter fun c => !tiles.contains c.core }

end Sys2Proof.Machine
end

