-- ==== Sys2Proof/Machine/Partitions.lean ====
section
/-! DEFINITION. Partitions: the entry register, writes of it, and the commands HALT, SAVE, RESTORE, RESUME, SPILL and FILL
(R304 to R310, R313, R514). -/

namespace Sys2Proof.Machine

/-- A partition-table entry. -/
def State.partAt (s : State) (n : Nat) : Partition := FMap.get s.parts n {}

/-- Change a partition-table entry. -/
def State.modPart (s : State) (n : Nat) (f : Partition → Partition) : State :=
  { s with parts := FMap.put s.parts n (f (s.partAt n)) }

/-- The code of STATE (R304). -/
def PartState.code : PartState → Nat
  | .free => 0 | .running => 1 | .halting => 2 | .halted => 3 | .saved => 4 | .spilled => 5 | .busy => 6

/-- The value of an entry (R304). -/
def Partition.value (p : Partition) : Nat :=
  p.tiles.toNat + p.ccnt.toNat * 2 ^ 425 + p.ctile.toNat * 2 ^ 431 + flagBit p.cen 439 + flagBit p.err 441
    + p.st.code * 2 ^ 445 + p.asid.toNat * 2 ^ 448 + p.spillpa.toNat * 2 ^ 476

/-- The cores of a partition: the reflex array for entry 0, else its tiles (R304). -/
def State.partCores (s : State) (n : Nat) : List Nat :=
  if n = 0 then (List.range 32).map (256 + ·) else tileList (s.partAt n).tiles

/-- A refused command or write sets ERR (R304, R305). -/
def State.partErr (s : State) (n : Nat) : State := s.modPart n fun p => { p with err := true }

/-- A refused command sets ERR and writes a PART record (R305, R316, R318). -/
def State.partRefuse (s : State) (n cmd : Nat) : State :=
  let p := s.partAt n
  (s.feRecord 0x1A 2 p.asid.toNat [(20, 1, n), (21, 1, cmd), (22, 1, p.st.code)]).partErr n

/-! Commands (R305). -/

/-- HALT: every tile stops its slots at the points of R70 (R306). -/
def State.haltPart (s : State) (n : Nat) : State :=
  let s := (s.partCores n).foldl (fun s c => (s.modCore c fun k => { k with halting := true }).askStop c) s
  s.modPart n fun p => { p with st := .halting }

/-- RESUME: halted slots go on where they stopped (R305, R406). -/
def State.resumePart (s : State) (n : Nat) : State :=
  let s := (s.partCores n).foldl (fun s c => (s.modCore c fun k => { k with halting := false }).goOnAll c true) s
  s.modPart n fun p => { p with st := .busy, next := some .running }

/-- SAVE: each tile's context goes to its area; a seized tile's is there already (R215, R307). -/
def State.savePart (s : State) (n : Nat) : State :=
  let s := (s.partCores n).foldl (fun s c =>
    if (s.core c).gustOn then s.modCore c fun k => { k with gustSaved := false } else s.saveTile c) s
  s.modPart n fun p => { p with st := .busy, next := some .saved }

/-- The live gangs of a partition are aborted and the command ends with ERR: tile state was poisoned (R313). -/
def State.poisonedTile (s : State) (n : Nat) : State :=
  let p := s.partAt n
  let s := (s.gangs.filter fun g => g.st == .live && g.asid == p.asid &&
    g.members.any fun m => (s.partCores n).contains m.2.tile).foldl (fun s g => s.abortGang g.no) s
  s.partRefuse n 3

/-- RESTORE: each tile's context is loaded back; one that Gust holds comes back at the release (R305, R313). -/
def State.restorePart (s : State) (n : Nat) : State :=
  let bad := (s.partCores n).any fun c => (s.tilePoison c).isSome
  let s := (s.partCores n).foldl (fun s c =>
    if (s.core c).gustOn then s.modCore c fun k => { k with gustSaved := true } else s.loadTile c) s
  let s := if bad then s.poisonedTile n else s
  s.modPart n fun p => { p with st := .busy, next := some .halted }

/-- Copy a page of storage, its poison with it, over what stands at the destination. -/
def State.copyPage (s : State) (src dst : Nat) : State :=
  let inSrc (a : Nat) : Bool := decide (src ≤ a) && decide (a < src + 4096)
  let inDst (a : Nat) : Bool := decide (dst ≤ a) && decide (a < dst + 4096)
  let cells := (s.mem.filter fun e => inSrc e.1).map fun e => (e.1 - src + dst, e.2)
  let marks := (s.poison.filter inSrc).map fun a => (a - src + dst) / granuleSize dst * granuleSize dst
  let s := { s with mem := memCells (s.mem.filter fun e => !inDst e.1) cells,
                    poison := (marks ++ s.poison.filter fun a => !inDst a).eraseDups }
  s.loseResvs dst (dst + 4096)

/-- Zero a page of storage. -/
def State.zeroPage (s : State) (at_ : Nat) : State :=
  let inside (a : Nat) : Bool := decide (at_ ≤ a) && decide (a < at_ + 4096)
  let s := { s with mem := s.mem.filter (fun e => !inside e.1), poison := s.poison.filter fun a => !inside a }
  s.loseResvs at_ (at_ + 4096)

/-- The pages of a tile that a spill copies: offsets 0 to 0x1A_FFFF and the context area (R309). -/
def spillPages : List Nat := (List.range 432).map (4096 * ·) ++ (List.range 16).map fun i => 0x1F0000 + 4096 * i

/-- The physical address of a page of the spill area of the tile of rank `j` (R309). -/
def spillPage (p : Partition) (j i : Nat) : Nat := p.spillpa.toNat * 4096 + 0x1C0000 * j + 4096 * i

/-- What the spill area of a tile holds beside its bytes. -/
def Core.image (k : Core) : TileImage :=
  { ctx := k.saved.getD {}, slotcls := k.slotcls, spbase := k.spbase, spsize := k.spsize, l1cfg := k.l1cfg,
    overMax := k.overMax, serial := k.serial, pending := k.pending, overflow := k.overflow, hold := k.hold,
    succQ := k.succQ.filter (!·.isGust) }

/-- A message whose credit belongs to a tenant's pool gives it back to where the tenant is now (R28, R193); one of Gust code
keeps the tile of its pool (R29). -/
def Message.moveCredit (f : Nat → Nat) (m : Message) : Message :=
  if m.srcKind = 5 then m else { m with credit := m.credit.map fun e => (f e.1, e.2) }

/-- The claims of a tenant's slots on egress queues go with the tenant (R235). -/
def State.moveClaims (s : State) (c d : Nat) (x : TileCtx) : State :=
  let mine (q : Nat × Nat × Word) : Bool := q.1 == c && x.threads.any fun t => t.1 == q.2.1 && t.2.csr.ctxid == q.2.2
  { s with egress := s.egress.map fun (e : Nat × Egress) =>
      (e.1, { e.2 with claim := e.2.claim.map fun q => if mine q then (d, q.2) else q }) }

/-- Traffic, credits and hand-offs under way to tiles go on to where the tiles' contexts are now (R187, R193, R309). -/
def State.moveFlight (s : State) (f : Nat → Nat) : State :=
  let hand (h : Handoff) : Handoff := { h with claimed := h.claimed.map fun e => (f e.1, e.2) }
  let ctx (x : TileCtx) : TileCtx := { x with mx := { x.mx with hands := x.mx.hands.map hand } }
  let k := s.flight
  { s with
    flight := { k with
      beats := k.beats.map fun e => (f e.1, e.2)
      chanCredits := k.chanCredits.map fun e => (f e.1, e.2)
      cadds := k.cadds.map fun e => (f e.1, e.2)
      credits := k.credits.map fun e => if e.2.2 then e else (f e.1, e.2)
      messages := k.messages.map fun e => (e.1, e.2.moveCredit f) }
    queuePort := s.queuePort.map (·.moveCredit f)
    cores := s.cores.map fun e =>
      (e.1, { e.2 with cx := ctx e.2.cx, saved := e.2.saved.map ctx, inbox := e.2.inbox.map (·.moveCredit f) })
    parts := s.parts.map fun e => (e.1, { e.2 with images := e.2.images.map fun i => { i with ctx := ctx i.ctx } }) }

/-- The record of an access of a domain's slice agents that reaches no memory (R309, R316, R514). -/
def State.agentUnbacked (s : State) (p : Partition) (t pa : Nat) : State :=
  s.unbackedRecord p.asid.toNat (4 * domainOf t) 2 pa

/-- A page of a tile goes to the spill area and is zeroed; a page of the area that lies in no memory takes nothing (R309,
R514). -/
def State.spillOut (s : State) (p : Partition) (t j i : Nat) : State :=
  let src := sramLoc t (spillPages.getD i 0)
  let pa := spillPage p j i
  let s := if isBacked pa then s.copyPage src (dramLoc pa) else s.agentUnbacked p t pa
  s.zeroPage src

/-- A page of the spill area comes back to a tile; one that lies in no memory reads zero (R309, R514). -/
def State.fillIn (s : State) (p : Partition) (t j i : Nat) : State :=
  let dst := sramLoc t (spillPages.getD i 0)
  let pa := spillPage p j i
  if isBacked pa then s.copyPage (dramLoc pa) dst else (s.zeroPage dst).agentUnbacked p t pa

/-- SPILL: the tiles' storage and context go to the spill area and the tiles leave the partition (R309). -/
def State.spillPart (s : State) (n : Nat) : State :=
  let p := s.partAt n
  let tiles := tileList p.tiles
  let s := (s.finishSnaps tiles).moveFlight fun c => if tiles.contains c then awayCore n (tiles.idxOf c) else c
  let images := tiles.map fun t => (s.core t).image
  let s := (List.range tiles.length).foldl (fun s j =>
    let t := tiles.getD j 0
    let s := s.moveClaims t (awayCore n j) (s.core t).ctx
    (List.range spillPages.length).foldl (fun s i => s.spillOut p t j i) s) s
  let s := tiles.foldl (fun s t => s.modCore t fun k =>
    let k := { k with saved := none, gustSaved := false, halting := false, pending := [], overflow := [], hold := [],
                      succQ := k.succQ.filter (·.isGust),
                      cx := if k.gustOn then k.cx else { mx := { acc := k.cx.mx.acc } } }
    k.setClasses k.slotcls s.clock.now) s
  s.modPart n fun p => { p with st := .busy, next := some .spilled, spillTiles := p.tiles, images := images }

/-- A gang whose members sit on given tiles, in the order of their ids, keeps its SHAPE (R44). -/
def shapeKept (g : Gang) (tiles : List Nat) : Bool :=
  match g.shape with
  | 1 => tiles.all fun t => domainOf t == domainOf (tiles.getD 0 0)
  | 2 =>
    let each := g.n / g.sparam
    let doms := (List.range g.sparam).map fun j => domainOf (tiles.getD (j * each) 0)
    (List.range tiles.length).all (fun i => domainOf (tiles.getD i 0) == doms.getD (i / each) 16) &&
      doms.eraseDups.length == doms.length
  | _ => true

/-- Where a tile's context goes when the tiles of one set take over from another, by rank (R309). -/
def moveTile (old new : List Nat) (t : Nat) : Nat :=
  match (List.range old.length).find? fun j => old.getD j 0 == t with
  | some j => new.getD j t
  | none => t

/-- The gangs of an address-space id, moved with their tiles. -/
def State.moveGangs (s : State) (asid : BitVec 16) (f : Nat → Nat) : State :=
  { s with gangs := s.gangs.map fun g =>
      if g.asid = asid ∧ g.st = .live then
        { g with members := g.members.map fun e => (e.1, { e.2 with tile := f e.2.tile }) }
      else g }

/-- FILL would break a rule of R309. -/
def State.fillRefused (s : State) (n : Nat) : Bool :=
  let p := s.partAt n
  let old := tileList p.spillTiles
  let new := tileList p.tiles
  old.length != new.length || new.any (fun t => (s.partOf t).isSome) ||
    s.gangs.any fun g => g.st == .live && g.asid == p.asid &&
      !shapeKept g (g.members.map fun e => moveTile old new e.2.tile)

/-- FILL: the spill area comes back onto the tiles TILES names (R309). -/
def State.fillPart (s : State) (n : Nat) : State :=
  let p := s.partAt n
  let old := tileList p.spillTiles
  let new := tileList p.tiles
  let s := (List.range new.length).foldl (fun s j =>
    let t := new.getD j 0
    let e := p.images.getD j {}
    let s := (List.range spillPages.length).foldl (fun s i => s.fillIn p t j i) s
    let s := s.moveClaims (awayCore n j) t e.ctx
    s.modCore t fun k => { k with
      saved := some e.ctx, halting := true, asid := p.asid, slotcls := e.slotcls, spbase := e.spbase, spsize := e.spsize,
      l1cfg := e.l1cfg, overMax := e.overMax, serial := e.serial, pending := e.pending, overflow := e.overflow, hold := e.hold,
      succQ := e.succQ ++ k.succQ }) s
  let s := s.moveGangs p.asid (moveTile old new)
  let s := s.modPart n fun p => { p with st := .busy, next := some .saved, images := [] }
  let s := s.moveFlight fun c => if awayCore n 0 ≤ c ∧ c < awayCore n 256 then new.getD (c - awayCore n 0) c else c
  new.foldl (fun s t => (s.core t).ctx.bounds.foldl (fun s b => s.linkEnds t b) s) s

/-- Carry out a command, or refuse it (R305). -/
def State.partCmd (s : State) (n cmd : Nat) : State :=
  let st := (s.partAt n).st
  match cmd with
  | 0 => s
  | 7 => s
  | 1 => if st = .running then s.haltPart n else s.partRefuse n 1
  | 2 => if st = .halted then s.savePart n else s.partRefuse n 2
  | 3 => if st = .saved then s.restorePart n else s.partRefuse n 3
  | 4 => if st = .halted then s.resumePart n else s.partRefuse n 4
  | 5 => if st = .saved ∧ n ≠ 0 then s.spillPart n else s.partRefuse n 5
  | _ => if st = .spilled ∧ n ≠ 0 ∧ !s.fillRefused n then s.fillPart n else s.partRefuse n 6

/-- A command in progress can complete: a HALT once every tile is quiet (R306), another at once. -/
def State.partDue (s : State) (n : Nat) : Bool :=
  let p := s.partAt n
  match p.st with
  | .halting => (s.partCores n).all fun c =>
      let k := s.core c
      if k.gustOn then true else k.quiet
  | .busy => true
  | _ => false

/-- A command completes: STATE changes, and the named counter receives 1 when CEN = 1 (R305). -/
def State.partDone (s : State) (n : Nat) : State :=
  let p := s.partAt n
  let st := match p.st with
    | .halting => .halted
    | _ => p.next.getD p.st
  let s := s.modPart n fun p => { p with st := st, next := none }
  if p.cen then s.addFrontEnd p.ctile.toNat p.ccnt.toNat else s

/-! Writes of an entry (R304). -/

/-- The fields of an entry as a write gives them. -/
def Partition.setFields (p : Partition) (v : Nat) : Partition :=
  { p with spillpa := BitVec.ofNat 36 (bits v 476 36), asid := BitVec.ofNat 16 (bits v 448 16),
           tiles := BitVec.ofNat 256 (bits v 0 256) }

/-- The fields of an entry that a write may always change. -/
def Partition.setReport (p : Partition) (v : Nat) : Partition :=
  { p with cen := bit v 439, ctile := BitVec.ofNat 8 (bits v 431 8), ccnt := BitVec.ofNat 6 (bits v 425 6) }

/-- The reflex array takes a new address-space id and forms a new context (R292, R304). -/
def State.setReflexAsid (s : State) (asid : BitVec 16) : State :=
  let gen := (FMap.get s.gens asid.toNat 0 + 1) % 2 ^ 16
  let s := { s with gens := FMap.put s.gens asid.toNat gen, contexts := FMap.put s.contexts (2 ^ 16) { gen := gen } }
  let s := (List.range 32).foldl (fun s r => s.modCore (256 + r) fun k => { k with asid := asid }) s
  s.modPart 0 fun p => { p with asid := asid }

/-- Entry 0 may take a new address-space id: every reflex slot is IDLE, no reflex tile holds a valid binding, no tick entry is
enabled, and no gang of the context that would be destroyed is live (R292, R304). -/
def State.reflexIdle (s : State) : Bool :=
  (List.range 32).all (fun r =>
    let k := s.core (256 + r)
    (k.ctx.threads.all fun e => e.2.run == .idle && e.2.shadow.isNone) && k.ctx.binds.all fun e => !bindValid e.2) &&
  (s.ticks.all fun e => !bit e.2.reg.toNat 0) && !s.anyLive (s.partAt 0).asid

/-- What a change of ASID, TILES or SPILLPA of an entry does, none when it is refused. A write of entry 0 without a command
writes its ASID again, where such a write is accepted, and forms a new context (R292; DEDUCED, log entry 73). -/
def State.partChange (s : State) (n v : Nat) (hadErr : Bool) : Option State :=
  let p := s.partAt n
  let q := p.setFields v
  if q.asid = p.asid ∧ q.tiles = p.tiles ∧ q.spillpa = p.spillpa then
    some (if n = 0 ∧ bits v 442 3 = 0 ∧ !hadErr ∧ p.st = .running ∧ s.reflexIdle then s.setReflexAsid q.asid else s)
  else if hadErr then none
  else if n = 0 then
    if q.tiles = p.tiles ∧ q.spillpa = p.spillpa ∧ p.st = .running ∧ s.reflexIdle then some (s.setReflexAsid q.asid)
    else none
  else if p.st = .running ∧ q.tiles = 0 ∧ q.asid = p.asid ∧ q.spillpa = p.spillpa ∧ !s.anyLive p.asid then
    some (s.modPart n fun p => { p with tiles := 0, st := .free })
  else if q.spillpa ≠ p.spillpa ∧ !isBacked (q.spillpa.toNat * 4096) then none
  else if p.st = .spilled then some (s.modPart n fun _ => q)
  else if p.st = .free then
    if q.tiles = 0 then some (s.modPart n fun _ => q)
    else if (tileList q.tiles).any fun t => (s.partOf t).isSome then none
    else
      let s := (tileList q.tiles).foldl (fun s t => s.modCore t fun k => { k with asid := q.asid }) s
      some (s.modPart n fun _ => { q with st := .running })
  else none

/-- A write of a whole entry: ERR is cleared where the write asks for it, the fields change or the write is refused, and
then the command runs (R304, R305). -/
def State.writePart (s : State) (n v : Nat) : State :=
  let hadErr := (s.partAt n).err
  let s := s.modPart n fun p => { p with err := p.err && !bit v 441 }
  match s.partChange n v hadErr with
  | none => s.partErr n
  | some s => (s.modPart n (·.setReport v)).partCmd n (bits v 442 3)

end Sys2Proof.Machine
end

