-- ==== Sys2Proof/Machine/Units.lean ====
section
/-! DEFINITION. What writes of the device's own registers do, unit by unit: features and start-up (R336 to R340), Squall
(R194), the tick table (R199), the mailbox table (R202), Gust (R212), the hot spare (R221, R224), time and streams
(R225, R226, R233), templates (R245), slices (R264, R269, R272), queues (R281), shedding (R295) and the error queue
(R317). -/

namespace Sys2Proof.Machine

/-- Keep the bits of a value that a mask has. -/
def masked (v mask : Nat) : Nat := Nat.land v mask

/-- The bits `lo` to `lo + n - 1`. -/
def fieldMask (lo n : Nat) : Nat := (2 ^ n - 1) * 2 ^ lo

/-! Features, start-up, measurement (R336 to R340). -/

/-- The features of the part: all ten (R336, log entry 5). -/
def featcap : Nat := 0x3FF

/-- A write of `featacc` (R336). -/
def State.writeFeatacc (s : State) (v : Nat) : State :=
  if s.boot.installed then s
  else { s with boot := { s.boot with featacc := BitVec.ofNat 256 (Nat.lor (Nat.land v featcap) 1) } }

/-- GO in `bootst`: verification starts unless STAGE is neither 1 nor 15 (R338). -/
def State.bootGo (s : State) : State :=
  if s.boot.stage = 1 ∨ s.boot.stage = 15 then { s with boot := { s.boot with stage := 2, fail := 0 } } else s

/-- The place of an entry of the attestation log in front-end SRAM: in that of core 0, from offset 0x5_0000 (R339, log entry 81). -/
def attLogLoc (i : Nat) : Nat := sramLoc 352 (0x50000 + 48 * i)

/-- Extend the measurement register and log the extension (R339). -/
def State.measure (s : State) (hash : List Byte) (kind asid handle : Nat) : State :=
  let b := s.boot
  let m := BitVec.ofNat 256 (leNat (sha256 (leBytes 32 b.m.toNat ++ hash)))
  let entry := hash ++ leBytes 2 kind ++ leBytes 2 asid ++ leBytes 4 handle ++ leBytes 8 s.clock.now
  if b.logged < 4096 then
    ({ s with boot := { b with m := m, logged := b.logged + 1 } } : State).store (attLogLoc b.logged) entry
  else { s with boot := { b with m := m, logfull := true } }

/-- A request for an attestation report; one made while BUSY is ignored (R340), as is one that no firmware runs to answer
(R337). -/
def State.attestRequest (s : State) : State :=
  if s.boot.busy || s.boot.stage != 3 then s else { s with boot := { s.boot with busy := true, attFail := false } }

/-! Squall (R194). -/

/-- A write of `sqcfg`. -/
def State.writeSqcfg (s : State) (v : Nat) : State :=
  let t := bits v 0 20
  { s with squall := { s.squall with
    en := bit v 31, thresh := if 10 ≤ t ∧ t ≤ 1000000 then BitVec.ofNat 20 t else s.squall.thresh } }

/-! Ticks (R199, R200). -/

/-- The first time at or after `now` of the form off + n × period, for an integer n. -/
def firstAt (now off period : Nat) : Nat :=
  if period = 0 then off
  else if now ≤ off then off - (off - now) / period * period
  else off + (now - off + period - 1) / period * period

/-- The writable fields of a tick entry. -/
def tickMask : Nat := fieldMask 112 144 + fieldMask 96 5 + fieldMask 0 2

/-- A write of a tick entry (R199). -/
def State.writeTick (s : State) (e v : Nat) : State :=
  let k := FMap.get s.ticks e {}
  let period := bits v 160 32
  if bit v 0 ∧ (bit k.reg.toNat 0 ∨ period < 1000 ∨ 4000000000 < period) then s
  else
    let counts := if bit v 0 then 0 else masked k.reg.toNat (fieldMask 32 64)
    let k := { k with reg := BitVec.ofNat 256 (masked v tickMask + counts) }
    let k := if bit v 0 then { k with seq := 0, replaced := 0, next := firstAt s.clock.now (bits v 192 64) period } else k
    { s with ticks := FMap.put s.ticks e k }

/-! Mailbox slots (R202). -/

/-- The first byte of a slot's buffers and the one behind them (R202). -/
def MbSlot.extent (k : MbSlot) : Nat × Nat := (k.base 0, k.base 4)

/-- The buffers of a slot overlap those of a valid slot (R202). -/
def State.mbOverlaps (s : State) (n : Nat) (k : MbSlot) : Bool :=
  s.mbs.any fun e => e.1 != n && e.2.valid && decide (e.2.extent.1 < k.extent.2) && decide (k.extent.1 < e.2.extent.2)

/-- A write of a mailbox slot entry (R202). -/
def State.writeMbSlot (s : State) (n v : Nat) : State :=
  let k := s.mbSlot n
  let v := masked v (fieldMask 111 17 + fieldMask 71 25 + fieldMask 0 25)
  let new : MbSlot := { reg := BitVec.ofNat 128 v }
  if bit v 127 then
    if k.valid || new.size == 0 || decide (0x2000000 < new.extent.2) || s.mbOverlaps n new then s
    else { s with mbs := FMap.put s.mbs n new }
  else
    let s := s.detachSnaps n
    { s with mbs := FMap.put s.mbs n new }

/-! Gust (R212). -/

/-- A profile is registered. -/
def GustProfile.valid (p : GustProfile) : Bool := bit p.reg.toNat 127

/-- A profile of the device. -/
def State.gustAt (s : State) (p : Nat) : GustProfile := FMap.get s.gusts p {}

/-- A write of the Gust pool (R212). -/
def State.writeGustPool (s : State) (v : Nat) : State :=
  let m := BitVec.ofNat 256 v
  if s.gusts.any (fun e => e.2.valid) || decide (64 < (tileList m).length) then s else { s with gustPool := m }

/-- The pool tiles that no other valid profile holds, in ascending id (R212). -/
def State.freePool (s : State) (p : Nat) : List Nat :=
  (tileList s.gustPool).filter fun t => !s.gusts.any fun e => e.1 != p && e.2.valid && e.2.tiles.contains t

/-- A write of a Gust profile (R212). -/
def State.writeProfile (s : State) (p v : Nat) : State :=
  let k := s.gustAt p
  let v := masked v (fieldMask 119 9 + fieldMask 64 51 + fieldMask 0 18)
  let count := bits v 119 7
  if k.held || (k.valid && bit v 127) then s
  else if bit v 127 then
    let free := s.freePool p
    if free.length < count then s
    else { s with gusts := FMap.put s.gusts p { k with reg := BitVec.ofNat 128 v, tiles := free.take count } }
  else { s with gusts := FMap.put s.gusts p { k with reg := BitVec.ofNat 128 v, tiles := [] } }

/-! The hot spare (R221, R224). -/

/-- A spare takes over, for a cause (R224). -/
def State.takeOver (s : State) (cause : Nat) : State :=
  if s.spare.role = 2 ∧ !s.spare.taken then
    let s := { s with spare := { s.spare with taken := true, cause := BitVec.ofNat 2 cause } }
    (s.feRecord 0x15 0 0 [(20, 1, cause)]).raiseMsi 1
  else s

/-- A primary fences itself: TAKEN is set and the frames of its egress queues are discarded (R221, R224). -/
def State.fence (s : State) : State :=
  { s with
    spare := { s.spare with taken := true }
    egress := s.egress.map fun e =>
      (e.1, { e.2 with frames := [], dropped := e.2.dropped + BitVec.ofNat 32 e.2.frames.length }) }

/-- A write of `hsctl`; without feature 2 it is ignored (R221, R336). The windows for heartbeats begin with the role. -/
def State.writeHsctl (s : State) (v : Nat) : State :=
  if !s.feature 2 then s
  else
    let role := bits v 30 2
    let new := if role = 3 then s.spare.role else BitVec.ofNat 2 role
    let s := { s with spare := { s.spare with
      role := new, selffence := bit v 29, windowAt := if new = s.spare.role then s.spare.windowAt else s.clock.cc } }
    if bit v 0 then s.takeOver 3 else s

/-- The value of `hsctl` (R221). -/
def State.hsctl (s : State) : Nat :=
  let h := s.spare
  if !s.feature 2 then 0
  else h.role.toNat * 2 ^ 30 + flagBit h.selffence 29 + flagBit h.taken 28 + h.cause.toNat * 2 ^ 26 + h.missed.toNat * 2 ^ 16

/-- A write of a keep-mirror entry (R223). -/
def State.writeKeep (s : State) (k v : Nat) : State :=
  let v := masked v (fieldMask 127 1 + fieldMask 120 5 + fieldMask 96 16 + fieldMask 64 6)
  { s with spare := { s.spare with keep := FMap.put s.spare.keep k (BitVec.ofNat 128 v) } }

/-! Time and streams (R225, R226, R233). -/

/-- A write of `tmctl`; a new source has no lock yet (R225). -/
def State.writeTmctl (s : State) (v : Nat) : State :=
  let c := s.clock
  let src := bits v 0 3
  let c := { c with stepped := c.stepped && !bit v 30 }
  { s with clock := if 4 < src ∨ src = c.src then c else { c with src := src, lock := false, slew := 0 } }

/-- The fields of a stream entry that a write can set (R226). -/
def streamMask : Nat := fieldMask 128 128 + fieldMask 116 12 + fieldMask 90 24 + fieldMask 48 36

/-- The number of the first decode tick at or after a time (R229). -/
def firstTick (now phase period : Nat) : Int :=
  if period = 0 then 0 else ((firstAt now phase period : Int) - phase) / period

/-- A write of a timed-stream entry (R226, R229, R514). -/
def State.writeStream (s : State) (n v : Nat) : State :=
  let k := s.streamAt n
  let old := k.reg.toNat
  if k.valid then
    if bit v 126 then s
    else { s with streams := FMap.put s.streams n { k with reg := BitVec.ofNat 512 (setBits old 126 1 0) } }
  else
    let new : Stream := { k with reg := BitVec.ofNat 512 (masked v streamMask + masked old (fieldMask 256 256)) }
    let size := bits v 118 5
    if bit v 127 ∧ (size < 12 ∨ 24 < size ∨ new.base % new.size ≠ 0 ∨ !isBacked new.base ∨
        (bit v 126 ∧ bits v 116 2 = 0)) then s
    else
      { s with streams := FMap.put s.streams n { new with tick := firstTick s.clock.now (bits v 192 64) (bits v 160 32) } }

/-- A write of an egress queue's entry (R233). -/
def State.writeEgress (s : State) (q v : Nat) : State :=
  { s with egress := FMap.put s.egress q { s.egressAt q with v := bit v 127, standby := bit v 126, mac := bit v 125 } }

/-! Templates (R244, R245, R248). -/

/-- PARENT of a node of a template's value. -/
def nodeParent (v i : Nat) : Nat := bits v (16 * i) 6

/-- The edges from the root to a node; `fuel` bounds the walk (R245). -/
def nodeDepth (v : Nat) : Nat → Nat → Nat
  | 0, _ => 0
  | fuel + 1, i => if nodeParent v i = 0x3F then 1 else 1 + nodeDepth v fuel (nodeParent v i)

/-- A template may be made valid (R245). -/
def templateOk (v : Nat) : Bool :=
  let n := bits v 1024 7
  decide (1 ≤ n) && decide (n ≤ 64) &&
    ((List.range 64).all fun i =>
      if i < n then nodeParent v i == 0x3F || decide (nodeParent v i < i) else bits v (16 * i) 16 == 0) &&
    ((List.range n).all fun i => decide (nodeDepth v 64 i ≤ 8)) &&
    ((List.range n).all fun i => (List.range i).all fun j => bits v (16 * i) 9 != bits v (16 * j) 9)

/-- The fields of a template that a write can set (R244). -/
def templateMask : Nat :=
  (List.range 64).foldl (fun a i => a + fieldMask (16 * i) 9) (fieldMask 1024 7 + fieldMask 1055 1)

/-- A write of a template; writing V starts its counts anew for every class (R245). -/
def State.writeTemplate (s : State) (j v : Nat) : State :=
  let old := (FMap.get s.gen.templates j 0).toNat
  let v := masked v templateMask
  if bit v 1055 ∧ (bit old 1055 ∨ !templateOk v) then s
  else
    { s with gen := { s.gen with
      templates := FMap.put s.gen.templates j (BitVec.ofNat 2048 v)
      banditN := s.gen.banditN.filter fun e => e.1 % 16 != j
      banditS := s.gen.banditS.filter fun e => e.1 % 16 != j } }

/-- A bin of a histogram bank (R246, R248). -/
def State.bin (s : State) (bank c b : Nat) : Word := FMap.get s.gen.hist (bank * 1024 + c * 16 + b) 0

/-! Slices (R264, R269, R272). -/

/-- An event-table row may be made valid (R264). -/
def rowOk (rows : FMap (BitVec 128)) (r v : Nat) : Bool :=
  let lo := bits v 56 8 * 1024
  let hi := lo + bits v 48 8 * 1024
  let entry := bits v 0 17
  bits v 48 8 != 0 && decide (hi ≤ 0x20000) && decide (lo ≤ entry) && decide (entry < hi) &&
    rows.all fun e => e.1 == r || !bit e.2.toNat 127 || bits e.2.toNat 96 16 != bits v 96 16

/-- A write of an event-table row; without feature 6 it is ignored (R264, R336, R339). -/
def State.writeRow (s : State) (slice r v : Nat) : State :=
  let old := (s.row slice r).toNat
  let v := masked v (fieldMask 127 1 + fieldMask 121 5 + fieldMask 88 24 + fieldMask 48 32 + fieldMask 0 17)
  if !s.feature 6 then s
  else if bit v 127 then
    if bit old 127 || !rowOk (s.sliceAt slice).rows r v then s
    else (s.setRow slice r (BitVec.ofNat 128 (v + masked old (fieldMask 40 8)))).measure (sha256 (leBytes 16 v)) 2 (bits v 96 16) r
  else
    let keep := masked old (fieldMask 40 8 + fieldMask 80 8)
    s.setRow slice r (BitVec.ofNat 128 (v + keep))

/-- A write of `wtovf` (R272). -/
def State.writeWtovf (s : State) (slice v : Nat) : State :=
  let v := masked v (fieldMask 63 1 + fieldMask 0 16)
  s.modSlice slice fun k => { k with wtovf := BitVec.ofNat 64 (v + masked k.wtovf.toNat (fieldMask 16 32)) }

/-- A write of `ldctl`; a GO starts the table unless one is running (R269). -/
def State.writeLdctl (s : State) (slice v : Nat) : State :=
  let old := (s.sliceAt slice).ldctl.toNat
  if bit v 63 ∧ bit old 62 then s
  else
    let err := flagBit (bit old 61 && !bit v 61) 61
    let busy := flagBit (bit old 62 || bit v 63) 62
    s.modSlice slice fun k => { k with
      ldctl := BitVec.ofNat 64 (masked v (fieldMask 32 29 + fieldMask 0 17) + err + busy)
      ldIdx := if bit v 63 then 0 else k.ldIdx
      ldOff := if bit v 63 then 0 else k.ldOff }

/-! Queues (R279, R281). -/

/-- A doorbell write of `v` (R281). -/
def State.doorbell (s : State) (q v : Nat) : State :=
  let k := s.queueAt q
  let seq := bits v 32 32
  let i := bits v 0 32
  if k.st ≠ .active then s
  else if signed (seq + 2 ^ 32 - k.lastseq.toNat) 32 ≤ 0 then
    s.modQueue q fun k => { k with stale := BitVec.ofNat 16 (min (k.stale.toNat + 1) 0xFFFF) }
  else
    let widx := if 0 < signed (i + 2 ^ 32 - k.widx.toNat) 32 then BitVec.ofNat 32 i else k.widx
    let s := s.modQueue q fun k => { k with lastseq := BitVec.ofNat 32 seq, widx := widx }
    if 2 ^ k.log2n < (widx - k.ridx).toNat then s.faultAny q 3 else s

/-- The code of a queue's STATE (R279). -/
def QueueState.code : QueueState → Nat
  | .free => 0 | .active => 1 | .draining => 2 | .faulted => 3

/-- The status of a queue (R279). -/
def Queue.status (k : Queue) : Nat :=
  k.lastseq.toNat * 2 ^ 224 + k.widx.toNat * 2 ^ 192 + k.ridx.toNat * 2 ^ 160 + k.stale.toNat * 2 ^ 144
    + k.recov.toNat * 2 ^ 128 + k.st.code * 2 ^ 126 + k.fcode * 2 ^ 120

/-! Shedding (R295). -/

/-- A write of `shedctl`. -/
def State.writeShedctl (s : State) (v : Nat) : State :=
  let env := bits v 8 8
  { s with shed := { s.shed with
    tlim := BitVec.ofNat 8 (bits v 16 8), env := if 60 ≤ env ∧ env ≤ 200 then BitVec.ofNat 8 env else s.shed.env } }

/-- The value of `shedctl`. -/
def Shed.value (k : Shed) : Nat := k.level * 2 ^ 29 + k.tlim.toNat * 2 ^ 16 + k.env.toNat * 2 ^ 8 + k.temp.toNat

/-! The error queue (R317). -/

/-- A write of `errq`. -/
def State.writeErrq (s : State) (v : Nat) : State :=
  let q := s.errq
  let q := { q with ridx := BitVec.ofNat 32 (bits v 128 32) }
  let size := bits v 56 5
  let q := if q.en then q
    else { q with base := BitVec.ofNat 64 (bits v 192 64), host := bit v 62,
                  log2n := if 6 ≤ size ∧ size ≤ 16 then BitVec.ofNat 5 size else q.log2n }
  let ok := decide (6 ≤ q.log2n.toNat) && decide (q.log2n.toNat ≤ 16) && q.base.toNat % (64 * 2 ^ q.log2n.toNat) == 0 &&
    (q.host || isBacked q.base.toNat)
  { s with errq := { q with en := bit v 63 && (q.en || ok) } }

/-- The value of `errq`. -/
def ErrQueue.value (q : ErrQueue) : Nat :=
  q.base.toNat * 2 ^ 192 + q.widx.toNat * 2 ^ 160 + q.ridx.toNat * 2 ^ 128 + q.lost.toNat * 2 ^ 96 + flagBit q.en 63
    + flagBit q.host 62 + q.log2n.toNat * 2 ^ 56

end Sys2Proof.Machine
end

