-- ==== Sys2Proof/Machine/Devices.lean ====
section
/-! DEFINITION. The device registers of paths 0x3F and 0x30: where each lies, what it reads, and how a store that covers a
part of it is applied (R333, R412, R445, and the chapters that define each register). -/

namespace Sys2Proof.Machine

/-- The registers of the device. -/
inductive DevReg where
  | featcap | featacc | bootst | bootaddr | hostbad | idKey | nonce | attOut | attcmd | sqcfg
  | tick (e : Nat) | mbSlot (n : Nat) | pool | profile (p : Nat) | tileSet (p : Nat) | hsctl | keep (k : Nat) | tmctl
  | stream (n : Nat) | egress (q : Nat) | template (j : Nat) | hbank | bin (bank c b : Nat) | queue (q : Nat)
  | doorbell (q : Nat) | shedctl | part (n : Nat) | errq | cecnt
  | dbg (core off : Nat)
  | binding (core i : Nat)
  | row (slice r : Nat) | wtovf (slice : Nat) | ldctl (slice : Nat)
  deriving DecidableEq, Repr

/-- A register with its first byte and its size. -/
abbrev Located := DevReg × Nat × Nat

/-- An array of registers: the one that an offset falls into. -/
def arrayAt (off base stride count : Nat) (f : Nat → DevReg) : Option Located :=
  if base ≤ off ∧ off < base + stride * count then
    let i := (off - base) / stride
    some (f i, base + stride * i, stride)
  else none

/-- One register: when an offset falls into it. -/
def oneAt (off base size : Nat) (r : DevReg) : Option Located := arrayAt off base size 1 fun _ => r

/-- The registers of a debug block, by offset (R319). -/
def dbgAt (core base off : Nat) : Option Located :=
  let o := off - base
  let reg (b size : Nat) : Option Located := if b ≤ o ∧ o < b + size then some (.dbg core b, base + b, size) else none
  reg 0x000 4 <|> reg 0x010 4 <|> reg 0x018 8 <|> reg 0x020 8 <|> reg 0x028 8 <|> reg 0x040 8 <|> reg 0x048 8 <|>
    reg 0x050 8 <|> reg 0x058 8 <|> reg 0x070 8 <|>
    (if 0x080 ≤ o ∧ o < 0x0C0 then some (.dbg core (o / 8 * 8), base + o / 8 * 8, 8) else none)

/-- The debug block that an offset falls into (R319). -/
def dbgBlock (off base first count : Nat) : Option Located :=
  if base ≤ off ∧ off < base + 0x400 * count then
    let i := (off - base) / 0x400
    dbgAt (first + i) (base + 0x400 * i) off
  else none

/-- The histogram bin that an offset falls into (R246). -/
def binAt (off : Nat) : Option Located :=
  if off < 0x82000 ∨ 0x83000 ≤ off then none
  else
    let o := (off - 0x82000) % 0x800
    let bank := (off - 0x82000) / 0x800
    if o < 36 * 32 then some (.bin bank (o / 36) (o % 36 / 4), off / 4 * 4, 4) else none

/-- The entries of the tiles' binding tables, which supervisor code reads through the device-register path (R32): each table
stands at an offset that the spec does not give, above all those that it gives (log entry 27). -/
def bindingAt (off : Nat) : Option Located :=
  if off < 0x200000 ∨ 2 ^ 26 ≤ off then none
  else (List.range 288).findSome? fun c => arrayAt off (Config.bindingBase c) 16 64 (.binding c)

/-- The register at an offset of path 0x3F. -/
def deviceAt (off : Nat) : Option Located :=
  oneAt off 0x10000 32 .featcap <|> oneAt off 0x10020 32 .featacc <|> oneAt off 0x10040 4 .bootst <|>
  oneAt off 0x10048 8 .bootaddr <|> oneAt off 0x10060 4 .hostbad <|> oneAt off 0x11000 32 .idKey <|>
  oneAt off 0x11020 32 .nonce <|> oneAt off 0x11040 8 .attOut <|> oneAt off 0x11048 4 .attcmd <|>
  oneAt off 0x21000 4 .sqcfg <|> arrayAt off 0x30000 32 64 .tick <|> arrayAt off 0x40000 16 4096 .mbSlot <|>
  oneAt off 0x50000 32 .pool <|> arrayAt off 0x50100 16 16 .profile <|> arrayAt off 0x50200 32 16 .tileSet <|>
  oneAt off 0x60000 4 .hsctl <|> arrayAt off 0x61000 16 32 .keep <|> oneAt off 0x70000 4 .tmctl <|>
  arrayAt off 0x72000 64 128 .stream <|> arrayAt off 0x74000 16 16 .egress <|> arrayAt off 0x80000 256 16 .template <|>
  oneAt off 0x81000 4 .hbank <|> binAt off <|> arrayAt off 0x90000 32 1024 .queue <|> arrayAt off 0xA0000 8 1024 .doorbell <|>
  oneAt off 0xB0000 4 .shedctl <|> arrayAt off 0xC0000 64 16 .part <|> oneAt off 0xD0000 32 .errq <|>
  oneAt off 0xD0040 4 .cecnt <|> dbgBlock off 0x100000 0 256 <|> dbgBlock off 0x140000 256 32 <|>
  dbgBlock off 0x150000 288 64 <|> dbgBlock off 0x160000 352 8 <|> bindingAt off

/-- The register at an offset of a slice's page of path 0x30. -/
def sliceRegAt (slice off : Nat) : Option Located :=
  arrayAt off 0 16 16 (.row slice) <|> oneAt off 0x1000 8 (.wtovf slice) <|> oneAt off 0x1100 8 (.ldctl slice)

/-- A space of registers: path 0x3F, or a slice's page of path 0x30. -/
inductive RegSpace where
  | device
  | slice (n : Nat)
  deriving DecidableEq, Repr

/-- The register at an offset of a space. -/
def RegSpace.at_ : RegSpace → Nat → Option Located
  | .device, off => deviceAt off
  | .slice n, off => sliceRegAt n off

/-! Reads. -/

/-- The value of a register of a debug block (R319, R320, R324, R325, R329, R330). -/
def State.dbgReg (s : State) (c off : Nat) : Nat :=
  let k := s.core c
  match off with
  | 0x000 => k.dbgctl
  | 0x010 => k.dbg.sel.toNat
  | 0x018 => s.readDbgdat c
  | 0x020 => k.dbg.bkbase.toNat
  | 0x028 => k.dbg.bkmap.toNat
  | 0x040 => k.log.ctl
  | 0x048 => k.log.base.toNat
  | 0x050 => k.log.lost.toNat * 2 ^ 32 + k.log.widx.toNat
  | 0x058 => k.log.ridx.toNat
  | 0x070 => k.pmsel.toNat
  | _ => (FMap.get k.pmc ((off - 0x80) / 8) 0).toNat

/-- The value of a timed stream's entry, COVER and WSTART in place (R226, R228). -/
def Stream.value (k : Stream) : Nat := k.reg.toNat

/-- The value of `bootst` (R338). -/
def Boot.status (b : Boot) : Nat := b.stage * 2 ^ 28 + b.fail * 2 ^ 24

/-- The value of a register. -/
def State.regValue (s : State) : DevReg → Nat
  | .featcap => featcap
  | .featacc => s.boot.featacc.toNat
  | .bootst => s.boot.status
  | .bootaddr => s.boot.addr.toNat
  | .hostbad => s.link.hostbad.toNat
  | .idKey => Config.identityKey.toNat
  | .nonce => s.boot.nonce.toNat
  | .attOut => s.boot.out.toNat
  | .attcmd => flagBit s.boot.busy 1 + flagBit s.boot.attFail 2
  | .sqcfg => flagBit s.squall.en 31 + s.squall.thresh.toNat
  | .tick e => (FMap.get s.ticks e {}).reg.toNat
  | .mbSlot n => (s.mbSlot n).reg.toNat
  | .pool => s.gustPool.toNat
  | .profile p => (s.gustAt p).reg.toNat
  | .tileSet p => (s.gustAt p).tiles.foldl (fun a t => a + 2 ^ t) 0
  | .hsctl => s.hsctl
  | .keep k => (FMap.get s.spare.keep k 0).toNat
  | .tmctl => flagBit s.clock.lock 31 + flagBit s.clock.stepped 30 + s.clock.src
  | .stream n => (s.streamAt n).value
  | .egress q =>
    let k := s.egressAt q
    flagBit k.v 127 + flagBit k.standby 126 + flagBit k.mac 125 + k.sent.toNat * 2 ^ 64 + k.late.toNat * 2 ^ 32 + k.dropped.toNat
  | .template j => (FMap.get s.gen.templates j 0).toNat
  | .hbank => if s.gen.hbank then 1 else 0
  | .bin bank c b => (s.bin bank c b).toNat
  | .queue q => (s.queueAt q).status
  | .doorbell _ => 0
  | .shedctl => s.shed.value
  | .part n => (s.partAt n).value
  | .errq => s.errq.value
  | .cecnt => s.errq.cecnt.toNat
  | .dbg c off => s.dbgReg c off
  | .binding c i => (FMap.get (s.core c).cx.binds i 0).toNat
  | .row slice r => if s.feature 6 then (s.row slice r).toNat else 0
  | .wtovf slice => (s.sliceAt slice).wtovf.toNat
  | .ldctl slice => (s.sliceAt slice).ldctl.toNat

/-- The byte at an offset of a space; where no register lies it is zero (R412). -/
def State.regByte (s : State) (sp : RegSpace) (off : Nat) : Byte :=
  match sp.at_ off with
  | none => 0
  | some (r, base, _) => BitVec.ofNat 8 (s.regValue r / 2 ^ (8 * (off - base)))

/-- The bytes from an offset of a space (R412). -/
def State.regBytes (s : State) (sp : RegSpace) (off n : Nat) : List Byte := (List.range n).map fun i => s.regByte sp (off + i)

/-- The registers that some bytes of a space touch. -/
def RegSpace.touchedAt (sp : RegSpace) (offs : List Nat) : List Located := (offs.filterMap sp.at_).eraseDups

/-- The registers that bytes in a row touch. -/
def RegSpace.touched (sp : RegSpace) (off n : Nat) : List Located := sp.touchedAt ((List.range n).map (off + ·))

/-- What a read does beside returning its value: a refused access to `dbgdat` sets ERR (R324). -/
def State.regTouch (s : State) (sp : RegSpace) (offs : List Nat) : State :=
  (sp.touchedAt offs).foldl (fun s e =>
    match e.1 with
    | .dbg c 0x018 => s.touchDbgdat c
    | _ => s) s

/-! Writes. -/

/-- The bits of a register that a narrow store gives as zero where it does not cover them: its W1C fields, a WO field
reading zero anyway (R445). -/
def DevReg.oneClear : DevReg → Nat
  | .tmctl => 2 ^ 30
  | .part _ => 2 ^ 441
  | .dbg _ 0x000 => 2 ^ 22
  | .ldctl _ => 2 ^ 61
  | _ => 0

/-- A write of a register of a debug block. -/
def State.writeDbg (s : State) (c off v : Nat) : State :=
  let mod (f : Debug → Debug) : State := s.modCore c fun k => { k with dbg := f k.dbg }
  match off with
  | 0x000 => s.writeDbgctl c v
  | 0x010 => mod fun d => { d with sel := BitVec.ofNat 32 (masked v 0x7FFE3) }
  | 0x018 => s.writeDbgdat c v
  | 0x020 => mod fun d => { d with bkbase := BitVec.ofNat 64 v }
  | 0x028 => s.writeBkmap c v
  | 0x040 => s.writeLogctl c v
  | 0x048 => s.writeLogbase c v
  | 0x050 => s
  | 0x058 => s.writeLogr c v
  | 0x070 => s.modCore c fun k => { k with pmsel := pmselValue v }
  | _ => s.modCore c fun k => { k with pmc := FMap.set k.pmc ((off - 0x80) / 8) (BitVec.ofNat 64 v) 0 }

/-- A write of a whole register. -/
def State.regWrite (s : State) (r : DevReg) (v : Nat) : State :=
  match r with
  | .featcap => s
  | .featacc => s.writeFeatacc v
  | .bootst => if bit v 0 then s.bootGo else s
  | .bootaddr => { s with boot := { s.boot with addr := BitVec.ofNat 64 v } }
  | .hostbad => s
  | .idKey => s
  | .nonce => { s with boot := { s.boot with nonce := BitVec.ofNat 256 v } }
  | .attOut => { s with boot := { s.boot with out := BitVec.ofNat 64 v } }
  | .attcmd => if bit v 0 then s.attestRequest else s
  | .sqcfg => s.writeSqcfg v
  | .tick e => s.writeTick e v
  | .mbSlot n => s.writeMbSlot n v
  | .pool => s.writeGustPool v
  | .profile p => s.writeProfile p v
  | .tileSet _ => s
  | .hsctl => s.writeHsctl v
  | .keep k => s.writeKeep k v
  | .tmctl => s.writeTmctl v
  | .stream n => s.writeStream n v
  | .egress q => s.writeEgress q v
  | .template j => s.writeTemplate j v
  | .hbank => s
  | .bin _ _ _ => s
  | .queue _ => s
  | .doorbell q => s.doorbell q v
  | .shedctl => s.writeShedctl v
  | .part n => s.writePart n v
  | .errq => s.writeErrq v
  | .cecnt => s
  | .dbg c off => s.writeDbg c off v
  | .binding _ _ => s
  | .row slice r => s.writeRow slice r v
  | .wtovf slice => s.writeWtovf slice v
  | .ldctl slice => s.writeLdctl slice v

/-- The whole value that a store to some bytes of a register stands for (R445). -/
def State.mergeReg (s : State) (e : Located) (cells : List (Nat × Byte)) : Nat :=
  let cur := s.regValue e.1
  let cur := cur - masked cur e.1.oneClear
  leNat ((List.range e.2.2).map fun i =>
    match cells.find? fun c => c.1 == e.2.1 + i with
    | some c => c.2
    | none => BitVec.ofNat 8 (cur / 2 ^ (8 * i)))

/-- A store to some bytes of a space, given with their offsets: each register it reaches takes a whole write, a doorbell only
an aligned one of 8 bytes, and bytes where no register lies are discarded (R281, R445). -/
def State.regStore (s : State) (sp : RegSpace) (off : Nat) (cells : List (Nat × Byte)) (scalar : Bool := true) : State :=
  let regs := (cells.filterMap fun c => sp.at_ c.1).eraseDups
  regs.foldl (fun s e =>
    match e.1 with
    | .doorbell _ => if scalar && cells.length == 8 && off == e.2.1 then s.regWrite e.1 (s.mergeReg e cells) else s
    | _ => s.regWrite e.1 (s.mergeReg e cells)) s

end Sys2Proof.Machine
end

