-- ==== Sys2Proof/Machine/Memory.lean ====
section
/-! DEFINITION. Loads and stores: the answers of R412, R443, R486 and R489 over the places an address leads to, with their
checks (R71, R82, R277), the store buffer (R119), poison (R313) and the decode views (R90, R91). -/

namespace Sys2Proof.Machine

/-! Checks of a thread's access. -/

/-- The trap of an access fault, with its record: the cause, the first faulting address and the instruction word
(R82, R316). -/
def State.accessTrap (s : State) (w : Word) (code : Nat) (va : Dword) : Res :=
  .trap code va (s.threadRecord s.cur s.slot 0x01 2 [(24, 8, va.toNat), (32, 1, code), (36, 4, w.toNat)])

/-- A load through a path is a blocking instruction (R413). -/
def loadBlocks (path : Nat) : Bool := !(decide (0x10 ≤ path) && decide (path ≤ 0x15))

/-- A store through a path is a blocking instruction (R444). -/
def storeBlocks (path : Nat) : Bool := loadBlocks path && path != 0x21 && path != 0x2C

/-- What R71 refuses of an access that blocks: no `safe` before it, or a fifth read in Gust-eligible code; the trap
value, or 0. -/
def State.safeRule (s : State) (blocks read : Bool) (path : Nat) : Nat :=
  if blocks && !s.th.sp then 1
  else if read && s.th.csr.gelig && isTranslated path && decide (4 ≤ s.th.lc) then 3
  else 0

/-- A retired read counts towards the limit of R71 (R441). -/
def State.countRead (s : State) (path : Nat) : State :=
  if isTranslated path && s.th.csr.gelig then s.modTh fun t => { t with lc := t.lc + 1 } else s

/-- A queue program may make an access: loads in the ring and the context page, stores in the context page (R277). -/
def State.windowAllows (s : State) (store : Bool) (a : Dword) (lo hi : Nat) : Bool :=
  match s.act.queueOf with
  | none => true
  | some q =>
    let k := s.queueAt q
    let inside (base size : Nat) : Bool := decide (base ≤ a.toNat + lo) && decide (a.toNat + hi ≤ base + size)
    inside k.ctxpg 4096 || (!store && inside k.ring (64 * 2 ^ k.log2n))

/-- The queue of a program faults for an access outside its window (R277, R279). -/
def State.windowFault (s : State) : Res :=
  match s.act.queueOf with
  | none => .done s
  | some q => .done (s.faultQueue s.cur s.slot q 2)

/-! Places. -/

/-- The place some bytes further on. -/
def Place.shift (d : Nat) : Place → Place
  | .mem loc => .mem (loc + d)
  | .virt path va => .virt path (va + d)
  | .view v off => .view v (off + d)
  | .mailbox n off => .mailbox n (off + d)
  | .egress q off => .egress q (off + d)
  | .slice n off => .slice n (off + d)
  | .device off => .device (off + d)

/-- What a read answers: bytes, a poisoned granule by its address, a wait, or a walk. -/
inductive Got where
  | bytes (l : List Byte) (s : State)
  | poison (va : Dword)
  | wait
  | walk (w : Walk)

/-- Read bytes of storage at offsets from a location: the first poisoned granule decides (R313). -/
def State.readAt (s : State) (a : Dword) (loc : Nat) (offs : List Nat) : Got :=
  match offs.findSome? fun o => s.poisoned (loc + o) (loc + o + 1) with
  | some g => .poison (granuleAddr a loc g)
  | none => .bytes (offs.map fun o => memByte s.mem (loc + o)) s

/-- Read the elements of a view that the byte offsets cover (R89, R90, R313). -/
def State.readView (s : State) (c : Nat) (v : View) (off : Nat) (offs : List Nat) : Got :=
  match offs.findSome? fun o => s.viewPoison c v ((off + o) / 2) with
  | some g => .poison (BitVec.ofNat 64 (0x10 * 2 ^ 56 + g))
  | none => .bytes (offs.map fun o => BitVec.ofNat 8 (s.viewElement c v ((off + o) / 2) / 2 ^ (8 * ((off + o) % 2)))) s

/-- Every earlier store of the thread has performed (R122, R398). -/
def State.drained (s : State) : Bool := s.th.sbuf.isEmpty

/-- The thread has read by forwarding a value that stands behind a buffered store to one of some bytes, or is that store's own: an
access that does not forward waits for the store, so that it reads nothing older (R117). -/
def State.readBefore (s : State) (i : Issuer) (locs : List Nat) : Bool :=
  let t := s.thread i.core i.slot
  (t.sbuf.take t.seenBuf).any fun (b : Buffered) => locs.any fun l => (b.at_ l).isSome

/-- A load has been served from the store buffer: the thread has read the newest buffered store that overlaps it (R117, R119). -/
def State.noteSeen (s : State) (i : Issuer) (locs : List Nat) : State :=
  s.modThread i.core i.slot fun t =>
    let older := (t.sbuf.reverse.dropWhile fun (b : Buffered) => !locs.any fun l => (b.at_ l).isSome).length
    { t with seenBuf := max t.seenBuf older }

/-- ReadPath (R155): the bytes at offsets from an address whose place is known. -/
def State.readPlace (s : State) (i : Issuer) (a : Dword) (p : Place) (offs : List Nat) : Got :=
  match p with
  | .mem loc => if s.readBefore i (offs.map (loc + ·)) then .wait else s.readAt a loc offs
  | .virt path va =>
    match s.translate i.core i.asid path va .load with
    | .miss w => .walk w
    | .hit loc =>
      let s := s.touchTlb i.core i.asid path va .load
      let locs := offs.map (loc + ·)
      if path ≠ 0 then (if s.readBefore i locs then .wait else s.readAt a loc offs)
      else
        match forward (s.thread i.core i.slot).sbuf locs with
        | .bytes l => .bytes l (s.noteSeen i locs)
        | .wait => .wait
        | .memory => s.readAt a loc offs
  | .view v off => s.readView i.core v off offs
  | .mailbox n off =>
    match s.mbLoc? n off with
    | some loc => s.readAt a loc offs
    | none => .bytes (offs.map fun o => (s.mbBytes n (off + o) 1).headD 0) s
  | .egress _ _ => .bytes (offs.map fun _ => 0) s
  | .slice n off =>
    if !s.drained then .wait
    else .bytes (offs.map fun o => s.regByte (.slice n) (off + o)) (s.regTouch (.slice n) (offs.map (off + ·)))
  | .device off =>
    if !s.drained then .wait
    else .bytes (offs.map fun o => s.regByte .device (off + o)) (s.regTouch .device (offs.map (off + ·)))

/-- What a write answers. -/
inductive Put where
  | ok (s : State)
  | wait
  | walk (w : Walk)

/-- A slot's reservation on a port ends when the slot itself stores to a byte of its word (R127, R129). -/
def State.ownPortStore (s : State) (i : Issuer) (path : Nat) (locs : List Nat) : State :=
  match FMap.find s.resvs (slotKey i.core i.slot) with
  | some r => if r.path = path ∧ locs.any fun l => l / r.width == r.granule then s.dropResv i.core i.slot else s
  | none => s

/-- Narrow the BF16 elements that are stored through an FP8 view (R91): the flags, and the bytes by element. -/
def narrowCells (f : FloatFmt) (mode : RoundMode) (ocp : Bool) (off : Nat) : List (Nat × Byte) → List (Nat × Byte) × FlagSet
  | (o, lo) :: (_, hi) :: r =>
    let e := roundFloat f mode ocp (decodeFloat .bf16 (lo.toNat + 256 * hi.toNat))
    let t := narrowCells f mode ocp off r
    (((off + o) / 2, BitVec.ofNat 8 e.1) :: t.1, e.2 ||| t.2)
  | _ => ([], 0)

/-- WritePath (R155): bytes at offsets from an address whose place is known. A store through path 0x00 enters the store
buffer when it has room (R119, R443). -/
def State.writePlace (s : State) (i : Issuer) (p : Place) (cells : List (Nat × Byte)) (scalar : Bool := true) : Put :=
  let at_ (base : Nat) : List (Nat × Byte) := cells.map fun e => (base + e.1, e.2)
  match p with
  | .mem loc => .ok (s.storeCells (at_ loc))
  | .virt path va =>
    match s.translate i.core i.asid path va .store with
    | .miss w => .walk w
    | .hit loc =>
      let s := s.touchTlb i.core i.asid path va .store
      if path = 0 then
        if 8 ≤ (s.thread i.core i.slot).sbuf.length then .wait
        else .ok (s.modThread i.core i.slot fun t => { t with sbuf := t.sbuf ++ [at_ loc] })
      else .ok ((s.storeCells (at_ loc)).ownPortStore i path ((at_ loc).map (·.1)))
  | .view v off =>
    let r := narrowCells (if v = .e4m3 then .e4m3 else .e5m2) s.effMode (s.optSat == 2) off cells
    .ok ((s.storeCells (r.1.map fun e => (sramLoc i.core e.1, e.2))).flag r.2)
  | .mailbox _ _ => .ok s
  | .egress q off => .ok (s.stageBytes i q (at_ off))
  | .slice n off => if s.drained then .ok (s.regStore (.slice n) off (at_ off) scalar) else .wait
  | .device off => if s.drained then .ok (s.regStore .device off (at_ off) scalar) else .wait

/-! Scalar loads and stores. -/

/-- The address of an access whose base and offset carry out of bit 55, for the trap value (R347). -/
def State.mWrapped (s : State) (b : BitVec 4) (o : BitVec 15) (size : Nat) : Dword :=
  let n := match s.ext with | some _ => 31 | none => 15
  let off := match s.ext with | some p => p * 2 ^ 15 + o.toNat | none => o.toNat
  let a := s.th.getP b.toNat
  BitVec.ofNat 64 (bits a.toNat 56 8 * 2 ^ 56 + wrapTo ((bits a.toNat 0 56 : Nat) + signed off n * size) 56)

/-- A load of `size` bytes: the checks, the read, and what is done with the bytes (R412, R413). `w` is the instruction
word. -/
def State.load (s : State) (w : Word) (b : BitVec 4) (o : BitVec 15) (size : Nat) (use : List Byte → State → Res) : Res :=
  let path := s.basePath b
  let rule := s.safeRule (loadBlocks path) true path
  if rule ≠ 0 then .trap causeSafe (BitVec.ofNat 64 rule) s
  else
    match s.mAddr b o size with
    | none => s.accessTrap w causeRange (s.mWrapped b o size)
    | some a =>
      if !s.windowAllows false a 0 size then s.windowFault
      else
        match s.reach s.issuer a size 0 size .load with
        | .fault code off => s.accessTrap w code (a + BitVec.ofNat 64 off)
        | .wait => .wait .memory s
        | .to p =>
          match s.readPlace s.issuer a p (List.range size) with
          | .bytes l s => use l (s.countRead path)
          | .poison va => .trap causePoison va s
          | .wait => .wait .memory s
          | .walk w => .walk w s

/-- A store of a value of `size` bytes (R443, R444). -/
def State.storeTo (s : State) (w : Word) (b : BitVec 4) (o : BitVec 15) (size v : Nat) : Res :=
  let path := s.basePath b
  let rule := s.safeRule (storeBlocks path) false path
  if rule ≠ 0 then .trap causeSafe (BitVec.ofNat 64 rule) s
  else
    match s.mAddr b o size with
    | none => s.accessTrap w causeRange (s.mWrapped b o size)
    | some a =>
      if !s.windowAllows true a 0 size then s.windowFault
      else
        match s.reach s.issuer a size 0 size .store with
        | .fault code off => s.accessTrap w code (a + BitVec.ofNat 64 off)
        | .wait => .wait .memory s
        | .to p =>
          match s.writePlace s.issuer p ((List.range size).zip (leBytes size v)) with
          | .ok s => .retire s
          | .wait => .wait .memory s
          | .walk w => .walk w s

/-- Write a loaded x register: the bytes, sign- or zero-extended (R412). -/
def State.loadX (d : Reg) (n : Nat) (sx : Bool) (l : List Byte) (s : State) : Res :=
  .retire (s.setX d (if sx then BitVec.ofInt 32 (signed (leNat l) n) else BitVec.ofNat 32 (leNat l)))

/-- `lb` (R412). -/
def execLb (d : Reg) (b : BitVec 4) (o : BitVec 15) (s : State) : Out :=
  issue (.lb d b o) (fun s => s.load (encode (.lb d b o)) b o 1 (State.loadX d 8 true)) s

/-- `lbu` (R412). -/
def execLbu (d : Reg) (b : BitVec 4) (o : BitVec 15) (s : State) : Out :=
  issue (.lbu d b o) (fun s => s.load (encode (.lbu d b o)) b o 1 (State.loadX d 8 false)) s

/-- `lh` (R412). -/
def execLh (d : Reg) (b : BitVec 4) (o : BitVec 15) (s : State) : Out :=
  issue (.lh d b o) (fun s => s.load (encode (.lh d b o)) b o 2 (State.loadX d 16 true)) s

/-- `lhu` (R412). -/
def execLhu (d : Reg) (b : BitVec 4) (o : BitVec 15) (s : State) : Out :=
  issue (.lhu d b o) (fun s => s.load (encode (.lhu d b o)) b o 2 (State.loadX d 16 false)) s

/-- `lw` (R412). -/
def execLw (d : Reg) (b : BitVec 4) (o : BitVec 15) (s : State) : Out :=
  issue (.lw d b o) (fun s => s.load (encode (.lw d b o)) b o 4 (State.loadX d 32 false)) s

/-- `ld` (R412). -/
def execLd (d : Reg) (b : BitVec 4) (o : BitVec 15) (s : State) : Out :=
  issue (.ld d b o) (fun s => s.load (encode (.ld d b o)) b o 8 fun l s => .retire (s.setP d (BitVec.ofNat 64 (leNat l)))) s

/-- `sb` (R443). -/
def execSb (d : Reg) (b : BitVec 4) (o : BitVec 15) (s : State) : Out :=
  issue (.sb d b o) (fun s => s.storeTo (encode (.sb d b o)) b o 1 (s.x d).toNat) s

/-- `sh` (R443). -/
def execSh (d : Reg) (b : BitVec 4) (o : BitVec 15) (s : State) : Out :=
  issue (.sh d b o) (fun s => s.storeTo (encode (.sh d b o)) b o 2 (s.x d).toNat) s

/-- `sw` (R443). -/
def execSw (d : Reg) (b : BitVec 4) (o : BitVec 15) (s : State) : Out :=
  issue (.sw d b o) (fun s => s.storeTo (encode (.sw d b o)) b o 4 (s.x d).toNat) s

/-- `sd` (R443). -/
def execSd (d : Reg) (b : BitVec 4) (o : BitVec 15) (s : State) : Out :=
  issue (.sd d b o) (fun s => s.storeTo (encode (.sd d b o)) b o 8 (s.p d).toNat) s

/-! Vector loads and stores (R486, R487). -/

/-- The first byte of an access that its checks refuse, among the units of `w` bytes at some offsets. -/
def State.reachUnits (s : State) (a : Dword) (size w : Nat) (acc : Access) : List Nat → Reach → Reach
  | [], r => r
  | j :: rest, r =>
    match s.reach s.issuer a size j (j + w) acc with
    | .to _ => s.reachUnits a size w acc rest r
    | e => e

/-- The offsets of the bytes of the active lanes of width `w`. -/
def activeOffs (k : Word) (w : Nat) : List Nat := (List.range 32).filter fun j => k.getLsbD (j / w * w)

/-- Check a 32-byte access on its active lanes only (R486): the place of offset 0. -/
def State.reachVec (s : State) (a : Dword) (k : Word) (acc : Access) : Reach :=
  let p := pathByte a
  let w := if 0x11 ≤ p ∧ p ≤ 0x15 then 2 else 1
  match (List.range (lanes w)).filter (active k w) with
  | [] => .to (.device 0)
  | j :: rest =>
    match s.reach s.issuer a 32 (w * j) (w * j + w) acc with
    | .to q => s.reachUnits a 32 w acc (rest.map (w * ·)) (.to (match q with
        | .mem loc => .mem (loc - w * j)
        | .virt path va => .virt path (va - w * j)
        | .view v off => .view v off
        | .mailbox n off => .mailbox n (off - w * j)
        | .egress q off => .egress q (off - w * j)
        | .slice n off => .slice n (off - w * j)
        | .device off => .device (off - w * j)))
    | e => e

/-- The width of the lanes that a mask of `vld` or `vst` selects (R486). -/
def pathLane (path : Nat) : Nat := if 0x11 ≤ path ∧ path ≤ 0x15 then 2 else 1

/-- The walk of a masked access names the address of its first active byte (R82, R110; DEDUCED, log entry 76). -/
def Walk.atByte (w : Walk) (offs : List Nat) : Walk := { w with va := w.va + offs.headD 0 }

/-- `vld` on a thread whose register operands are ready (R486, R487). -/
def State.vecLoad (s : State) (w : Word) (d : Reg) (b : BitVec 4) (k : Word) (o : BitVec 15) : Res :=
  let path := s.basePath b
  let offs := activeOffs k (pathLane path)
  if offs.isEmpty then .retire (s.vput d.toNat (s.vold d.toNat))
  else
    let rule := s.safeRule (loadBlocks path) true path
    if rule ≠ 0 then .trap causeSafe (BitVec.ofNat 64 rule) s
    else
      match s.mAddr b o 32 with
      | none => s.accessTrap w causeRange (s.mWrapped b o 32)
      | some a =>
        if a.toNat % 32 ≠ 0 then s.accessTrap w causeAlign a
        else
          match s.reachVec a k .load with
          | .fault code off => s.accessTrap w code (a + BitVec.ofNat 64 off)
          | .wait => .wait .memory s
          | .to p =>
            match s.readPlace s.issuer a p offs with
            | .bytes l s =>
              let m : FMap Byte := offs.zip l
              .retire ((s.countRead path).vput d.toNat
                (ofLanes 1 ((List.range 32).map fun j =>
                  match FMap.find m j with | some v => v.toNat | none => lane (s.vold d.toNat) 1 j)))
            | .poison va => .trap causePoison va s
            | .wait => .wait .memory s
            | .walk w => .walk (w.atByte offs) s

/-- `vst` on a thread whose register operands are ready (R486, R487). -/
def State.vecStore (s : State) (w : Word) (d : Reg) (b : BitVec 4) (k : Word) (o : BitVec 15) : Res :=
  let path := s.basePath b
  let offs := activeOffs k (pathLane path)
  if offs.isEmpty then .retire s
  else
    let rule := s.safeRule (storeBlocks path) false path
    if rule ≠ 0 then .trap causeSafe (BitVec.ofNat 64 rule) s
    else
      match s.mAddr b o 32 with
      | none => s.accessTrap w causeRange (s.mWrapped b o 32)
      | some a =>
        if a.toNat % 32 ≠ 0 then s.accessTrap w causeAlign a
        else
          match s.reachVec a k .store with
          | .fault code off => s.accessTrap w code (a + BitVec.ofNat 64 off)
          | .wait => .wait .memory s
          | .to p =>
            match s.writePlace s.issuer p (offs.map fun j => (j, BitVec.ofNat 8 (lane (s.vsrc d.toNat) 1 j))) false with
            | .ok s => .retire s
            | .wait => .wait .memory s
            | .walk w => .walk (w.atByte offs) s

/-- `vld` (R486). -/
def execVld (d : Reg) (b : BitVec 4) (k : BitVec 2) (o : BitVec 15) (s : State) : Out :=
  issue (.vld d b k o) (fun s => s.vector [] [d.toNat] fun s =>
    s.vecLoad (encode (.vld d b k o)) d b (s.k (k.setWidth 3)) o) s

/-- `vst` (R486). -/
def execVst (d : Reg) (b : BitVec 4) (k : BitVec 2) (o : BitVec 15) (s : State) : Out :=
  issue (.vst d b k o) (fun s =>
    if s.opt ≠ 0 ∧ s.basePath b ≠ 0x14 ∧ s.basePath b ≠ 0x15 then
      .trap causeIllegal (wordValue (encode (.vst d b k o))) s
    else s.vector [d.toNat] [] fun s =>
      s.vecStore (encode (.vst d b k o)) d b (s.k (k.setWidth 3)) o) s

/-! Gather and scatter (R488 to R490). -/

/-- A lane's address and, once checked, its place. -/
abbrev LanePlace := Nat × Dword × Place

/-- The addresses of the active lanes and their places, in ascending order: the first that its check refuses decides. -/
inductive LaneCheck where
  | ok (l : List LanePlace)
  | fault (code : Nat) (va : Dword)
  | wait

/-- Check the lanes of a gather or scatter (R489). `idx` gives a lane's signed index. -/
def State.checkLanes (s : State) (base : Dword) (w : Nat) (idx : Nat → Int) (acc : Access) : List Nat → LaneCheck
  | [] => .ok []
  | i :: rest =>
    match offsetPair base (idx i * w) with
    | none => .fault causeRange
        (BitVec.ofNat 64 (bits base.toNat 56 8 * 2 ^ 56 + wrapTo ((bits base.toNat 0 56 : Nat) + idx i * w) 56))
    | some a =>
      match s.reach s.issuer a w 0 w acc with
      | .fault code off => .fault code (a + BitVec.ofNat 64 off)
      | .wait => .wait
      | .to p =>
        match s.checkLanes base w idx acc rest with
        | .ok l => .ok ((i, a, p) :: l)
        | e => e

/-- The first lane whose page no TLB entry serves (R108, R489). -/
def State.laneWalk (s : State) (kind : AccessKind) (l : List LanePlace) : Option Walk :=
  l.findSome? fun e =>
    match e.2.2 with
    | .virt path va =>
      match s.translate s.cur s.act.asid path va kind with
      | .miss w => some w
      | .hit _ => none
    | _ => none

/-- Read the lanes of a gather in ascending order. -/
def State.readLanes (s : State) (w : Nat) : List LanePlace → Got
  | [] => .bytes [] s
  | e :: rest =>
    match s.readPlace s.issuer e.2.1 e.2.2 (List.range w) with
    | .bytes l t =>
      match t.readLanes w rest with
      | .bytes r u => .bytes (l ++ r) u
      | g => g
    | g => g

/-- Write the lanes of a scatter in ascending order; on path 0x00 each performs at once (R489). -/
def State.writeLanes (s : State) (w : Nat) (v : Vec) : List LanePlace → Put
  | [] => .ok s
  | e :: rest =>
    let cells := (List.range w).map fun j => (j, BitVec.ofNat 8 (lane v 1 (w * e.1 + j)))
    let one : Put := match e.2.2 with
      | .virt 0 va =>
        match s.translate s.cur s.act.asid 0 va .store with
        | .hit loc => .ok ((s.touchTlb s.cur s.act.asid 0 va .store).storeCells (cells.map fun c => (loc + c.1, c.2)))
        | .miss w => .walk w
      | p => s.writePlace s.issuer p cells false
    match one with
    | .ok t => t.writeLanes w v rest
    | r => r

/-- The index of a lane: signed but for z8 (R489). -/
def laneIndex (e : Elem) (v : Vec) (i : Nat) : Int := e.ifmt.decode (lane v e.bytes i)

/-- `vldg` on a thread whose register operands are ready (R489, R490). -/
def State.gather (s : State) (w : Word) (d : Reg) (p : Reg) (b : Reg) (k : Word) (y : BitVec 3) : Res :=
  let e := elemOf y 0
  let base := s.p p
  let path := pathByte base
  let on := (List.range (lanes e.bytes)).filter (active k e.bytes)
  let old := s.vold d.toNat
  if on.isEmpty then .retire (s.vput d.toNat old)
  else
    let rule := s.safeRule (loadBlocks path) true path
    if rule ≠ 0 then .trap causeSafe (BitVec.ofNat 64 rule) s
    else
      match s.checkLanes base e.bytes (laneIndex e (s.vsrc b.toNat)) .load on with
      | .fault code va => s.accessTrap w code va
      | .wait => .wait .memory s
      | .ok l =>
        match s.laneWalk .load l with
        | some w => .walk w s
        | none =>
          match s.readLanes e.bytes l with
          | .bytes r s =>
            let m : FMap Nat := (List.range on.length).map fun j => (on.getD j 0, leNat ((r.drop (e.bytes * j)).take e.bytes))
            .retire ((s.countRead path).vput d.toNat (mapLanes k e.bytes old fun i => FMap.get m i 0))
          | .poison va => .trap causePoison va s
          | .wait => .wait .memory s
          | .walk w => .walk w s

/-- `vsts` on a thread whose register operands are ready (R489, R490). -/
def State.scatter (s : State) (w : Word) (d : Reg) (p : Reg) (b : Reg) (k : Word) (y : BitVec 3) : Res :=
  let e := elemOf y 0
  let base := s.p p
  let path := pathByte base
  let on := (List.range (lanes e.bytes)).filter (active k e.bytes)
  if on.isEmpty then .retire s
  else
    let rule := s.safeRule (storeBlocks path) false path
    if rule ≠ 0 then .trap causeSafe (BitVec.ofNat 64 rule) s
    else
      match s.checkLanes base e.bytes (laneIndex e (s.vsrc b.toNat)) .store on with
      | .fault code va => s.accessTrap w code va
      | .wait => .wait .memory s
      | .ok l =>
        match s.laneWalk .store l with
        | some w => .walk w s
        | none =>
          if path = 0 && !s.drained then .wait .memory s
          else
            match s.writeLanes e.bytes (s.vsrc d.toNat) l with
            | .ok s => .retire s
            | .wait => .wait .memory s
            | .walk w => .walk w s

/-- `vldg` (R489). -/
def execVldg (d : Reg) (p : Reg) (b : Reg) (k : BitVec 3) (y : BitVec 3) (s : State) : Out :=
  issue (.vldg d p b k y) (fun s => s.vector [b.toNat] [d.toNat] fun s =>
    s.gather (encode (.vldg d p b k y)) d p b (s.k k) y) s

/-- `vsts` (R489). -/
def execVsts (d : Reg) (p : Reg) (b : Reg) (k : BitVec 3) (y : BitVec 3) (s : State) : Out :=
  issue (.vsts d p b k y) (fun s => s.vector [d.toNat, b.toNat] [] fun s =>
    s.scatter (encode (.vsts d p b k y)) d p b (s.k k) y) s

end Sys2Proof.Machine
end

