-- ==== Sys2Proof/Machine/Lines.lean ====
section
/-! DEFINITION. The line instructions of slice agents (R267, R268, R416), the line events that start handlers (R262, R263,
R265), and the budget of a handler (R266). -/

namespace Sys2Proof.Machine

/-! Instructions. -/

/-- The lines of stream windows in a set of a slice (R226). -/
def State.sinkKeys (s : State) (n key : Nat) : List Nat :=
  s.streams.flatMap fun e =>
    let k := e.2
    if !k.valid then []
    else
      ((List.range (k.size / 128)).map fun i => lineKey (k.base + 128 * i)).filter fun j =>
        lineHome j == n && lineSet j == lineSet key

/-- The lines of a set that count as pinned (R268). -/
def State.pinnedKeys (s : State) (n key : Nat) : List Nat :=
  (((s.sliceAt n).lines.filter fun e => e.2.present && decide (0 < e.2.pins) && lineSet e.1 == lineSet key).map (·.1)
    ++ s.sinkKeys n key).eraseDups

/-- The frame owner table gives a physical address to an address-space id (R268, R290). -/
def State.ownsFrame (s : State) (asid : BitVec 16) (pa : Nat) : Bool :=
  (s.frames.find? fun f => decide (f.1 ≤ pa / 4096) && decide (pa / 4096 < f.1 + f.2.1)).any (·.2.2 == asid)

/-- The checks of R268, in order: the code that the first failed one writes, or 0. `frames` asks for the third. -/
def State.lineRefuses (s : State) (pa : Nat) (owned frames : Bool) : Nat :=
  let n := unitIndex s.cur
  let key := lineKey pa
  if !isBacked pa ∨ homeSlice pa ≠ n then 3
  else if owned ∧ !s.sup ∧ ((s.lineAt n key).any fun l => l.present && l.owner != s.act.asid) then 4
  else if frames ∧ !s.sup ∧ !s.ownsFrame s.act.asid pa then 4
  else 0

/-- The owner that a line brought in by a thread of an agent has (R263, R268). -/
def State.rowAsid (s : State) : BitVec 16 := if s.act.rowOf.isSome then s.act.asid else 0

/-- `lpin` on a line of the slice that passed the checks (R268); on a held victim it is a veto, and replacement chooses another
way with no further event (R265). -/
def State.pinLine (s : State) (n key : Nat) : State × Word :=
  match s.lineAt n key with
  | none => (s, 2)
  | some l =>
    if !l.present then (s, 2)
    else if 255 ≤ l.pins ∨ 12 < (key :: s.pinnedKeys n key).eraseDups.length then (s, 0)
    else
      let s := if l.held then s.modSlice n fun k => { k with silent := (lineSet key :: k.silent).eraseDups } else s
      (s.setLine n key { l with pins := l.pins + 1, held := false }, 1)

/-- `lunpin` (R268). -/
def State.unpinLine (s : State) (n key : Nat) : State × Word :=
  match s.lineAt n key with
  | none => (s, 2)
  | some l =>
    if !l.present || l.pins = 0 then (s, 2) else (s.setLine n key { l with pins := l.pins - 1 }, 1)

/-- The fills that the agent of a slice has in flight (R268). -/
def Slice.agentFills (k : Slice) : Nat := (k.lines.filter fun e => e.2.filling && e.2.byAgent).length

/-- `lfill`: a fill from DRAM, or of some bytes with their flag DIRTY (R268). -/
def State.fillLine (s : State) (n key : Nat) (data : Option (List Byte)) (dirty : Bool) : State × Word :=
  let l := s.lineAt n key
  if 8 ≤ (s.sliceAt n).agentFills then (s, 0)
  else if l.any fun l => l.present && !l.held then (s, 2)
  else
    let s := if l.any (·.present) then s.dropLine n key true else s
    let back := s.read (128 * key) 128
    let s := match data with
      | some bs => s.putLine key bs
      | none => s
    let new : Line := { owner := s.rowAsid, present := false, filling := true, byAgent := true, dirty := dirty,
                        orig := data.getD back, back := back }
    (s.setLine n key new, 1)

/-- `ldrop` (R268). -/
def State.discardLine (s : State) (n key : Nat) (wb : Bool) : State × Word :=
  match s.lineAt n key with
  | none => (s, 2)
  | some l =>
    if !l.present then (s, 2)
    else if l.pins ≠ 0 || s.sinkLine key then (s, 0)
    else (s.dropLine n key wb, 1)

/-- The word of `lprobe` (R268). -/
def State.probeLine (s : State) (n key : Nat) : Word :=
  match s.lineAt n key with
  | none => 0
  | some l => BitVec.ofNat 32 ((if l.present then 1 else 0) + (if s.lineDirty key l then 2 else 0) + (if l.held then 4 else 0)
      + l.way * 16 + l.pins * 256 + l.owner.toNat * 65536)

/-- A line operation: the accesses before it perform, the checks run, and the answer goes to xd (R122, R268, R416). -/
def State.lineOp (s : State) (d p : Reg) (owned frames : Bool) (op : State → Nat → Nat → State × Word) : Res :=
  let s := s.drain
  let pa := (s.p p).toNat / 128 * 128
  let code := s.lineRefuses pa owned frames
  if code ≠ 0 then s.retX d (BitVec.ofNat 32 code)
  else
    let r := op s (unitIndex s.cur) (lineKey pa)
    r.1.retX d r.2

/-- `lpin` (R268). -/
def execLpin (d : Reg) (p : Reg) (s : State) : Out :=
  issue (.lpin d p) (fun s => s.lineOp d p true false State.pinLine) s

/-- `lunpin` (R268). -/
def execLunpin (d : Reg) (p : Reg) (s : State) : Out :=
  issue (.lunpin d p) (fun s => s.lineOp d p true false State.unpinLine) s

/-- `lfill` (R268, R416); a poisoned source traps as a load of it would. -/
def execLfill (d : Reg) (p : Reg) (t : Reg) (s : State) : Out :=
  issue (.lfill d p t) (fun s =>
    let v := (s.x t).toNat
    let off := bits v 0 17
    let a : Dword := BitVec.ofNat 64 (0x10 * 2 ^ 56 + off)
    let loc := sramLoc s.cur off
    if bits v 17 13 ≠ 0 ∨ off % 128 ≠ 0 then .trap causeIllegal (wordValue (encode (.lfill d p t))) s
    else if bit v 31 then s.lineOp d p true true fun s n key => s.fillLine n key none false
    else if !s.ownAllowed s.issuer off 128 then s.accessTrap (encode (.lfill d p t)) causeRange a
    else
      match s.poisoned loc (loc + 128) with
      | some g => .trap causePoison (granuleAddr a loc g) s
      | none => s.lineOp d p true true fun s n key => s.fillLine n key (some (s.read loc 128)) (bit v 30)) s

/-- `ldrop` (R268). -/
def execLdrop (d : Reg) (p : Reg) (t : Reg) (s : State) : Out :=
  issue (.ldrop d p t) (fun s =>
    let v := (s.x t).toNat
    if bits v 1 31 ≠ 0 then .trap causeIllegal (wordValue (encode (.ldrop d p t))) s
    else s.lineOp d p true true fun s n key => s.discardLine n key (bit v 0)) s

/-- `lprobe` (R268). -/
def execLprobe (d : Reg) (p : Reg) (s : State) : Out :=
  issue (.lprobe d p) (fun s => s.lineOp d p false false fun s n key => (s, s.probeLine n key)) s

/-! Events (R262 to R265). -/

/-- The agent core of a slice. -/
def agentCore (n : Nat) : Nat := 288 + n

/-- The row that serves an address-space id for an event, by the row bit that enables it (R263, R264). -/
def State.servingRow (s : State) (n enable : Nat) (asid : BitVec 16) : Option Nat :=
  if !s.feature 6 then none
  else
    ((s.sliceAt n).rows.find? fun e =>
      let v := e.2.toNat
      bit v 127 && !bit v 126 && bit v enable && bits v 96 16 == asid.toNat).map (·.1)

/-- The row bit that enables a kind of event (R264, R265). -/
def eventBit (kind : Nat) : Nat := if kind = 0 then 125 else if kind = 1 then 124 else if kind = 2 then 123 else 122

/-- An event or message of an agent waits for a slot; none when the queue of 64 is full (R262). -/
def State.queueWork (s : State) (n : Nat) (w : AgentWork) : Option State :=
  let k := s.core (agentCore n)
  if 64 ≤ k.work.length then none else some (s.setCore (agentCore n) { k with work := k.work ++ [w] })

/-- A row loses an event to the full queue (R262, R264). -/
def State.countDrop (s : State) (n r : Nat) : State :=
  let v := (s.row n r).toNat
  s.setRow n r (BitVec.ofNat 128 (setBits v 40 8 (min (bits v 40 8 + 1) 255)))

/-- A line event goes to the owner's row: the state, and the number of the hold when the line is to be held for the handler that
will run (R262, R263, R265). -/
def State.raiseLine (s : State) (n kind : Nat) (owner : BitVec 16) (e : LineEvent) : State × Option Nat :=
  match s.servingRow n (eventBit kind) owner with
  | none => (s, none)
  | some r =>
    let hold := if kind == 2 || (kind == 0 && bit (s.row n r).toNat 121) then some (s.sliceAt n).holdSeq else none
    match s.queueWork n (.line kind r owner hold e) with
    | some t => (if hold.isSome then t.modSlice n fun k => { k with holdSeq := k.holdSeq + 1 } else t, hold)
    | none => (s.countDrop n r, none)

/-- A line event can be one of its slice: the line is backed and homed there. -/
def lineEventOk (e : LineEvent) : Bool :=
  decide (e.slice < 64) && isBacked e.pa.toNat && homeSlice e.pa.toNat == e.slice

/-- A line that is missed at its home slice: its fill goes on, or is held for an intercepting handler (R265). -/
def State.missLine (s : State) (e : LineEvent) : State :=
  let n := e.slice
  let key := lineKey e.pa.toNat
  if (s.lineAt n key).isSome then s
  else
    let r := s.raiseLine n 0 e.asid e
    let bs := s.read (128 * key) 128
    r.1.setLine n key { owner := e.asid, present := false, held := r.2.isSome, hold := r.2.getD 0, filling := r.2.isNone,
                        orig := bs, back := bs }

/-- LINE_MISS_EVENT (R265). -/
def execLineMissEvent (e : LineEvent) (s : State) : Out := event (lineEventOk e) (fun s => s.missLine e) s

/-- The access code of x11 in the miss that a `pf` brings about, by its hint and path (R265, R347; DEDUCED, log entry 77). -/
def pfAccess (h path : Nat) : Nat := if h = 1 then 4 else if h = 2 then 1 else if path = 1 then 3 else 0

/-- A `pf` whose leaf is known requests its line at the home slice, where the page's policy lets the die cache hold it; a line
of poison is left alone (R104, R313, R435). -/
def State.fetchLine (s : State) (c : Nat) (p : Prefetch) (t : TlbEntry) : State :=
  let pa := leafPa t.level t.leaf.toNat p.va
  let key := lineKey pa
  if pathRoot p.path ≠ 0 ∨ bits t.leaf.toNat 7 2 = 2 ∨ isBacked pa = false ∨
      (s.poisoned (128 * key) (128 * key + 128)).isSome then s
  else s.missLine
    { slice := homeSlice pa, pa := BitVec.ofNat 64 pa, va := BitVec.ofNat 64 (p.path * 2 ^ 56 + p.va), way := 16, asid := p.asid
      dirty := false
      requester := BitVec.ofNat 32 (unitIndex c + unitCode c % 4 * 256 + p.slot * 1024 + pfAccess p.hint p.path * 4096) }

/-- A `pf` goes through the TLB, or asks for a walk and goes on when that has ended, whatever its thread does meanwhile (R108, R110,
R435; log entry 99). -/
def State.startPrefetch (s : State) (c : Nat) (p : Prefetch) : State :=
  match (s.core c).tlbHit (pathRoot p.path) p.asid p.va .load with
  | some t => (s.touchTlb c p.asid p.path p.va .load).fetchLine c p t
  | none => (s.modCore c fun k => { k with prefetches := k.prefetches ++ [p] }).askWalk (p.request c)

/-- The walk that a `pf` waited for has ended: it goes on, or, its translation having failed, has no effect (R110). -/
def State.prefetchWalked (s : State) (c : Nat) (p : Prefetch) : State :=
  let s := s.modCore c fun k => { k with prefetches := k.prefetches.erase p }
  match s.performWalk c p.asid p.walk with
  | (t, none) =>
    match (t.core c).tlbHit (pathRoot p.path) p.asid p.va .load with
    | some e => t.fetchLine c p e
    | none => t
  | (_, some _) => s

/-- A `pf` requests its line; an access that its check would refuse has no effect (R81, R82, R435). -/
def State.prefetch (s : State) (h : Nat) (a : Dword) : State :=
  match s.reach s.issuer a 1 0 128 .load with
  | .to (.virt path va) => s.startPrefetch s.cur { slot := s.slot, asid := s.act.asid, path := path, va := va, hint := h }
  | _ => s

/-- `pf`: a hint, which writes no register, never waits and never faults (R347, R435). -/
def execPf (b : BitVec 4) (h : BitVec 2) (o : BitVec 15) (s : State) : Out :=
  issue (.pf b h o) (fun s =>
    match s.mAddr b o 128 with
    | none => .retire s
    | some a =>
      let a := a &&& ~~~(127 : Dword)
      .retire (if s.windowAllows false a 0 128 then s.prefetch h.toNat a else s)) s

/-- A set's next eviction raises no event, or raises one again (R265). -/
def State.setSilent (s : State) (n key : Nat) (b : Bool) : State :=
  s.modSlice n fun k =>
    let rest := k.silent.filter (· != lineSet key)
    { k with silent := if b then lineSet key :: rest else rest }

/-- LINE_FILL_EVENT (R265): a line under way, or one brought in unseen, is installed when its set has a free way. -/
def execLineFillEvent (e : LineEvent) (s : State) : Out :=
  event (lineEventOk e) (fun s =>
    let n := e.slice
    let key := lineKey e.pa.toNat
    let bs := s.read (128 * key) 128
    let l := (s.lineAt n key).getD { owner := e.asid, present := false, filling := true, orig := bs, back := bs }
    match (if l.filling then (s.sliceAt n).freeWay key else none) with
    | none => s
    | some w =>
      let way := if ((s.sliceAt n).waysUsed key).contains e.way || 16 ≤ e.way then w else e.way
      let s := (s.setLine n key { l with present := true, filling := false, byAgent := false, way := way }).setSilent n key false
      (s.raiseLine n 1 l.owner { e with way := way }).1) s

/-- LINE_EVICTION_EVENT (R265): replacement has chosen an unpinned victim, which is held for its owner's handler or leaves;
one chosen in the place of a vetoed victim leaves with no further event. -/
def execLineEvictionEvent (e : LineEvent) (s : State) : Out :=
  event (lineEventOk e) (fun s =>
    let n := e.slice
    let key := lineKey e.pa.toNat
    match FMap.find (s.sliceAt n).lines key with
    | none => s
    | some l =>
      if !l.present || l.held || l.pins ≠ 0 || s.sinkLine key then s
      else if (s.sliceAt n).silent.contains (lineSet key) then (s.dropLine n key true).setSilent n key false
      else
        let r := s.raiseLine n 2 l.owner { e with way := l.way, dirty := s.lineDirty key l }
        match r.2 with
        | some h => r.1.setLine n key { l with held := true, hold := h }
        | none => r.1.dropLine n key true) s

/-! Handlers (R262, R265, R266). -/

/-- The registers of a line event's handler (R265). -/
def lineBank (n slot kind row : Nat) (e : LineEvent) (entry : Dword) : Bank :=
  let pa := e.pa.toNat / 128 * 128
  let x10 := (if bit row 121 then 1 else 0) + (if kind = 2 ∧ e.dirty then 2 else 0) + e.way % 16 * 16
  let va := if kind = 0 then e.va.toNat else 0
  let words : List Nat := [x10, e.requester.toNat % 2 ^ 16, pa % 2 ^ 32, pa / 2 ^ 32, va % 2 ^ 32, va / 2 ^ 32, lineSet (lineKey pa), 0]
  startBank (infoWord false false false n slot kind) (BitVec.ofNat 32 (n * 2 ^ 24 + 2 * 2 ^ 21)) (words.map (BitVec.ofNat 32))
    0 entry

/-- A handler starts on a slot of an agent (R262, R264, R265). -/
def State.startHandler (s : State) (n slot r tag : Nat) (line : Option (Nat × Nat)) (bank : Dword → Bank) : State :=
  let v := (s.row n r).toNat
  let entry : Dword := BitVec.ofNat 64 (bits v 0 17)
  let asid := BitVec.ofNat 16 (bits v 96 16)
  let a : Activation :=
    { kind := .handler r, bind := r, tag := BitVec.ofNat 16 tag, entry := entry, asid := asid, ctx := s.contextId false asid,
      budget := if bits v 64 16 = 0 then 2000 else bits v 64 16, headerDone := false, line := line,
      window := (rowBase (s.row n r), rowSize (s.row n r)) }
  s.begin (agentCore n) slot (bank entry) a 0 0 0 0 false false false

/-- The row of a piece of work still serves it: valid, not disabled, with the event enabled and the address-space id of the
line's owner or the message's sender (R263). -/
def State.rowServes (s : State) (n r kind : Nat) (asid : BitVec 16) : Bool :=
  let v := (s.row n r).toNat
  bit v 127 && !bit v 126 && bit v (eventBit kind) && bits v 96 16 == asid.toNat

/-- The lowest free slot of an agent. -/
def State.agentSlot (s : State) (n : Nat) : Option Nat :=
  let k := s.core (agentCore n)
  if s.dispatchBarred (agentCore n) then none else (List.range 4).find? k.slotFree

/-- The oldest work of an agent starts on a free slot; where its row no longer serves, the slice goes on without the agent
(R262, R263). -/
def State.dispatchWork (s : State) (n : Nat) : State :=
  let c := agentCore n
  match (s.core c).work, s.agentSlot n with
  | w :: rest, some slot =>
    let s := s.modCore c fun k => { k with work := rest }
    match w with
    | .line kind r asid hold e =>
      let held := hold.map fun h => (lineKey e.pa.toNat, h)
      if s.rowServes n r kind asid then s.startHandler n slot r 0 held (lineBank n slot kind (s.row n r).toNat e)
      else match held with
        | some h => s.letGo n h.1 h.2
        | none => s
    | .message r m =>
      if s.rowServes n r 3 m.asid then
        s.startHandler n slot r m.tag none fun entry =>
          startBank (infoWord false false false n slot 3) (headerWord m) m.payload 0 entry
      else s.unboundRecord c m
  | _, _ => s

/-- AGENT_BUDGET_EXPIRY (R266): a handler that reaches its budget is killed and OVR is raised. -/
def execAgentBudgetExpiry (core slot : Nat) (s : State) : Out :=
  event (coreType core == .agent && decide (core < 352) && decide (slot < 4)) (fun s =>
    let t := s.thread core slot
    match t.act.bind fun a => a.rowOf.map fun r => (a, r) with
    | some (a, r) => if a.budget ≤ a.cycles then (s.overrun core slot r).endThread core slot .killed else s
    | none => s) s

end Sys2Proof.Machine
end

