-- ==== Sys2Proof/Machine/Counters.lean ====
section
/-! DEFINITION. Arrival counters (R191, R192, R385), barriers (R377 to R379), triggers and dependences (R47, R463, R495). -/

namespace Sys2Proof.Machine

/-! Counters. -/

/-- A counter of the thread whose turn it is: the slot's own on a slice agent, else the tile's (R192, R261). -/
def State.counter (s : State) (n : Nat) : Word :=
  if coreType s.cur = .agent then FMap.get s.th.ctr n 0 else FMap.get (s.core s.cur).cx.ctr n 0

/-- Set a counter of the thread whose turn it is. -/
def State.setCounter (s : State) (n : Nat) (v : Word) : State :=
  if coreType s.cur = .agent then s.modTh fun t => { t with ctr := FMap.set t.ctr n v 0 }
  else s.modCore s.cur fun k => { k with cx := { k.cx with ctr := FMap.set k.cx.ctr n v 0 } }

/-- P has passed a phase or threshold, in 32-bit serial order (R192, R378). -/
def reached (a b : Word) : Bool := !(a - b).msb

/-- A counter that the thread whose turn it is has: a slice agent's slot has 16 (R261). -/
def State.hasCounter (s : State) (n : Nat) : Bool := coreType s.cur != .agent || decide (n < 16)

/-- The operand of a counter instruction names a counter, with its reserved bits clear. -/
def State.counterOk (s : State) (v : Word) : Bool := bits v.toNat 6 26 == 0 && s.hasCounter (bits v.toNat 0 6)

/-- `cwait` (R385). -/
def execCwait (d : Reg) (a : Reg) (t : Reg) (s : State) : Out :=
  issue (.cwait d a t) (fun s =>
    let c := s.counter (bits (s.x a).toNat 0 6)
    if !s.counterOk (s.x a) then .trap causeMover 1 s
    else if reached c (s.x t) then s.retX d c
    else .wait .counter (s.waitsOn (bits (s.x a).toNat 0 6))) s

/-- The core whose counter a remote add names, or the cause and value of its trap (R192, R385). -/
def State.caddTarget (s : State) (w : Word) (v : Nat) : Nat ⊕ (Nat × Dword) :=
  let id := bits v 8 8
  if bit v 16 then
    match (if id < s.gangSize s.act.gang then s.memberTile s.act.gang id else none) with
    | some c => .inl c
    | none => .inr (causeMover, 7)
  else if !s.sup then .inr (causePriv, wordValue w)
  else if coreType s.cur = .reflex then (if id < 32 then .inl (256 + id) else .inr (causeMover, 7))
  else .inl id

/-- `cadd`, local or remote; it is a release (R132, R385). On a slice agent a number from 16 up traps in either form (R261). -/
def execCadd (a : Reg) (t : Reg) (s : State) : Out :=
  issue (.cadd a t) (fun s =>
    let v := (s.x a).toNat
    let n := bits v 0 6
    if bits v 6 2 ≠ 0 ∨ bits v 18 14 ≠ 0 ∨ !s.hasCounter n then .trap causeMover 1 s
    else if bit v 17 then
      match s.caddTarget (encode (.cadd a t)) v with
      | .inr e => .trap e.1 e.2 s
      | .inl c =>
        let s := s.drain
        .retire { s with flight := { s.flight with cadds := s.flight.cadds ++ [(c, n, s.x t)] } }
    else
      let s := s.drain
      .retire (s.setCounter n (s.counter n + s.x t))) s

/-- `cset` (R385). -/
def execCset (a : Reg) (t : Reg) (s : State) : Out :=
  issue (.cset a t) (fun s =>
    if !s.counterOk (s.x a) then .trap causeMover 1 s
    else .retire (s.setCounter (bits (s.x a).toNat 0 6) (s.x t))) s

/-- `crd` (R385). -/
def execCrd (d : Reg) (a : Reg) (s : State) : Out :=
  issue (.crd d a) (fun s =>
    if !s.counterOk (s.x a) then .trap causeMover 1 s
    else s.retX d (s.counter (bits (s.x a).toNat 0 6))) s

/-! Barriers (R377 to R379). -/

/-- An arrival at a tile barrier: the number of the open phase, and the barrier after it (R378). -/
def TileBar.arrive (b : TileBar) (count : Nat) : TileBar :=
  let need := if b.arrived = 0 then count else b.need
  if need ≤ b.arrived + 1 then { phase := b.phase + 1, arrived := 0, need := need }
  else { b with arrived := b.arrived + 1, need := need }

/-- The key of a gang's barrier for one member: 0 for `.die` and 1 for `.dom`, barrier and member; a member keeps its
arrivals when it moves to another domain (R219, R377). -/
def barKey (z b m : Nat) : Nat := 4096 * z + 256 * b + m

/-- The arrivals a member has made: those recorded and those on their way (R378). -/
def State.barArrivals (s : State) (g : Gang) (z b m : Nat) : Nat :=
  FMap.get g.bars (barKey z b m) 0 + (s.flight.arrivals.filter fun e => e == (g.no, z, b, m)).length

/-- The first part of a barrier's key for a scope. -/
def scopeKey (scope : Nat) : Nat := if scope = 2 then 0 else 1

/-- The domain whose members take part in a `.dom` barrier of a tile, none for a `.die` one (R377). -/
def barExtent (c scope : Nat) : Option Nat := if scope = 2 then none else some (domainOf c)

/-- The phases of a gang's barrier that have completed: every participant that still runs has arrived in them (R377). -/
def Gang.phase (g : Gang) (d : Option Nat) (b : Nat) : Nat :=
  let part := g.members.filter fun e => e.2.st == .running && (d.isNone || d == some (domainOf e.2.tile))
  match part.map fun e => FMap.get g.bars (barKey (if d.isNone then 0 else 1) b e.1) 0 with
  | [] => 0
  | p :: r => r.foldl min p

/-- The gang of the thread whose turn it is, with its logical id. -/
def State.myGang (s : State) : Option (Gang × Nat) := s.act.gang.bind fun p => (s.gang p.1).map fun g => (g, p.2)

/-- The key of a private barrier of a slot outside a gang (R377). -/
def privKey (scope b : Nat) : Nat := 16 * scope + b

/-- `barv`: an arrival, which is a release (R378, R379). -/
def execBarv (d : Reg) (a : Reg) (c : BitVec 2) (s : State) : Out :=
  issue (.barv d a c) (fun s =>
    let v := (s.x a).toNat
    let s := s.drain
    if c = 0 then
      let b := FMap.get (s.core s.cur).cx.bars (bits v 0 2) {}
      let s := s.modCore s.cur fun k => { k with cx := { k.cx with
        bars := FMap.put k.cx.bars (bits v 0 2) (b.arrive (bits v 8 2 + 1)) } }
      s.retX d (BitVec.ofNat 32 b.phase)
    else
      let b := bits v 0 4
      match s.myGang with
      | some (g, m) =>
        let z := scopeKey c.toNat
        let s1 := { s with flight := { s.flight with arrivals := s.flight.arrivals ++ [(g.no, z, b, m)] } }
        s1.retX d (BitVec.ofNat 32 (s.barArrivals g z b m))
      | none =>
        let n := FMap.get s.th.privBar (privKey c.toNat b) 0
        (s.modTh fun t => { t with privBar := FMap.put t.privBar (privKey c.toNat b) (n + 1) }).retX d (BitVec.ofNat 32 n)) s

/-- The phases that a barrier of the thread whose turn it is has completed (R377). -/
def State.barPhase (s : State) (scope v : Nat) : Nat :=
  if scope = 0 then (FMap.get (s.core s.cur).cx.bars (bits v 0 2) {}).phase
  else
    match s.myGang with
    | some (g, _) => g.phase (barExtent s.cur scope) (bits v 0 4)
    | none => FMap.get s.th.privBar (privKey scope (bits v 0 4)) 0

/-- The wait record of `barw`: scope, barrier and phase (R195). -/
def barWait (scope v phase : Nat) : Nat := scope + 4 * (if scope = 0 then bits v 0 2 else bits v 0 4) + 64 * phase

/-- `barw` (R378). -/
def execBarw (a : Reg) (t : Reg) (c : BitVec 2) (s : State) : Out :=
  issue (.barw a t c) (fun s =>
    if reached (BitVec.ofNat 32 (s.barPhase c.toNat (s.x a).toNat)) (s.x t + 1) then .retire s
    else .wait .barrier (s.waitsOn (barWait c.toNat (s.x a).toNat (s.x t).toNat))) s

/-! Triggers and dependences (R47, R463, R495). -/

/-- `trig`: a member's notice leaves once its stores have performed (R463). -/
def execTrig (s : State) : Out :=
  issue .trig (fun s =>
    match s.act.gang with
    | none => .retire s
    | some p =>
      let s := s.drain
      .retire { s with flight := { s.flight with notices := s.flight.notices ++ [p] } }) s

/-- `waitdep` (R495). -/
def execWaitdep (d : Reg) (s : State) : Out :=
  issue (.waitdep d) (fun s =>
    match s.myGang with
    | none => s.retX d 1
    | some (g, _) =>
      if !s.allTriggered g then .wait .dependence s
      else s.retX d (if s.prodAborted g then 0 else 1)) s

end Sys2Proof.Machine
end

