-- ==== Sys2Proof/Machine/Messages.lean ====
section
/-! DEFINITION. Sending messages (R25 to R31, R453, R454), `exit` with its successors (R40, R41, R393, R394), and the binding
table's instructions (R33, R38, R50 to R52, R383, R464). -/

namespace Sys2Proof.Machine

/-! Destinations and credits. -/

/-- KIND of a destination word (R26). -/
def destKind (d : Word) : Nat := bits d.toNat 28 4
/-- INDEX of a destination word (R26). -/
def destIndex (d : Word) : Nat := bits d.toNat 0 16
/-- CLASS of a control word (R26). -/
def ctlClass (c : Word) : Nat := bits c.toNat 16 2

/-- The credit class of a kind (R28). -/
def creditClass (kind : Nat) : Nat := if kind ≤ 2 then 0 else kind - 2

/-- The credits of a class in a core's pool, or in the pool of a seized tile's Gust code (R28, R29). -/
def creditMax (gust : Bool) (cls : Nat) : Nat :=
  if gust then (if cls = 0 then 16 else if cls = 3 then 4 else 0)
  else if cls = 0 then 16 else if cls = 1 then 8 else 4

/-- The credits in use of a core's pool, which its tenant's context holds, or of its Gust code's pool (R28, R29, R193). -/
def Core.creditsUsed (k : Core) (gust : Bool) : FMap Nat := if gust then k.gustUsed else k.ctx.creditsUsed

/-- Replace the credits in use of a pool. -/
def Core.setCredits (k : Core) (gust : Bool) (m : FMap Nat) : Core :=
  if gust then { k with gustUsed := m } else k.modCtx fun x => { x with creditsUsed := m }

/-- A credit of a class is free on a core (R28). -/
def Core.creditFree (k : Core) (gust : Bool) (cls : Nat) : Bool :=
  decide (FMap.get (k.creditsUsed gust) cls 0 < creditMax gust cls)

/-- Take a credit of a class (R28). -/
def Core.takeCredit (k : Core) (gust : Bool) (cls : Nat) : Core :=
  k.setCredits gust (FMap.set (k.creditsUsed gust) cls (FMap.get (k.creditsUsed gust) cls 0 + 1) 0)

/-- A credit of a class is free again (R28, R29). -/
def Core.freeCredit (k : Core) (gust : Bool) (cls : Nat) : Core :=
  k.setCredits gust (FMap.set (k.creditsUsed gust) cls (FMap.get (k.creditsUsed gust) cls 0 - 1) 0)

/-- A core type, or Gust code, may name a kind: not at all, in supervisor mode, or always (R27, R218). -/
def kindUse (t : CoreType) (gust : Bool) (kind : Nat) : Avail :=
  if gust then (if kind = 2 ∨ kind = 5 then .yes else .no)
  else
    match t, kind with
    | .reasoning, 0 => .yes
    | .reasoning, 1 => .sup
    | .reasoning, 3 => .yes
    | .reasoning, 4 => .yes
    | .reasoning, 5 => .yes
    | .reflex, 2 => .yes
    | .reflex, 5 => .yes
    | .agent, 1 => .yes
    | .agent, 4 => .yes
    | .agent, 5 => .yes
    | .frontEnd, 1 => .yes
    | .frontEnd, 2 => .yes
    | .frontEnd, 3 => .yes
    | .frontEnd, 4 => .yes
    | .frontEnd, 5 => .yes
    | _, _ => .no

/-- HTILE of the profile whose Gust code a thread runs (R212, R218). -/
def State.gustHolder (s : State) : Nat :=
  match s.act.kind with
  | .gust p _ => bits (s.gustAt p).reg.toNat 110 5
  | _ => 0

/-- The first index that a kind does not have (R27). -/
def State.indexEnd (s : State) (kind : Nat) : Nat :=
  match kind with
  | 0 => s.gangSize s.act.gang
  | 1 => 256
  | 2 => 32
  | 3 => 64
  | 4 => 1
  | _ => 256

/-- A row descriptor breaks R249, given as its eight words. -/
def rowBad (l : List Word) : Bool :=
  let v := leNat ((l.flatMap fun w => leBytes 4 w.toNat).drop 6 |>.take 4)
  let len := bits v 0 19
  len == 0 || decide (262144 < len) || bits v 20 2 == 0 || bits v 22 10 != 0

/-- The class of a row descriptor (R249). -/
def rowClass (l : List Word) : Nat :=
  bits (leNat ((l.flatMap fun w => leBytes 4 w.toNat).drop 6 |>.take 4)) 20 2

/-- The words m0 to m7 of a thread (R25). -/
def Thread.build (t : Thread) : List Word := (List.range 8).map t.getM

/-- The cause of the first check of R453 that a message fails, 0 when it passes. -/
def State.sendRefuses (s : State) (d c : Word) (payload : List Word) : Nat :=
  let kind := destKind d
  let use := kindUse (coreType s.cur) s.isGust kind
  if bits d.toNat 16 12 ≠ 0 ∨ bits c.toNat 20 12 ≠ 0 then causeMsg
  else if use = .no then causeMsg
  else if use = .sup ∧ !s.sup then causePriv
  else if kind = 4 ∧ !s.feature 5 then causeMsg
  else if s.indexEnd kind ≤ destIndex d then causeMsg
  else if ctlClass c = 0 ∧ coreType s.cur ≠ .reflex ∧ !s.isGust then causeMsg
  else if s.isGust ∧ kind = 2 ∧ destIndex d ≠ s.gustHolder then causeMsg
  else if kind = 4 ∧ rowBad payload then causeQueue
  else 0

/-- Where the traffic to the front end's services and to the sampling queue goes, beside the cores' numbers. -/
def serviceDest : Nat := 1000
/-- The sampling queue as a destination. -/
def queueDest : Nat := 1001

/-- The destination of a message: a core, the services or the sampling queue (R26, R27). -/
def State.route (s : State) (gang : Option (Nat × Nat)) (d : Word) : Nat :=
  match destKind d with
  | 0 => (s.memberTile gang (destIndex d)).getD 0
  | 1 => destIndex d
  | 2 => 256 + destIndex d
  | 3 => 288 + destIndex d
  | 4 => queueDest
  | _ => serviceDest

/-- A message as the thread whose turn it is sends it: its source fields, address-space id and mode (R35). -/
def State.compose (s : State) (d c : Word) (payload : List Word) (succ : Bool) : Message :=
  { dest := d, ctl := c, payload := payload, srcIdx := BitVec.ofNat 8 (unitIndex s.cur),
    srcKind := BitVec.ofNat 3 (if s.isGust then 5 else unitCode s.cur), srcSlot := s.slot, succ := succ,
    sup := s.sup, asid := s.act.asid, arrived := s.clock.now,
    member := if destKind d = 0 then s.act.gang.map fun p => (p.1, destIndex d) else none }

/-- Launch a message with a credit of a core's pool, counted as sent (R28, R330, R454). -/
def State.launch (s : State) (c dst : Nat) (m : Message) : State :=
  let cls := creditClass (destKind m.dest)
  let gust := decide (m.srcKind = 5)
  let s := s.modCore c (·.takeCredit gust cls)
  let s := s.pm c 0x0A 1
  { s with flight := { s.flight with messages := s.flight.messages ++ [(dst, { m with credit := some (c, cls) })] } }

/-- The trap of a refused send (R298, R453): `at_` is the value for cause MSG. -/
def State.sendTrap (s : State) (w : Word) (code : Nat) (at_ : Word) : Res :=
  .trap code (if code = causePriv then wordValue w else if code = causeQueue then 4 else wordValue at_) s

/-- A send of a message (R454): `blocks` for `sendw`. -/
def State.sendMessage (s : State) (w : Word) (rd : Reg) (d c : Word) (blocks : Bool) : Res :=
  let payload := s.th.build
  let code := s.sendRefuses d c payload
  if code ≠ 0 then s.sendTrap w code d
  else if (s.core s.cur).creditFree s.isGust (creditClass (destKind d)) then
    let s := s.drain
    (s.launch s.cur (s.route s.act.gang d) (s.compose d c payload false)).retX rd 1
  else if blocks then .wait .credit s
  else s.retX rd 0

/-- `send` (R454). -/
def execSend (d : Reg) (a : Reg) (t : Reg) (s : State) : Out :=
  issue (.send d a t) (fun s => s.sendMessage (encode (.send d a t)) d (s.x a) (s.x t) false) s

/-- `sendw` (R454). -/
def execSendw (d : Reg) (a : Reg) (t : Reg) (s : State) : Out :=
  issue (.sendw d a t) (fun s => s.sendMessage (encode (.sendw d a t)) d (s.x a) (s.x t) true) s

/-- `mw` (R431). -/
def execMw (d : BitVec 3) (a : Reg) (s : State) : Out :=
  issue (.mw d a) (fun s => .retire (s.modTh fun t => t.setM d.toNat (s.x a))) s

/-- `qpost` (R250, R438). -/
def execQpost (d : Reg) (s : State) : Out :=
  issue (.qpost d) (fun s =>
    let payload := s.th.build
    if rowBad payload then .trap causeQueue 4 s
    else s.sendMessage (encode (.qpost d)) d 0x40000000 (BitVec.ofNat 32 (rowClass payload * 2 ^ 16)) false) s

/-- `yield`: the issue order of R54 already passes every other READY slot first (R498). -/
def execYield (s : State) : Out := issue .yield (fun s => .retire s) s

/-! The order of messages (R30). -/

/-- The core that a message on its way will reach, by its member's tile now (R27, R187). -/
def State.landing (s : State) (e : Nat × Message) : Option Nat :=
  match e.2.member with
  | some p => s.memberTile (some p) p.2
  | none => some e.1

/-- An earlier message of the same slot, destination and credit class is still on its way (R30). -/
def State.overtakes (s : State) (i : Nat) (e : Nat × Message) : Bool :=
  (s.flight.messages.take i).any fun f =>
    f.2.srcKind == e.2.srcKind && f.2.srcIdx == e.2.srcIdx && f.2.srcSlot == e.2.srcSlot &&
      s.landing f == s.landing e && creditClass (destKind f.2.dest) == creditClass (destKind e.2.dest)

/-! `exit` (R40, R41, R393). -/

/-- The words of some bytes. -/
def wordsOf : List Byte → List Word
  | a :: b :: c :: d :: r => BitVec.ofNat 32 (leNat [a, b, c, d]) :: wordsOf r
  | _ => []

/-- A successor descriptor: the cause of the check that it fails, 0 when it passes (R393). -/
def State.successorRefuses (s : State) (d : List Byte) : Nat :=
  let kind := field d 63 1
  if 1 < kind ∨ field d 60 3 ≠ 0 then causeMsg
  else if kind = 1 then (if s.isGust then causeMsg else 0)
  else if field d 40 20 ≠ 0 then causeMsg
  else
    let dest := BitVec.ofNat 32 (field d 0 4)
    if s.isGust ∧ destKind dest = 5 then causeMsg
    else s.sendRefuses dest (BitVec.ofNat 32 (field d 4 4)) (wordsOf ((d.drop 8).take 32))

/-- A successor as it waits to leave (R41). -/
def State.successor (s : State) (d : List Byte) : Successor :=
  if field d 63 1 = 1 then .gang (d.take 60) s.act.asid
  else
    let dest := BitVec.ofNat 32 (field d 0 4)
    .message (s.route s.act.gang dest) (s.compose dest (BitVec.ofNat 32 (field d 4 4)) (wordsOf ((d.drop 8).take 32)) true)

/-- The first descriptor that cannot be read or fails a check, in the order of the loop of R393: its place in the array, and the
cause of the check, or none for poison. -/
def State.badSuccessor (s : State) (loc : Nat) (ds : List (List Byte)) : Option (Nat × Option Nat) :=
  (List.range ds.length).findSome? fun i =>
    if (s.poisoned (loc + 64 * i) (loc + 64 * i + 64)).isSome then some (i, none)
    else if s.successorRefuses (ds.getD i []) ≠ 0 then some (i, some (s.successorRefuses (ds.getD i [])))
    else none

/-- A slot that has just been freed swaps in its loaded bank (R66): a message whose binding is gone or clearing is unbound,
and one that no longer fits the slot goes back to the pending queue (R24, R51). -/
def State.swapBank (s : State) (c n : Nat) : State :=
  if (s.thread c n).run = .idle ∧ ((s.core c).loadedGone c n || s.loadedDue c n) then s.startLoaded c n else s

/-- The activation of the thread whose turn it is ends by its `exit` with some successors (R393, R394). -/
def State.leaveWith (s : State) (l : List Successor) : State :=
  let c := s.cur
  let n := s.slot
  let s := if l.isEmpty && s.act.gang.isNone then s else s.drain
  let s := (s.modCore c fun k => { k with succQ := k.succQ ++ l }).pm c 0x02 1
  ((s.mirrorKeep c n).endThread c n .exit).swapBank c n

/-- `exit` (R393). -/
def execExit (a : Reg) (t : Reg) (s : State) : Out :=
  issue (.exit a t) (fun s =>
    let base := (s.x a).toNat
    let n := (s.x t).toNat
    if 4 < n then .trap causeMsg (wordValue (s.x a)) s
    else if n = 0 then .done (s.leaveWith [])
    else if base % 64 ≠ 0 ∨ !s.ownAllowed s.issuer base (64 * n) then .trap causeMsg (wordValue (s.x a)) s
    else
      let loc := sramLoc s.cur base
      let ds := (List.range n).map fun i => s.read (loc + 64 * i) 64
      match s.badSuccessor loc ds with
      | some (i, none) =>
        let g := (s.poisoned (loc + 64 * i) (loc + 64 * i + 64)).getD 0
        .trap causePoison (granuleAddr (BitVec.ofNat 64 (0x10 * 2 ^ 56 + base)) loc g) s
      | some (i, some code) => s.sendTrap (encode (.exit a t)) code (BitVec.ofNat 32 (base + 64 * i))
      | none =>
        if 16 < (s.core s.cur).succQ.length + n then .wait .successors s
        else .done (s.leaveWith (ds.map s.successor))) s

/-! `bind` and `unbind`. -/

/-- The keep region of an entry breaks R38; `i` is the entry's own index. -/
def State.keepRefuses (s : State) (c i : Nat) (e : BitVec 128) : Bool :=
  let k := s.core c
  let lo := 64 * bindKeepOff e
  let hi := lo + 64 * bindKeepSize e
  if bindKeepSize e = 0 then false
  else
    decide (s.scratchEnd c < hi) ||
      (decide (k.spbase.toNat < hi) && decide (lo < k.spbase.toNat + k.spsize.toNat)) ||
      k.cx.binds.any fun f =>
        f.1 != i && bindValid f.2 && bindKeepSize f.2 != 0 && bindKeepOff f.2 != bindKeepOff e &&
          decide (64 * bindKeepOff f.2 < hi) && decide (lo < 64 * (bindKeepOff f.2 + bindKeepSize f.2))

/-- The index at which an entry goes: that of its tag, unless its clear is pending, else the lowest one that is not valid
(R383, R384). -/
def TileCtx.bindIndex (x : TileCtx) (tag : Nat) : Option Nat :=
  match x.findTag tag with
  | some (i, _) => if (FMap.find x.clearing i).isSome then none else some i
  | none => (List.range 64).find? fun i => !bindValid (FMap.get x.binds i 0)

/-- An entry that `bind` refuses whatever the table holds (R383). -/
def entryRefuses (t : CoreType) (e : BitVec 128) : Bool :=
  !bindValid e || bindEntry e % 4 != 0 ||
    (match t with
      | .reflex => decide (bindEntry e < 16) || decide (0x2F0000 ≤ bindEntry e) || bindBudget e == 0
      | _ => bits (bindEntry e) 56 8 != 0)

/-- Held messages of a tag enter the pending queue in arrival order, as far as it has room (R50). -/
def State.releaseHeld (s : State) (c tag : Nat) : State :=
  let mine := (s.core c).hold.filter fun m => m.tag == tag
  mine.foldl (fun s m =>
    match s.pend c { m with held := true } with
    | some t => t.modCore c fun k => { k with hold := k.hold.erase m }
    | none => s) s

/-- `bind` (R383). -/
def execBind (d : Reg) (p : Reg) (t : Reg) (s : State) : Out :=
  issue (.bind d p t) (fun s =>
    let e : BitVec 128 := s.p t ++ s.p p
    let c := s.cur
    match (if entryRefuses (coreType c) e then none else (s.core c).cx.bindIndex (bindTag e)) with
    | none => s.retX d 0
    | some i =>
      if s.keepRefuses c i e then s.retX d 0
      else
        let s := s.modCore c fun k => { k with cx := { k.cx with binds := FMap.put k.cx.binds i e } }
        (s.releaseHeld c (bindTag e)).retX d (BitVec.ofNat 32 (1 + i))) s

/-- The slots of a core that have a boundary still to come before a clear takes effect (R52): those with an activation, and
on a reasoning tile those with a starting message of the tag. -/
def Core.busySlots (k : Core) (c tag : Nat) : List Nat :=
  (List.range 4).filter fun n =>
    let t := k.thread n
    t.act.isSome || (coreType c == .reasoning && (match t.shadow with | some m => m.tag == tag | none => false))

/-- Pending messages of a tag move to the unbound hold, the oldest first (R52). -/
def State.unpend (s : State) (c tag : Nat) : State :=
  let k := s.core c
  let mine := (k.pending ++ k.overflow).filter fun m => m.tag == tag
  let s := s.setCore c { k with
    pending := k.pending.filter fun m => m.tag != tag, overflow := k.overflow.filter fun m => m.tag != tag }
  ((mine.foldl (fun s m => s.holdMessage c m) s).syncRing c).refillRing c

/-- `unbind` (R464). -/
def execUnbind (d : Reg) (a : Reg) (s : State) : Out :=
  issue (.unbind d a) (fun s =>
    let c := s.cur
    let tag := bits (s.x a).toNat 0 16
    match (if bits (s.x a).toNat 16 16 ≠ 0 then none else (s.core c).cx.bound tag) with
    | none => s.retX d 0
    | some (i, _) =>
      let busy := (s.core c).busySlots c tag
      let s := s.modCore c fun k => { k with cx :=
        if busy.isEmpty then { k.cx with binds := FMap.del k.cx.binds i }
        else { k.cx with clearing := FMap.put k.cx.clearing i busy } }
      (s.unpend c tag).retX d (BitVec.ofNat 32 (1 + i))) s

end Sys2Proof.Machine
end

