-- ==== Sys2Proof/Machine/Arrivals.lean ====
section
/-! DEFINITION. What travels between units arrives: messages (R28 to R30, R34, R50, R53, R263), credits (R28), successors
(R41), gang requests and starts (R46, R286, R288), trigger notices and barrier arrivals (R378, R463), and remote counter
adds (R192). -/

namespace Sys2Proof.Machine

/-! Messages. -/

/-- A message from another address-space id than that of the destination's context (R53); a tile in no partition has no
context, and every message to it counts as foreign (DESIGN CHOICE, log entry 70). -/
def State.foreignTo (s : State) (c : Nat) (m : Message) : Bool :=
  m.tick.isNone &&
    (match s.partOf c with
      | some q => q.asid != m.asid
      | none => true)

/-- A slice agent takes a message: it waits for a slot with the agent's events, or no row serves it; none while the queue is
full (R262, R263). -/
def State.acceptAgent (s : State) (c : Nat) (m : Message) : Option State :=
  let n := unitIndex c
  match s.servingRow n (eventBit 3) m.asid with
  | none => some ((s.unboundRecord c m).returnCredit m)
  | some r => (s.queueWork n (.message r m)).map (·.returnCredit m)

/-- A tile takes a message, behind the held messages of its tag that now enter its queue (R34, R50, R53). -/
def State.acceptTile (s : State) (c : Nat) (m : Message) : Option State :=
  if s.foreignTo c m then
    some ((s.record 0x04 2 m.asid.toNat (unitIndex c) 0 (unitCode c) [(24, 40, m.nat)]).returnCredit m)
  else
    let s := if ((s.core c).ctx.bound m.tag).isSome then s.releaseHeld c m.tag else s
    if ((s.core c).ctx.bound m.tag).isSome && (s.core c).hold.any (fun h => h.tag == m.tag) then none
    else s.accept c m

/-- A core takes a message from its inbox port, none while it can accept nothing. -/
def State.acceptAt (s : State) (c : Nat) (m : Message) : Option State :=
  if coreType c = .agent then s.acceptAgent c m else s.acceptTile c m

/-- A message reaches an inbox port: it is taken, or waits there (R28, R34). -/
def State.deliver (s : State) (c : Nat) (m : Message) : State :=
  let m := { m with arrived := s.clock.now }
  let wait (s : State) : State := s.modCore c fun k => { k with inbox := k.inbox ++ [m] }
  if (s.core c).inbox.isEmpty then (s.acceptAt c m).getD (wait s) else wait s

/-- A KIND 0x5 message as a request for a service (R27, R290). -/
def Message.request (m : Message) : ServiceReq :=
  { number := destIndex m.dest, asid := m.asid, supervisor := m.sup, driver := false, words := m.payload }

/-- A message on its way arrives. -/
def State.arrive (s : State) (i : Nat) : State :=
  match s.flight.messages[i]? with
  | none => s
  | some e =>
    let taken := { s with flight := { s.flight with messages := s.flight.messages.eraseIdx i } }
    if e.1 = queueDest || s.overtakes i e then s
    else if e.1 = serviceDest then
      ({ taken with services := taken.services ++ [e.2.request] } : State).returnCredit e.2
    else
      match s.landing e with
      | none => s
      | some c => if isAway c then s else taken.deliver c e.2

/-- MESSAGE_ARRIVAL (R34). -/
def execMessageArrival (i : Nat) (s : State) : Out := event true (fun s => s.arrive i) s

/-- The first message at an inbox port is taken when it can be (R28). -/
def State.takeInbox (s : State) (c : Nat) : State :=
  match (s.core c).inbox with
  | [] => s
  | m :: rest => ((s.modCore c fun k => { k with inbox := rest }).acceptAt c m).getD s

/-- The first message at an inbox port can be taken. -/
def State.inboxDue (s : State) (c : Nat) : Bool :=
  match (s.core c).inbox with
  | [] => false
  | m :: rest => ((s.modCore c fun k => { k with inbox := rest }).acceptAt c m).isSome

/-- INBOX_PORT_ACCEPT (R28). -/
def execInboxPortAccept (core : Nat) (s : State) : Out := event (isCore core) (fun s => s.takeInbox core) s

/-! Dispatch (R34, R66). -/

/-- The messages a tile has pending, oldest first. -/
def Core.queueOf (k : Core) : List Message := k.pending ++ k.overflow

/-- Take the pending message of a place out of the queue. -/
def State.unqueue (s : State) (c i : Nat) : State :=
  let k := s.core c
  let n := k.pending.length
  let s := s.setCore c (if i < n then { k with pending := k.pending.eraseIdx i } else { k with overflow := k.overflow.eraseIdx (i - n) })
  (s.syncRing c).refillRing c

/-- The oldest pending message whose binding can start: its place, slot and entry (R34). -/
def State.startable (s : State) (c : Nat) : Option (Nat × Nat × Nat × BitVec 128 × Message) :=
  let k := s.core c
  if k.saved.isSome then none
  else
    (List.range k.queueOf.length).findSome? fun i =>
      (k.queueOf[i]?).bind fun m =>
        if s.parkedGang m then none
        else (k.cx.bound m.tag).bind fun e => (s.startSlot c e.1 e.2).map fun n => (i, n, e.1, e.2, m)

/-- The pending message that the activation unit of a reflex tile loads into a shadow bank next (R66). -/
def State.loadable (s : State) (c : Nat) : Option (Nat × Nat × Nat × BitVec 128 × Message) :=
  let k := s.core c
  if k.saved.isSome then none
  else
    (List.range k.queueOf.length).findSome? fun i =>
      (k.queueOf[i]?).bind fun m => (k.cx.bound m.tag).bind fun e => (s.shadowSlot c e.1 e.2).map fun n => (i, n, e.1, e.2, m)

/-- An idle slot with a message it must give up, or on a reflex tile with a loaded bank that it can swap in now (R24, R66). -/
def State.swappable (s : State) (c : Nat) : Option Nat :=
  if (s.core c).saved.isSome then none
  else
    (List.range 4).find? fun n =>
      (s.thread c n).run == .idle && ((s.core c).loadedGone c n || (coreType c == .reflex && s.loadedDue c n))

/-- The tags of held messages whose binding is there and which the pending queue has room for (R50). -/
def State.heldTag (s : State) (c : Nat) : Option Nat :=
  ((s.core c).hold.find? fun m => ((s.core c).ctx.bound m.tag).isSome && (s.pend c m).isSome).map (·.tag)

/-- What an agent or a tile starts next (R34, R66, R262). -/
def State.dispatch (s : State) (c : Nat) : State :=
  if coreType c = .agent then s.dispatchWork (unitIndex c)
  else
    match s.heldTag c with
    | some tag => s.releaseHeld c tag
    | none =>
      match s.swappable c with
      | some n => s.swapBank c n
      | none =>
        match s.startable c with
        | some (i, n, idx, e, m) => (s.unqueue c i).place c n idx e m
        | none =>
          match s.loadable c with
          | some (i, n, idx, e, m) => (s.unqueue c i).place c n idx e m
          | none => s

/-- A core has something to dispatch. -/
def State.dispatchDue (s : State) (c : Nat) : Bool :=
  if coreType c = .agent then !(s.core c).work.isEmpty && (s.agentSlot (unitIndex c)).isSome
  else (s.heldTag c).isSome || (s.swappable c).isSome || (s.startable c).isSome || (s.loadable c).isSome

/-- MESSAGE_DISPATCH (R34). -/
def execMessageDispatch (core : Nat) (s : State) : Out := event (isCore core) (fun s => s.dispatch core) s

/-- A held message has been unbound for 10 ms (R50). -/
def State.heldTooLong (s : State) (c : Nat) (m : Message) : Bool :=
  ((s.core c).ctx.bound m.tag).isNone && decide (m.heldAt + 10000000 ≤ s.clock.now)

/-- UNBOUND_HOLD_EXPIRY (R50): held messages whose 10 ms are over go to the error queue. -/
def execUnboundHoldExpiry (core : Nat) (s : State) : Out :=
  event (isCore core) (fun s =>
    let old := (s.core core).hold.filter (s.heldTooLong core)
    old.foldl (fun s m => s.unboundRecord core m)
      (s.modCore core fun k => { k with hold := k.hold.filter fun m => !s.heldTooLong core m })) s

/-! Credits and successors. -/

/-- CREDIT_RETURN (R28, R29): one credit is free again; Gust's pool ends with the Gust code. -/
def execCreditReturn (i : Nat) (s : State) : Out :=
  event true (fun s =>
    match s.flight.credits[i]? with
    | none => s
    | some (c, cls, gust) =>
      if isAway c then s
      else
        ({ s with flight := { s.flight with credits := s.flight.credits.eraseIdx i } } : State).modCore c (·.freeCredit gust cls)) s

/-- The next successor of a core can leave: a gang request, or a message with a credit (R41). -/
def Core.successorDue (k : Core) : Bool :=
  match k.succQ with
  | [] => false
  | .gang _ _ :: _ => true
  | .message _ m :: _ => k.creditFree (m.srcKind == 5) (creditClass (destKind m.dest))

/-- SUCCESSOR_SEND (R41). -/
def execSuccessorSend (core : Nat) (s : State) : Out :=
  event (isCore core) (fun s =>
    let k := s.core core
    if !k.successorDue then s
    else
      match k.succQ with
      | [] => s
      | .gang d asid :: rest =>
        let s := s.setCore core { k with succQ := rest }
        { s with gangPort := s.gangPort ++ [{ desc := d, asid := asid }] }
      | .message dst m :: rest => (s.setCore core { k with succQ := rest }).launch core dst m) s

/-! Gangs. -/

/-- GANG_REQUEST_ACCEPT (R46). -/
def execGangRequestAccept (s : State) : Out := event true (fun s => s.acceptGang) s

/-- PLACEMENT_PASS (R286). -/
def execPlacementPass (s : State) : Out := event true (fun s => s.placementPass) s

/-- GANG_MEMBER_START (R288): the start time of a member's message has come. -/
def execGangMemberStart (core slot : Nat) (s : State) : Out :=
  event (decide (core < 256) && decide (slot < 4)) (fun s =>
    match (s.thread core slot).shadow with
    | some m => if m.gang.isSome && s.loadedDue core slot then s.startLoaded core slot else s
    | none => s) s

/-- TRIGGER_NOTICE (R463): the placement unit learns that a member has triggered. The notice counts for a dependent that is
accepted later too: R47 does not say whether a trigger given before any dependent has named the gang is lost (DESIGN CHOICE,
log entry 69). -/
def execTriggerNotice (i : Nat) (s : State) : Out :=
  event true (fun s =>
    match s.flight.notices[i]? with
    | none => s
    | some p =>
      let s := { s with flight := { s.flight with notices := s.flight.notices.eraseIdx i } }
      s.modGang p.1 fun g =>
        match FMap.find g.members p.2 with
        | some m => { g with members := FMap.put g.members p.2 { m with trig := true } }
        | none => g) s

/-- BARRIER_ARRIVAL (R378): the placement unit counts an arrival. -/
def execBarrierArrival (i : Nat) (s : State) : Out :=
  event true (fun s =>
    match s.flight.arrivals[i]? with
    | none => s
    | some (no, z, b, m) =>
      let s := { s with flight := { s.flight with arrivals := s.flight.arrivals.eraseIdx i } }
      s.modGang no fun g => { g with bars := FMap.put g.bars (barKey z b m) (FMap.get g.bars (barKey z b m) 0 + 1) }) s

/-- REMOTE_CADD_ARRIVAL (R192, R310): a remote add performs at its tile, or at the saved image; one for a spilled partition
waits. -/
def execRemoteCaddArrival (i : Nat) (s : State) : Out :=
  event true (fun s =>
    match s.flight.cadds[i]? with
    | none => s
    | some (c, n, v) =>
      if isAway c then s
      else ({ s with flight := { s.flight with cadds := s.flight.cadds.eraseIdx i } } : State).addTileCounter c n v) s

end Sys2Proof.Machine
end

