-- ==== Sys2Proof/Machine/Atomic.lean ====
section
/-! DEFINITION. Atomics, reservations, fences and futures (R126 to R130, R270 to R273, R372, R373, R398, R399, R401, R418,
R451, R496). -/

namespace Sys2Proof.Machine

/-- An atomic, a failed compare and swap or a failed `sc` among them, takes the reservations that others hold on its
granule (R129). -/
def State.loseOthers (s : State) (i : Issuer) (lo hi : Nat) : State :=
  { s with resvs := s.resvs.filter fun e => e.1 == slotKey i.core i.slot || !e.2.hit lo hi }

/-- An aligned access of an atomic, `lr`, `sc` or future operation: the checks, the drain that R120 and `.rl` ask for, the
translation, and what is done at the location (R373). -/
def State.atomic (s : State) (w : Word) (a : Dword) (size scope : Nat) (rl : Bool) (use : Nat → State → Res) : Res :=
  let poisonOr (loc : Nat) (s : State) : Res :=
    match s.poisoned loc (loc + size) with
    | some g => .trap causePoison (granuleAddr a loc g) s
    | none => use loc s
  match s.reach s.issuer a size 0 size (.atomic scope) with
  | .fault code off => s.accessTrap w code (a + BitVec.ofNat 64 off)
  | .wait => .wait .memory s
  | .to p =>
    if (rl || pathByte a == 0) && !s.drained then .wait .memory s
    else
      match p with
      | .mem loc => poisonOr loc s
      | .virt path va =>
        match s.translate s.cur s.act.asid path va .atomic with
        | .miss w => .walk w s
        | .hit loc => poisonOr loc (s.touchTlb s.cur s.act.asid path va .atomic)
      | _ => .wait .memory s

/-- An atomic that reads: in Gust-eligible code it counts among the reads of R71 (R441). -/
def State.atomicRead (s : State) (w : Word) (a : Dword) (size scope : Nat) (rl : Bool) (use : Nat → State → Res) : Res :=
  let rule := s.safeRule false true (pathByte a)
  if rule ≠ 0 then .trap causeSafe (BitVec.ofNat 64 rule) s
  else s.atomic w a size scope rl fun loc s => use loc (s.countRead (pathByte a))

/-- The operations of R372. -/
inductive AmoOp where
  | add | and | or | xor | min | max | minu | maxu | swap | fadd
  deriving DecidableEq, Repr

/-- The value an operation stores, and its flags (R372, R373). `n` is the width in bits. -/
def AmoOp.new (op : AmoOp) (n : Nat) (mode : RoundMode) (old v : Nat) : Nat × FlagSet :=
  match op with
  | .add => ((old + v) % 2 ^ n, 0)
  | .and => (Nat.land old v, 0)
  | .or => (Nat.lor old v, 0)
  | .xor => (Nat.xor old v, 0)
  | .min => (if signed v n < signed old n then v else old, 0)
  | .max => (if signed old n < signed v n then v else old, 0)
  | .minu => (if v < old then v else old, 0)
  | .maxu => (if old < v then v else old, 0)
  | .swap => (v, 0)
  | .fadd =>
    let r := sumNums mode [decodeFloat .fp32 old, decodeFloat .fp32 v]
    let q := roundFloat .fp32 mode false r.1
    (q.1, r.2 ||| q.2)

/-- The operation runs as a CAS loop at a port (R127). -/
def AmoOp.loops : AmoOp → Bool
  | .add => false
  | .swap => false
  | _ => true

/-- One attempt of a CAS loop is counted at its port: 0 for port A, 1 for port B (R127). -/
def State.countTry (s : State) (path : Nat) : State :=
  let p := if path = 0x08 then 0 else 1
  if path = 0x08 ∨ path = 0x09 then
    { s with link := { s.link with portTries := FMap.set s.link.portTries p (FMap.get s.link.portTries p 0 + 1) 0 } }
  else s

/-- Store the result of an atomic at its location. -/
def State.atomicStore (s : State) (path loc size v : Nat) : State :=
  (s.storeNat loc size v).ownPortStore s.issuer path ((List.range size).map (loc + ·))

/-- Write the old value of an atomic: an x register for 4 bytes, a pair for 8. -/
def State.setOld (s : State) (d : Reg) (size old : Nat) : State :=
  if size = 4 then s.setX d (BitVec.ofNat 32 old) else if d = 0 then s else s.setP d (BitVec.ofNat 64 old)

/-- The completer behind a port refuses the AtomicOp of an address (R127). -/
def portRefuses (a : Dword) : Bool :=
  (pathByte a == 0x08 || pathByte a == 0x09) && Config.completerRefuses (pathByte a) (bits a.toNat 0 56)

/-- An `amo` (R373). -/
def State.amo (s : State) (w : Word) (op : AmoOp) (size : Nat) (d p t : Reg) (scope : BitVec 2) (rl : Bool) : Res :=
  let v := if size = 4 then (s.x t).toNat else (s.p t).toNat
  let a := s.p p
  s.atomicRead w a size scope.toNat rl fun loc s =>
    let s := if op.loops then s.countTry (pathByte a) else s
    if portRefuses a then s.accessTrap w causeAtom a
    else
    let old := s.readNat loc size
    let r := op.new (8 * size) s.effMode old v
    .retire (((s.atomicStore (pathByte a) loc size r.1).flag r.2).setOld d size old)

/-- A `cas` (R372, R373). -/
def State.cas (s : State) (w : Word) (size : Nat) (d p t : Reg) (scope : BitVec 2) (rl : Bool) : Res :=
  let v := if size = 4 then (s.x t).toNat else (s.p t).toNat
  let c := if size = 4 then (s.x d).toNat else (s.p d).toNat
  let a := s.p p
  s.atomicRead w a size scope.toNat rl fun loc s =>
    if portRefuses a then s.accessTrap w causeAtom a
    else
    let old := s.readNat loc size
    let s := if old = c then s.atomicStore (pathByte a) loc size v else s.loseOthers s.issuer loc (loc + size)
    .retire (s.setOld d size old)

/-- An `lr` (R129, R418). -/
def State.loadReserve (s : State) (w : Word) (size : Nat) (d p : Reg) (scope : BitVec 2) (rl : Bool) : Res :=
  let a := s.p p
  s.atomicRead w a size scope.toNat rl fun loc s =>
    let old := s.readNat loc size
    let r : Reservation :=
      { path := pathByte a, granule := resvGranule (pathByte a) loc size, width := size, value := old }
    .retire ({ s with resvs := FMap.put s.resvs (slotKey s.cur s.slot) r }.setOld d size old)

/-- The slot's reservation covers an access of a width at a location, as far as the slot itself sees (R127, R129). -/
def State.holdsResv (s : State) (path loc size : Nat) : Option Reservation :=
  (FMap.find s.resvs (slotKey s.cur s.slot)).filter fun r =>
    r.width == size && r.granule == resvGranule path loc size &&
      (path == 0x08 || path == 0x09) == (r.path == 0x08 || r.path == 0x09) && (path == 0x00) == (r.path == 0x00)

/-- An `sc` (R129, R451): at a port it is a CAS whose old value is what `lr` read, and nothing is sent where the reservation
is already lost (R127). -/
def State.storeCond (s : State) (w : Word) (size : Nat) (d p t : Reg) (scope : BitVec 2) (rl : Bool) : Res :=
  let v := if size = 4 then (s.x t).toNat else (s.p t).toNat
  let a := s.p p
  s.atomic w a size scope.toNat rl fun loc s =>
    match s.holdsResv (pathByte a) loc size with
    | some r =>
      if portRefuses a then s.accessTrap w causeAtom a
      else
        let held := if pathByte a = 0x08 ∨ pathByte a = 0x09 then s.readNat loc size == r.value else true
        let s := if held then s.storeNat loc size v else s.loseOthers s.issuer loc (loc + size)
        .retire ((s.dropResv s.cur s.slot).setOld d size (if held then 1 else 0))
    | none => .retire (((s.loseOthers s.issuer loc (loc + size)).dropResv s.cur s.slot).setOld d size 0)

/-- `amoadd.w` (R372). -/
def execAmoaddW (d : Reg) (p : Reg) (t : Reg) (c : BitVec 2) (a : BitVec 1) (l : BitVec 1) (s : State) : Out :=
  issue (.amoaddW d p t c a l) (fun s => s.amo (encode (.amoaddW d p t c a l)) .add 4 d p t c (l == 1)) s

/-- `amoadd.d` (R372). -/
def execAmoaddD (d : Reg) (p : Reg) (t : Reg) (c : BitVec 2) (a : BitVec 1) (l : BitVec 1) (s : State) : Out :=
  issue (.amoaddD d p t c a l) (fun s => s.amo (encode (.amoaddD d p t c a l)) .add 8 d p t c (l == 1)) s

/-- `amoand.w` (R372). -/
def execAmoandW (d : Reg) (p : Reg) (t : Reg) (c : BitVec 2) (a : BitVec 1) (l : BitVec 1) (s : State) : Out :=
  issue (.amoandW d p t c a l) (fun s => s.amo (encode (.amoandW d p t c a l)) .and 4 d p t c (l == 1)) s

/-- `amoand.d` (R372). -/
def execAmoandD (d : Reg) (p : Reg) (t : Reg) (c : BitVec 2) (a : BitVec 1) (l : BitVec 1) (s : State) : Out :=
  issue (.amoandD d p t c a l) (fun s => s.amo (encode (.amoandD d p t c a l)) .and 8 d p t c (l == 1)) s

/-- `amoor.w` (R372). -/
def execAmoorW (d : Reg) (p : Reg) (t : Reg) (c : BitVec 2) (a : BitVec 1) (l : BitVec 1) (s : State) : Out :=
  issue (.amoorW d p t c a l) (fun s => s.amo (encode (.amoorW d p t c a l)) .or 4 d p t c (l == 1)) s

/-- `amoor.d` (R372). -/
def execAmoorD (d : Reg) (p : Reg) (t : Reg) (c : BitVec 2) (a : BitVec 1) (l : BitVec 1) (s : State) : Out :=
  issue (.amoorD d p t c a l) (fun s => s.amo (encode (.amoorD d p t c a l)) .or 8 d p t c (l == 1)) s

/-- `amoxor.w` (R372). -/
def execAmoxorW (d : Reg) (p : Reg) (t : Reg) (c : BitVec 2) (a : BitVec 1) (l : BitVec 1) (s : State) : Out :=
  issue (.amoxorW d p t c a l) (fun s => s.amo (encode (.amoxorW d p t c a l)) .xor 4 d p t c (l == 1)) s

/-- `amoxor.d` (R372). -/
def execAmoxorD (d : Reg) (p : Reg) (t : Reg) (c : BitVec 2) (a : BitVec 1) (l : BitVec 1) (s : State) : Out :=
  issue (.amoxorD d p t c a l) (fun s => s.amo (encode (.amoxorD d p t c a l)) .xor 8 d p t c (l == 1)) s

/-- `amomin.w` (R372). -/
def execAmominW (d : Reg) (p : Reg) (t : Reg) (c : BitVec 2) (a : BitVec 1) (l : BitVec 1) (s : State) : Out :=
  issue (.amominW d p t c a l) (fun s => s.amo (encode (.amominW d p t c a l)) .min 4 d p t c (l == 1)) s

/-- `amomin.d` (R372). -/
def execAmominD (d : Reg) (p : Reg) (t : Reg) (c : BitVec 2) (a : BitVec 1) (l : BitVec 1) (s : State) : Out :=
  issue (.amominD d p t c a l) (fun s => s.amo (encode (.amominD d p t c a l)) .min 8 d p t c (l == 1)) s

/-- `amomax.w` (R372). -/
def execAmomaxW (d : Reg) (p : Reg) (t : Reg) (c : BitVec 2) (a : BitVec 1) (l : BitVec 1) (s : State) : Out :=
  issue (.amomaxW d p t c a l) (fun s => s.amo (encode (.amomaxW d p t c a l)) .max 4 d p t c (l == 1)) s

/-- `amomax.d` (R372). -/
def execAmomaxD (d : Reg) (p : Reg) (t : Reg) (c : BitVec 2) (a : BitVec 1) (l : BitVec 1) (s : State) : Out :=
  issue (.amomaxD d p t c a l) (fun s => s.amo (encode (.amomaxD d p t c a l)) .max 8 d p t c (l == 1)) s

/-- `amominu.w` (R372). -/
def execAmominuW (d : Reg) (p : Reg) (t : Reg) (c : BitVec 2) (a : BitVec 1) (l : BitVec 1) (s : State) : Out :=
  issue (.amominuW d p t c a l) (fun s => s.amo (encode (.amominuW d p t c a l)) .minu 4 d p t c (l == 1)) s

/-- `amominu.d` (R372). -/
def execAmominuD (d : Reg) (p : Reg) (t : Reg) (c : BitVec 2) (a : BitVec 1) (l : BitVec 1) (s : State) : Out :=
  issue (.amominuD d p t c a l) (fun s => s.amo (encode (.amominuD d p t c a l)) .minu 8 d p t c (l == 1)) s

/-- `amomaxu.w` (R372). -/
def execAmomaxuW (d : Reg) (p : Reg) (t : Reg) (c : BitVec 2) (a : BitVec 1) (l : BitVec 1) (s : State) : Out :=
  issue (.amomaxuW d p t c a l) (fun s => s.amo (encode (.amomaxuW d p t c a l)) .maxu 4 d p t c (l == 1)) s

/-- `amomaxu.d` (R372). -/
def execAmomaxuD (d : Reg) (p : Reg) (t : Reg) (c : BitVec 2) (a : BitVec 1) (l : BitVec 1) (s : State) : Out :=
  issue (.amomaxuD d p t c a l) (fun s => s.amo (encode (.amomaxuD d p t c a l)) .maxu 8 d p t c (l == 1)) s

/-- `amoswap.w` (R372). -/
def execAmoswapW (d : Reg) (p : Reg) (t : Reg) (c : BitVec 2) (a : BitVec 1) (l : BitVec 1) (s : State) : Out :=
  issue (.amoswapW d p t c a l) (fun s => s.amo (encode (.amoswapW d p t c a l)) .swap 4 d p t c (l == 1)) s

/-- `amoswap.d` (R372). -/
def execAmoswapD (d : Reg) (p : Reg) (t : Reg) (c : BitVec 2) (a : BitVec 1) (l : BitVec 1) (s : State) : Out :=
  issue (.amoswapD d p t c a l) (fun s => s.amo (encode (.amoswapD d p t c a l)) .swap 8 d p t c (l == 1)) s

/-- `amofadd` (R372, R373). -/
def execAmofadd (d : Reg) (p : Reg) (t : Reg) (c : BitVec 2) (a : BitVec 1) (l : BitVec 1) (s : State) : Out :=
  issue (.amofadd d p t c a l) (fun s => s.amo (encode (.amofadd d p t c a l)) .fadd 4 d p t c (l == 1)) s

/-- `cas.w` (R372). -/
def execCasW (d : Reg) (p : Reg) (t : Reg) (c : BitVec 2) (a : BitVec 1) (l : BitVec 1) (s : State) : Out :=
  issue (.casW d p t c a l) (fun s => s.cas (encode (.casW d p t c a l)) 4 d p t c (l == 1)) s

/-- `lr.w` (R418). -/
def execLrW (d : Reg) (p : Reg) (c : BitVec 2) (a : BitVec 1) (l : BitVec 1) (s : State) : Out :=
  issue (.lrW d p c a l) (fun s => s.loadReserve (encode (.lrW d p c a l)) 4 d p c (l == 1)) s

/-- `sc.w` (R451). -/
def execScW (d : Reg) (p : Reg) (t : Reg) (c : BitVec 2) (a : BitVec 1) (l : BitVec 1) (s : State) : Out :=
  issue (.scW d p t c a l) (fun s => s.storeCond (encode (.scW d p t c a l)) 4 d p t c (l == 1)) s

/-- `cas.d` (R372). -/
def execCasD (d : Reg) (p : Reg) (t : Reg) (c : BitVec 2) (a : BitVec 1) (l : BitVec 1) (s : State) : Out :=
  issue (.casD d p t c a l) (fun s => s.cas (encode (.casD d p t c a l)) 8 d p t c (l == 1)) s

/-- `lr.d` (R418). -/
def execLrD (d : Reg) (p : Reg) (c : BitVec 2) (a : BitVec 1) (l : BitVec 1) (s : State) : Out :=
  issue (.lrD d p c a l) (fun s => s.loadReserve (encode (.lrD d p c a l)) 8 d p c (l == 1)) s

/-- `sc.d` (R451). -/
def execScD (d : Reg) (p : Reg) (t : Reg) (c : BitVec 2) (a : BitVec 1) (l : BitVec 1) (s : State) : Out :=
  issue (.scD d p t c a l) (fun s => s.storeCond (encode (.scD d p t c a l)) 8 d p t c (l == 1)) s

/-! Fences and `wrs`. -/

/-- `fence`: with `w` in its first set it waits until the thread's stores have performed (R398). -/
def execFence (p : BitVec 2) (q : BitVec 2) (c : BitVec 2) (s : State) : Out :=
  issue (.fence p q c) (fun s => if p.getLsbD 1 && !s.drained then .wait .memory s else .retire s) s

/-- `fencei`: after the drain, the words fetched before, and their break bits, are forgotten (R325, R399). -/
def execFencei (s : State) : Out :=
  issue .fencei (fun s =>
    if !s.drained then .wait .memory s
    else .retire ((s.modTh fun t => { t with fetched := [] }).modCore s.cur fun k => { k with icache := [] })) s

/-- The time at which a `wrs` gives up, 0 for never (R130, R496). -/
def State.wrsLimit (s : State) (r : Reservation) (ns : Word) : Nat :=
  if ns ≠ 0 then s.clock.now + ns.toNat
  else if r.path = 0x08 ∨ r.path = 0x09 then s.clock.now + 1000
  else 0

/-- `wrs` (R496): a parked thread looks again at each of its turns. -/
def execWrs (d : Reg) (a : Reg) (s : State) : Out :=
  issue (.wrs d a) (fun s =>
    match FMap.find s.resvs (slotKey s.cur s.slot), s.th.timer with
    | none, none => s.retX d 0
    | none, some _ => s.retX d 1
    | some r, none => .wait .reservation (s.modTh fun t => { t with timer := some (s.wrsLimit r (s.x a)) })
    | some _, some e => if e ≠ 0 ∧ e ≤ s.clock.now then s.retX d 2 else .wait .reservation s) s

/-! Futures (R270 to R273, R401). -/

/-- The slice at which a location of the DRAM is homed (R98). -/
def sliceOfLoc (loc : Nat) : Nat := 4 * (loc / 2 ^ 33) + (bits loc 8 2 ^^^ bits loc 16 2)

/-- An operation on a future's cell: the checks of R401, and what is done at the location. -/
def State.onCell (s : State) (w : Word) (c : Dword) (use : Nat → State → Res) : Res :=
  if pathByte c ≠ 0 then s.accessTrap w causeAtom c
  else if c.toNat % 16 ≠ 0 then s.accessTrap w causeAlign c
  else
    match s.reach s.issuer c 16 0 16 (.atomic 2) with
    | .fault code off => s.accessTrap w code (c + BitVec.ofNat 64 off)
    | .wait => .wait .memory s
    | .to _ =>
      if !s.drained then .wait .memory s
      else
        match s.translate s.cur s.act.asid 0 (bits c.toNat 0 56) .atomic with
        | .miss w => .walk w s
        | .hit loc =>
          let s := s.touchTlb s.cur s.act.asid 0 (bits c.toNat 0 56) .atomic
          match s.poisoned loc (loc + 16) with
          | some g => .trap causePoison (granuleAddr c loc g) s
          | none => use loc (s.loseOthers s.issuer loc (loc + 16))

/-- A cell is FULL (R270). -/
def State.cellFull (s : State) (loc : Nat) : Bool := bit (s.readNat (loc + 8) 1) 0

/-- Every thread that waits on a cell takes the value and is to be woken (R273). -/
def State.wakeCell (s : State) (loc : Nat) (v : Dword) : State :=
  let mine := (s.sliceAt (sliceOfLoc loc)).waiters.filter fun w => w.cell == loc
  let s := s.dropWaiters fun w => w.cell == loc
  mine.foldl (fun s w => s.modThread w.core w.slot fun t => { t with wake := some v }) s

/-- `fput` on a cell (R271). -/
def State.futurePut (s : State) (loc : Nat) (v : Dword) : State × Bool :=
  if s.cellFull loc then
    let r := s.readNat (loc + 12) 4
    ((s.storeNat (loc + 8) 4 1).storeNat (loc + 12) 4 (min (r + 1) (2 ^ 32 - 1)), false)
  else (((s.storeNat loc 8 v.toNat).storeNat (loc + 8) 4 1).wakeCell loc v, true)

/-- `fput` (R271, R401). -/
def execFput (d : Reg) (p : Reg) (t : Reg) (s : State) : Out :=
  issue (.fput d p t) (fun s => s.onCell (encode (.fput d p t)) (s.p p) fun loc s =>
    let r := s.futurePut loc (s.p t)
    r.1.retX d (boolWord r.2)) s

/-- The overflow list of a slice (R272): its location. -/
def Slice.overflowBase (k : Slice) (n : Nat) : Nat := n / 4 * 2 ^ 33 + bits k.wtovf.toNat 0 16 * 2 ^ 16

/-- The bucket of a cell's physical address (R272). -/
def bucketOf (pa : Nat) : Nat := bits pa 4 8 ^^^ bits pa 12 8

/-- A free entry of a bucket of a slice's overflow list (R272). -/
def Slice.freeEntry (k : Slice) (n b : Nat) : Option Nat :=
  (List.range 16).findSome? fun j =>
    let a := k.overflowBase n + 256 * b + 16 * j
    if k.waiters.any fun w => w.image == some a then none else some a

/-- An entry of an overflow list (R272). -/
def waiterImage (c slot : Nat) (asid : BitVec 16) (pa : Nat) : Nat :=
  bits pa 4 44 * 16 + unitIndex c * 2 ^ 48 + (slot + unitCode c * 4 + 128) * 2 ^ 56 + asid.toNat * 2 ^ 64

/-- The physical address that an address of the thread whose turn it is translates to through the TLB. -/
def State.cellPa (s : State) (va : Nat) : Nat :=
  match (s.core s.cur).tlbHit 0 s.act.asid va .atomic with
  | some t => leafPa t.level t.leaf.toNat va
  | none => 0

/-- `fget` parks on an empty cell: in the wait table, in the overflow list, or refused to be sent again 1 µs later (R272). -/
def State.parkFuture (s : State) (loc pa : Nat) : State :=
  let n := sliceOfLoc loc
  let k := s.sliceAt n
  let asid := s.act.asid
  let w : Waiter := { core := s.cur, slot := s.slot, asid := asid, cell := loc }
  let parked (s : State) : State := s.modTh fun t => { t with parked := true, timer := none }
  if (k.waiters.filter fun w => w.image.isNone).length < 256 then
    parked (s.modSlice n fun k => { k with waiters := k.waiters ++ [w] })
  else
    match (if bit k.wtovf.toNat 63 then k.freeEntry n (bucketOf pa) else none) with
    | some a =>
      parked ((s.storeNat a 16 (waiterImage s.cur s.slot asid pa)).modSlice n fun k =>
        { k with waiters := k.waiters ++ [{ w with image := some a }] })
    | none =>
      let refused := min (bits k.wtovf.toNat 16 32 + 1) (2 ^ 32 - 1)
      (s.modSlice n fun k => { k with wtovf := BitVec.ofNat 64 (setBits k.wtovf.toNat 16 32 refused) }).modTh
        fun t => { t with parked := true, timer := some (s.clock.now + 1000) }

/-- `fget`: a woken thread returns the value of the `fput` that woke it (R271 to R273, R401). -/
def execFget (d : Reg) (p : Reg) (s : State) : Out :=
  issue (.fget d p) (fun s =>
    let rule := s.safeRule false true (pathByte (s.p p))
    match s.th.wake with
    | some v => (s.countRead 0).retP d v
    | none =>
      if rule ≠ 0 then .trap causeSafe (BitVec.ofNat 64 rule) s
      else
      s.onCell (encode (.fget d p)) (s.p p) fun loc s =>
        if s.cellFull loc then (s.countRead 0).retP d (BitVec.ofNat 64 (s.readNat loc 8))
        else .wait .future (s.parkFuture loc (s.cellPa (bits (s.p p).toNat 0 56)))) s

/-- `freset` (R271, R401). -/
def execFreset (d : Reg) (p : Reg) (s : State) : Out :=
  issue (.freset d p) (fun s => s.onCell (encode (.freset d p)) (s.p p) fun loc s =>
    (s.storeNat (loc + 8) 4 0).retX d (boolWord (s.cellFull loc))) s

end Sys2Proof.Machine
end

