-- ==== Sys2Proof/Machine/Mailbox.lean ====
section
/-! DEFINITION. The mailbox instructions (R205 to R208, R222, R223, R423). -/

namespace Sys2Proof.Machine

/-- The slot operand of a mailbox instruction. -/
def mbOperand (v : Word) : Nat := bits v.toNat 0 12

/-- A trap of cause MAILBOX. -/
def mailboxTrap (code : Nat) (s : State) : Res := .trap causeMailbox (BitVec.ofNat 64 code) s

/-- The thread may not write a slot: it is no activation of the writer binding, or the device is a spare before takeover and
the slot is mirrored (R205, R222). -/
def State.mbDenied (s : State) (k : MbSlot) : Bool :=
  !k.isWriter s.issuer || (s.spare.role == 2 && !s.spare.taken && bit k.reg.toNat 126)

/-- The buffer that `mbopen` takes when none is open (R204). -/
def MbSlot.choose (k : MbSlot) : Nat :=
  let can := (List.range 4).filter fun b => (k.buf b).st != .latest && (k.buf b).pins == 0
  match can.find? fun b => (k.buf b).bad with
  | some b => b
  | none => can.foldl (fun a b => if (k.buf b).ver < (k.buf a).ver then b else a) (can.getD 0 0)

/-- `mbopen` (R204, R206). -/
def execMbopen (d : Reg) (a : Reg) (s : State) : Out :=
  issue (.mbopen d a) (fun s =>
    let n := mbOperand (s.x a)
    let k := s.mbSlot n
    if bits (s.x a).toNat 12 20 ≠ 0 then mailboxTrap 1 s
    else if !k.valid then mailboxTrap 2 s
    else if s.mbDenied k then mailboxTrap 3 s
    else if k.openBuf.isSome then s.retX d 2
    else (s.setMb n (k.setBuf k.choose { st := .opened })).retX d 1) s

/-- The WRITER field of a header (R203). -/
def State.writerField (s : State) : Nat :=
  unitIndex s.cur + (if coreType s.cur = .reflex then 2 ^ 8 else 0) + s.slot * 2 ^ 10

/-- A publish of a mirrored slot by a primary waits to be sent, replacing an unsent one of the slot (R223). -/
def State.mirrorOut (s : State) (n b : Nat) (ver ptime writer ufl len : Nat) : State :=
  let k := s.mbSlot n
  if s.spare.role = 1 ∧ bit k.reg.toNat 126 then
    let p : MirrorPublish := {
      slot := n, ver := BitVec.ofNat 64 ver, ptime := BitVec.ofNat 64 ptime, writer := BitVec.ofNat 32 writer
      ufl := BitVec.ofNat 8 ufl, len := BitVec.ofNat 32 len, data := s.read (mbLoc (k.base b) + 32) (k.size - 32) }
    { s with spare := { s.spare with outbox := s.spare.outbox.filter (·.slot != n) ++ [p] } }
  else s

/-- The header that a publish stores (R203, R206). -/
def mbStored (ver ptime writer ufl slot len : Nat) (mirror : Bool) : Nat :=
  ver % 2 ^ 64 + ptime % 2 ^ 64 * 2 ^ 64 + writer * 2 ^ 128 + (ufl * 2 ^ 8 + (if mirror then 8 else 0)) * 2 ^ 160
    + slot * 2 ^ 176 + len % 2 ^ 32 * 2 ^ 192

/-- A buffer becomes LATEST with a version; the one before it is FREE (R206). -/
def MbSlot.publish (k : MbSlot) (b ver : Nat) : MbSlot :=
  let k := match k.latest with | some o => k.setBuf o { k.buf o with st := .free } | none => k
  { k.setBuf b { k.buf b with st := .latest, ver := ver } with ver := ver }

/-- `mbpub`, a release (R134, R206, log entry 9). -/
def execMbpub (d : Reg) (a : Reg) (t : Reg) (s : State) : Out :=
  issue (.mbpub d a t) (fun s =>
    let n := mbOperand (s.x a)
    let k := s.mbSlot n
    let len := bits (s.x t).toNat 0 20
    let ufl := bits (s.x t).toNat 20 8
    if bits (s.x a).toNat 12 20 ≠ 0 ∨ bits (s.x t).toNat 28 4 ≠ 0 then mailboxTrap 1 s
    else if !k.valid then mailboxTrap 2 s
    else if s.mbDenied k then mailboxTrap 3 s
    else
      match k.openBuf with
      | none => mailboxTrap 4 s
      | some b =>
        if k.size < len + 32 then mailboxTrap 4 s
        else
          let s := s.drain
          let k := s.mbSlot n
          let ver := k.ver + 1
          let s := s.storeUnder (mbLoc (k.base b)) (leBytes 32 (mbStored ver s.clock.now s.writerField ufl n len false))
          let s := (s.setMb n (k.publish b ver)).mirrorOut n b ver s.clock.now s.writerField ufl len
          s.retX d (BitVec.ofNat 32 ver)) s

/-- Some of `n` vector registers from `d` upward is bound. -/
def State.anyBound (s : State) (d n : Nat) : Bool := (List.range n).any fun j => (s.boundOf (d + j)).isSome
/-- Some of `n` vector registers from `d` upward is the source of an `mldb.s` fill. -/
def State.anyFilling (s : State) (d n : Nat) : Bool := (List.range n).any fun j => s.fillingReg (d + j)

/-- Read a slot's version for the thread whose turn it is. -/
def State.mbRead (s : State) (n len : Nat) : List Byte × State :=
  s.mbFetch n len 6

/-- `mbld` (R207, R210). -/
def execMbld (d : Reg) (a : Reg) (t : Reg) (s : State) : Out :=
  issue (.mbld d a t) (fun s =>
    let n := mbOperand (s.x a)
    let cnt := bits (s.x t).toNat 0 4
    if bits (s.x a).toNat 12 20 ≠ 0 ∨ bits (s.x t).toNat 4 28 ≠ 0 then mailboxTrap 1 s
    else if !(s.mbSlot n).valid then mailboxTrap 2 s
    else if cnt = 0 ∨ 8 < cnt ∨ 32 < d.toNat + cnt ∨ s.anyBound d.toNat cnt then mailboxTrap 5 s
    else if s.anyFilling d.toNat cnt then .trap causeMover 3 s
    else
      let r := s.mbRead n (32 * cnt)
      .retire (r.2.modTh fun h => (List.range cnt).foldl (fun h j =>
        h.setV (d.toNat + j) (BitVec.ofNat 256 (leNat ((r.1.drop (32 * j)).take 32)))) h)) s

/-- `mbver` (R207). -/
def execMbver (d : Reg) (a : Reg) (s : State) : Out :=
  issue (.mbver d a) (fun s =>
    let n := mbOperand (s.x a)
    if bits (s.x a).toNat 12 20 ≠ 0 then mailboxTrap 1 s
    else if !(s.mbSlot n).valid then mailboxTrap 2 s
    else if s.anyBound d.toNat 1 then mailboxTrap 5 s
    else if s.anyFilling d.toNat 1 then .trap causeMover 3 s
    else
      let r := s.mbRead n 32
      .retire (r.2.modTh (·.setV d.toNat (BitVec.ofNat 256 (leNat r.1))))) s

/-- `mbsnap` (R208, R210). -/
def execMbsnap (d : Reg) (a : Reg) (t : Reg) (s : State) : Out :=
  issue (.mbsnap d a t) (fun s =>
    let n := mbOperand (s.x a)
    let k := s.mbSlot n
    let dst := (s.x t).toNat
    if bits (s.x a).toNat 18 14 ≠ 0 then mailboxTrap 1 s
    else if !k.valid then mailboxTrap 2 s
    else if dst % 32 ≠ 0 then mailboxTrap 6 s
    else if !s.ownAllowed s.issuer dst k.size then
      s.accessTrap (encode (.mbsnap d a t)) causeRange (BitVec.ofNat 64 (0x10 * 2 ^ 56 + dst))
    else if 4 ≤ (s.snaps.filter fun c => c.core == s.cur).length then s.retX d 0
    else
      let c : Snap := {
        slot := n, buf := 0, older := false, stale := false, dst := dst, core := s.cur, ctr := bits (s.x a).toNat 12 6
        thread := s.slot, gust := s.isGust, tile := s.cur, asid := s.act.asid, serial := s.th.csr.ser }
      let r := s.drain.snapPin c false
      ({ r.2 with snaps := r.2.snaps ++ [r.1] } : State).retX d 1) s

/-- MBSNAP_COPY_COMPLETE (R208). -/
def execMbsnapCopyComplete (i : Nat) (s : State) : Out := event true (·.snapDone i) s

end Sys2Proof.Machine
end

