-- ==== Sys2Proof/Machine/Time.lean ====
section
/-! DEFINITION. The time and stream instructions (R231, R232, R458, R459, R461, R462). -/

namespace Sys2Proof.Machine

/-- `tnow` (R461). -/
def execTnow (d : Reg) (s : State) : Out :=
  issue (.tnow d) (fun s => .retire (s.setP d (BitVec.ofNat 64 s.clock.now))) s

/-- `tuntil` (R261, R462). -/
def execTuntil (d : Reg) (p : Reg) (t : Reg) (s : State) : Out :=
  issue (.tuntil d p t) (fun s =>
    let v := (s.x t).toNat
    let n := bits v 0 6
    let armed := (s.core s.cur).cx.timers
    if bits v 6 26 ≠ 0 then .trap causeIllegal (wordValue (encode (.tuntil d p t))) s
    else if !s.hasCounter n then .trap causeMover 1 s
    else if 8 ≤ armed.length then s.retX d 0
    else
      (s.modCore s.cur fun k => { k with cx := { k.cx with
        timers := k.cx.timers ++ [{ at_ := (s.p p).toNat, ctr := n, slot := s.slot }] } }).retX d 1) s

/-! Records (R227, R232, R458, R459). -/

/-- The records a stream still holds, in ring order. -/
def Stream.heldRecs (k : Stream) : List HeldRecord := k.recs.filter (!·.consumed)

/-- WSTART (R226). -/
def Stream.wstart (k : Stream) : Nat := bits k.reg.toNat 320 64

/-- COVER (R226, R228). -/
def Stream.cover (k : Stream) : Nat := bits k.reg.toNat 256 64

/-- The oldest held record: the lowest SEQ in serial order. -/
def Stream.oldest (k : Stream) : Option HeldRecord :=
  k.heldRecs.foldl (fun a r =>
    match a with
    | none => some r
    | some b => if (r.seq - b.seq).msb then some r else a) none

/-- Not yet available. -/
def notYet : Word := 0xFFFFFFFF
/-- Older than WSTART. -/
def tooOld : Word := 0xFFFFFFFE

/-- The answer of `swget` by sequence number (R458). -/
def Stream.getSeq (k : Stream) (q : BitVec 32) : Word :=
  match k.heldRecs.find? (·.seq == q) with
  | some r => BitVec.ofNat 32 r.off
  | none =>
    match k.oldest with
    | some r => if (q - r.seq).msb then tooOld else notYet
    | none => notYet

/-- The answer of `swget` by time (R458): of equal times, the higher SEQ. -/
def Stream.getTime (k : Stream) (t : Nat) : Word :=
  if k.cover < t then notYet
  else
    let best := (k.heldRecs.filter fun r => decide (r.time.toNat ≤ t)).foldl (fun a r =>
      match a with
      | none => some r
      | some b =>
        if b.time.toNat < r.time.toNat ∨ (b.time = r.time ∧ 0 < (r.seq - b.seq).toInt) then some r else a) none
    match best with
    | some r => BitVec.ofNat 32 r.off
    | none => tooOld

/-- The trap of a stream that is not configured (R231). -/
def State.noStream (s : State) (w : Word) (n : Nat) : Res :=
  s.accessTrap w causeRange (BitVec.ofNat 64 (0x28 * 2 ^ 56 + n * 2 ^ 32))

/-- `swget` (R232, R458). -/
def execSwget (d : Reg) (p : Reg) (t : Reg) (s : State) : Out :=
  issue (.swget d p t) (fun s =>
    let v := (s.x t).toNat
    let n := bits v 0 7
    let k := s.streamAt n
    if bits v 8 24 ≠ 0 then .trap causeIllegal (wordValue (encode (.swget d p t))) s
    else if !k.valid then s.noStream (encode (.swget d p t)) n
    else s.retX d (if bit v 7 then k.getTime (s.p p).toNat else k.getSeq ((s.p p).extractLsb' 0 32))) s

/-- The largest TIME of the unbroken run of arrived records from a sequence number on (R228); `n` bounds the run. -/
def coverFrom (seen : List (BitVec 32 × BitVec 64)) (q : BitVec 32) (best : Nat) : Nat → Nat
  | 0 => best
  | n + 1 =>
    match seen.filter fun e => e.1 == q with
    | [] => best
    | l => coverFrom seen (q + 1) (l.foldl (fun a e => max a e.2.toNat) best) n

/-- COVER is brought up to date; with no record held it stays (R228). -/
def Stream.recover (k : Stream) : Stream :=
  match k.oldest with
  | none => k
  | some r =>
    let seen := k.seen.filter fun e => !(e.1 - r.seq).msb
    { k with seen := seen, reg := BitVec.ofNat 512 (setBits k.reg.toNat 256 64 (coverFrom seen r.seq 0 (seen.length + 1))) }

/-- WSTART moves up and the records below it are consumed (R232): the stream, and how many. -/
def Stream.advance (k : Stream) (t : Nat) : Stream × Nat :=
  let w := max k.wstart t
  let gone := k.heldRecs.filter fun r => decide (r.time.toNat < w)
  let recs := k.recs.map fun r => { r with consumed := r.consumed || decide (r.time.toNat < w) }
  (Stream.recover { k with reg := BitVec.ofNat 512 (setBits k.reg.toNat 320 64 w), recs := recs.dropWhile (·.consumed) }, gone.length)

/-- `swadv` (R232, R459); the loads of the thread that come before it have read their bytes. -/
def execSwadv (d : Reg) (p : Reg) (t : Reg) (s : State) : Out :=
  issue (.swadv d p t) (fun s =>
    let v := (s.x t).toNat
    let n := bits v 0 7
    let k := s.streamAt n
    if bits v 7 25 ≠ 0 then .trap causeIllegal (wordValue (encode (.swadv d p t))) s
    else if !k.valid then s.noStream (encode (.swadv d p t)) n
    else
      let r := k.advance (s.p p).toNat
      ({ s with streams := FMap.put s.streams n r.1 } : State).retX d (BitVec.ofNat 32 r.2)) s

end Sys2Proof.Machine
end

