-- ==== Sys2Proof/Machine/Clockwork.lean ====
section
/-! DEFINITION. What device time brings: tick firings (R200), decode ticks (R229), records of timed streams (R227, R230),
timers (R232), frames of the egress queues (R234), the budgets of reflex activations (R201), corrections of the clock
(R225), and the hot spare (R222 to R224). -/

namespace Sys2Proof.Machine

/-! Firings. -/

/-- Put a message of the same tick entry or stream in the place of the one not yet dispatched (R200). -/
def replaceIn (m : Message) (l : List Message) : List Message :=
  l.map fun q => if q.tick = m.tick then { m with spilled := q.spilled, held := q.held, arrived := q.arrived, heldAt := q.heldAt } else q

/-- Some message of a list is of the tick entry or stream. -/
def waitsIn (m : Message) (l : List Message) : Bool := l.any fun q => q.tick == m.tick

/-- A firing goes to its tile: it replaces the one of its entry that waits there, or is delivered (R29, R200). -/
def State.fire (s : State) (c : Nat) (m : Message) (replaces : Bool) : State :=
  let k := s.core c
  let r := replaceIn m
  if replaces && (waitsIn m k.inbox || waitsIn m k.pending || waitsIn m k.overflow || waitsIn m k.hold) then
    (s.setCore c { k with inbox := r k.inbox, pending := r k.pending, overflow := r k.overflow, hold := r k.hold }).syncRing c
  else s.deliver c m

/-- A tick entry is held back on a spare that has not taken over (R222). -/
def State.tickHeld (s : State) (reg : Nat) : Bool := bit reg 1 && s.spare.role == 2 && !s.spare.taken

/-- PERIOD of a tick entry. -/
def Tick.period (k : Tick) : Nat := bits k.reg.toNat 160 32

/-- The next firing of an entry is to be delivered: 2 µs before its time, or, while the one before it waits undispatched, at
its time (R200). -/
def State.tickDue (s : State) (e : Nat) : Bool :=
  let k := FMap.get s.ticks e {}
  bit k.reg.toNat 0 &&
    decide (k.next ≤ s.clock.now + (if k.undispatched || s.tickHeld k.reg.toNat then 0 else 2000))

/-- Deliver the next firing of an entry; those due before it that were skipped count as replaced (R200, R225). -/
def State.tickFire (s : State) (e : Nat) : State :=
  let k := FMap.get s.ticks e {}
  let r := k.reg.toNat
  let skip := if k.next ≤ s.clock.now ∧ k.period ≠ 0 then (s.clock.now - k.next) / k.period else 0
  let after := k.next + (skip + 1) * k.period
  if s.tickHeld r then { s with ticks := FMap.put s.ticks e { k with next := after } }
  else
    let lost := skip + (if k.undispatched then 1 else 0)
    let t := k.next + skip * k.period
    let reg := setBits r 64 32 (min (bits r 64 32 + lost) (2 ^ 32 - 1))
    let c := 256 + bits r 96 5
    let words : List Nat := [bits r 128 32, k.replaced + lost, t, t / 2 ^ 32, k.seq + skip, 0, 0, 0]
    let m : Message := {
      ctl := BitVec.ofNat 32 (bits r 112 16), payload := words.map (BitVec.ofNat 32), srcIdx := BitVec.ofNat 8 e, srcKind := 4
      asid := (s.core c).asid, tick := some e, arrived := s.clock.now, notBefore := t }
    let s := { s with ticks := FMap.put s.ticks e { k with
      reg := BitVec.ofNat 256 reg, seq := k.seq + skip + 1, next := after, undispatched := true, replaced := k.replaced + lost } }
    s.fire c m k.undispatched

/-- TICK_DELIVERY (R200). -/
def execTickDelivery (e : Nat) (s : State) : Out :=
  event (decide (e < 64)) (fun s => if s.tickDue e then s.tickFire e else s) s

/-- TICK_START (R200): the due time of a firing held by an idle slot has come. -/
def execTickStart (core slot : Nat) (s : State) : Out :=
  event (coreType core == .reflex && decide (slot < 4)) (fun s =>
    match (s.thread core slot).shadow with
    | some m => if m.tick.isSome && s.loadedDue core slot then s.swapBank core slot else s
    | none => s) s

/-! Budgets (R201). -/

/-- The activation of a reflex slot is one that BUDGET bounds, and its cycles count now (R201, R318). -/
def State.budgeted (s : State) (c n : Nat) : Bool :=
  let t := s.thread c n
  coreType c == .reflex && (t.act.any fun a => a.kind == .task) &&
    (match t.run with
      | .ready => true
      | .blocked _ => true
      | _ => false)

/-- BUDGET_EXPIRY: the trap of an activation at its budget, at an instruction boundary (R201). -/
def State.budgetDue (s : State) (c n : Nat) : Bool :=
  let t := s.thread c n
  let a := t.act.getD {}
  s.budgeted c n && !a.budgetTaken && decide (16 * a.budget ≤ a.cycles) && (t.pfx.isNone || t.run != .ready)

/-- BUDGET_EXPIRY (R201). -/
def execBudgetExpiry (core slot : Nat) (s : State) : Out :=
  event (coreType core == .reflex && decide (slot < 4)) (fun s =>
    if s.budgetDue core slot then s.budgetTrap core slot else s) s

/-- An activation is 256 cycles past its budget, its BUDGET trap taken or the slot halted by its own `halt` (R201, R406). -/
def State.killDue (s : State) (c n : Nat) : Bool :=
  let t := s.thread c n
  let a := t.act.getD {}
  let halted := coreType c == .reflex && (s.core c).saved.isNone && a.kind == .task && t.act.isSome && t.run == .suspended .preempted && t.saveKind == 9
  ((s.budgeted c n && a.budgetTaken) || halted) && decide (16 * a.budget + 256 ≤ a.cycles)

/-- BUDGET_KILL (R201): the activation ends as an `exit` with count 0 would, so that a primary copies its keep region (R223). -/
def execBudgetKill (core slot : Nat) (s : State) : Out :=
  event (coreType core == .reflex && decide (slot < 4)) (fun s =>
    if s.killDue core slot then
      ((((s.budgetRecord core slot 0x0A).mirrorKeep core slot).endThread core slot .killed).swapBank core slot).gustOver core
    else s) s

/-! Timers (R232). -/

/-- The armed timers of a core: the tenant's, then those of the Gust code that runs in its place (R193, R232). -/
def Core.timerLine (k : Core) : List Timer := k.ctx.timers ++ (if k.saved.isSome then k.cx.timers else [])

/-- TUNTIL_TIMER_EXPIRY (R232): the timer adds 1 to its counter and is free. -/
def execTuntilTimerExpiry (core i : Nat) (s : State) : Out :=
  event (isCore core) (fun s =>
    let k := s.core core
    match k.timerLine[i]? with
    | none => s
    | some t =>
      if s.clock.now < t.at_ then s
      else if i < k.ctx.timers.length then
        let s := s.setCore core (k.modCtx fun x => { x with timers := x.timers.eraseIdx i })
        s.addOwnCounter core t.slot t.ctr false 1
      else
        let s := s.setCore core { k with cx := { k.cx with timers := k.cx.timers.eraseIdx (i - k.ctx.timers.length) } }
        s.addOwnCounter core t.slot t.ctr true 1) s

/-- The first timer of a core whose time has come. -/
def State.timerDue (s : State) (c : Nat) : Option Nat :=
  let l := (s.core c).timerLine
  (List.range l.length).find? fun i =>
    match l[i]? with
    | some t => decide (t.at_ ≤ s.clock.now)
    | none => false

/-! Records (R227, R230). -/

/-- Raise a 32-bit counter of a stream's entry. -/
def Stream.count (k : Stream) (lo n : Nat) : Stream :=
  { k with reg := BitVec.ofNat 512 (setBits k.reg.toNat lo n (bits k.reg.toNat lo n + 1)) }

/-- The bytes of a stored record (R227). -/
def recordBytes (r : Record) (late : Bool) : List Byte :=
  leBytes 8 r.time.toNat ++ leBytes 4 r.seq.toNat ++ leBytes 4 r.payload.length ++ leBytes 1 r.stream ++
    leBytes 1 (setBits r.flags.toNat 0 1 (if late then 1 else 0)) ++ List.replicate 14 0 ++ r.payload

/-- A record reaches a stream: it is stored in the window's ring, or dropped (R227, R230). -/
def State.takeRecord (s : State) (n : Nat) (r : Record) : State :=
  let k := s.streamAt n
  let size := (32 + r.payload.length + 31) / 32 * 32
  let used := k.recs.foldl (fun a e => a + e.size) 0
  let put (k : Stream) : State := { s with streams := FMap.put s.streams n k }
  if !k.valid then s
  else if k.size < size ∨ k.size < used + size then put (k.count 416 32)
  else if r.time.toNat < k.wstart then put (k.count 480 32)
  else
    let late := match k.fired with | some t => decide (r.time.toNat ≤ t) | none => false
    let bs := recordBytes r late
    let cells := (List.range bs.length).map fun i => (dramLoc (k.base + (k.head + i) % k.size), bs.getD i 0)
    let h : HeldRecord := { time := r.time, seq := r.seq, off := k.head, size := size, late := late, consumed := false }
    let k := { k with recs := k.recs ++ [h], head := (k.head + size) % k.size, seen := k.seen ++ [(r.seq, r.time)] }
    let k := if late then k.count 448 32 else k
    (put k.recover).storeCells cells

/-- SRC of a stream (R226). -/
def Stream.src (k : Stream) : Nat := bits k.reg.toNat 123 3

/-- STREAM_RECORD_ARRIVAL (R227): a record of a MAC frame; a stream with another source discards it. -/
def execStreamRecordArrival (mac : Nat) (r : Record) (s : State) : Out :=
  event (decide (mac < 2)) (fun s =>
    if r.stream < 128 ∧ (s.streamAt r.stream).src = mac + 1 then s.takeRecord r.stream r else s) s

/-- The host commits the record that an ingest aperture holds (R334). -/
def State.commitIngest (s : State) (n : Nat) : State :=
  let cells := FMap.get s.link.aperture n []
  let byte (i : Nat) : Byte := FMap.get cells i 0
  let num (o len : Nat) : Nat := leNat ((List.range len).map fun i => byte (o + i))
  let k := s.streamAt n
  if !k.valid || k.src != 0 then s
  else if 65504 < num 12 4 then { s with streams := FMap.put s.streams n (k.count 416 32) }
  else
    s.takeRecord n {
      time := BitVec.ofNat 64 (num 0 8), seq := BitVec.ofNat 32 (num 8 4), stream := num 16 1, flags := byte 17
      payload := (List.range (num 12 4)).map fun i => byte (32 + i) }

/-- INGEST_RECORD_COMMIT (R334). -/
def execIngestRecordCommit (stream : Nat) (s : State) : Out :=
  event (decide (stream < 128)) (fun s => s.commitIngest stream) s

/-! Decode ticks (R229). -/

/-- The time of a decode tick, none before time zero. -/
def Stream.tickTime (k : Stream) (n : Int) : Int := (bits k.reg.toNat 192 64 : Nat) + n * (bits k.reg.toNat 160 32 : Nat)

/-- Decode ticks are enabled. -/
def Stream.ticks (k : Stream) : Bool := k.valid && bit k.reg.toNat 126 && bits k.reg.toNat 160 32 != 0

/-- A decode tick fires (R229). -/
def State.decodeFire (s : State) (i : Nat) (n : Int) (late : Bool) (skipped : Nat) : State :=
  let k := s.streamAt i
  let r := k.reg.toNat
  let t := (k.tickTime n).toNat
  let c := bits r 106 8
  let words : List Nat := [i, if late then 1 else 0, t, t / 2 ^ 32, k.cover, k.cover / 2 ^ 32, wrapTo n 32, 0]
  let m : Message := {
    ctl := BitVec.ofNat 32 (bits r 116 2 * 2 ^ 16 + bits r 90 16), payload := words.map (BitVec.ofNat 32)
    srcIdx := BitVec.ofNat 8 (128 + i), srcKind := 4, asid := (s.core c).asid, tick := some (128 + i), arrived := s.clock.now }
  let r := if late then setBits r 400 16 (min (bits r 400 16 + 1) 0xFFFF) else r
  let r := setBits r 384 16 (min (bits r 384 16 + skipped + if k.undispatched then 1 else 0) 0xFFFF)
  let done := match k.fired with | some f => max f t | none => t
  let s := { s with streams := FMap.put s.streams i { k with reg := BitVec.ofNat 512 r, fired := some done, undispatched := true } }
  s.fire c m k.undispatched

/-- The next decode tick of a stream has come due. -/
def State.decodeDue (s : State) (i : Nat) : Bool :=
  let k := s.streamAt i
  k.ticks && decide (k.tickTime k.tick ≤ (s.clock.now : Int))

/-- The decode ticks, of those that are due, behind which a later one is due too: a forward step has skipped them, and the last
one replaces them (R225). -/
def Stream.skipped (k : Stream) (now : Nat) : Nat :=
  let p := bits k.reg.toNat 160 32
  if p = 0 then 0 else (((now : Int) - k.tickTime k.tick) / p).toNat

/-- DMISS counts decode ticks that were replaced (R225, R229). -/
def State.missTicks (s : State) (i n : Nat) : State :=
  let k := s.streamAt i
  let r := k.reg.toNat
  { s with streams := FMap.put s.streams i { k with reg := BitVec.ofNat 512 (setBits r 384 16 (min (bits r 384 16 + n) 0xFFFF)) } }

/-- DECODE_TICK (R229): the tick fires when the window holds data up to its time, else it waits for its late time. -/
def execDecodeTick (stream : Nat) (s : State) : Out :=
  event (decide (stream < 128)) (fun s =>
    if !s.decodeDue stream then s
    else
      let k := s.streamAt stream
      let skip := k.skipped s.clock.now
      let n := k.tick + skip
      let covered := decide (k.tickTime n ≤ (k.cover : Int))
      let k2 : Stream := { k with tick := n + 1, late := if covered then k.late else k.late ++ [n] }
      let s := { s with streams := FMap.put s.streams stream k2 }
      if covered then s.decodeFire stream n false skip else s.missTicks stream skip) s

/-- The last decode tick of a stream whose late time has come: it replaces those before it (R225). -/
def State.lateDue (s : State) (i : Nat) : Option Int :=
  let k := s.streamAt i
  if !k.ticks then none
  else (k.late.filter fun n => decide (k.tickTime n + (bits k.reg.toNat 128 32 : Nat) ≤ (s.clock.now : Int))).getLast?

/-- DECODE_TICK_LATE (R229). -/
def execDecodeTickLate (stream : Nat) (s : State) : Out :=
  event (decide (stream < 128)) (fun s =>
    match s.lateDue stream with
    | none => s
    | some n =>
      let k := s.streamAt stream
      ({ s with streams := FMap.put s.streams stream { k with late := k.late.filter fun m => decide (n < m) } } : State).decodeFire
        stream n true (k.late.filter fun m => decide (m < n)).length) s

/-! Egress (R233, R234). -/

/-- The time that a frame takes on the wire at 10 Gb/s, with preamble, FCS and gap (R10, log entry 19). -/
def Frame.wireTime (f : Frame) : Nat := ((f.bytes.length + 24) * 4 + 4) / 5

/-- The LAUNCH of a queue's first frame, when its time has come. -/
def State.launchDue (s : State) (q : Nat) : Option Nat :=
  ((s.egressAt q).frames.head?.map (·.launch)).filter fun t => decide (t ≤ s.clock.now)

/-- Another queue of the same MAC has a first frame that goes before that of a queue: an earlier LAUNCH, or the same one
and a lower number (R234). -/
def State.goesBefore (s : State) (q t : Nat) : Bool :=
  s.egress.any fun e =>
    e.2.mac == (s.egressAt q).mac && (s.launchDue e.1).any fun u => decide (u < t) || (u == t && decide (e.1 < q))

/-- A queue's first frame may leave: its time has come, its MAC is free and no other frame goes before it (R234). -/
def State.egressDue (s : State) (q : Nat) : Bool :=
  let m := if (s.egressAt q).mac then 1 else 0
  decide (FMap.get s.macFree m 0 ≤ s.clock.now) && (s.launchDue q).any fun t => !s.goesBefore q t

/-- EGRESS_LAUNCH (R234): the first frame of a queue leaves; LATE counts a start more than 8 ns past LAUNCH. -/
def execEgressLaunch (q : Nat) (s : State) : Out :=
  event (decide (q < 16)) (fun s =>
    let k := s.egressAt q
    match k.frames with
    | [] => s
    | f :: rest =>
      if !s.egressDue q then s
      else
        let m := if k.mac then 1 else 0
        let late := if f.launch + 8 < s.clock.now then k.late + 1 else k.late
        { s with egress := FMap.put s.egress q { k with frames := rest, sent := k.sent + 1, late := late },
                 macFree := FMap.put s.macFree m (s.clock.now + f.wireTime) }) s

/-! The clock (R225). -/

/-- TIME_SOURCE_CORRECTION (R225): an offset of 1 µs or less is slewed, a larger one stepped. -/
def execTimeSourceCorrection (ns : Int) (s : State) : Out :=
  event true (fun s =>
    let c := s.clock
    if c.src = 0 then s
    else if ns.natAbs ≤ 1000 then { s with clock := { c with lock := true, slew := ns } }
    else { s with clock := { c with lock := true, stepped := true, slew := 0, now := ((c.now : Int) + ns).toNat % 2 ^ 64 } }) s

/-- SOURCE_LOCK_LOSS (R225). -/
def execSourceLockLoss (s : State) : Out := event true (fun s => { s with clock := { s.clock with lock := false } }) s

/-! The hot spare (R222 to R224). -/

/-- HEARTBEAT_SEND (R223). -/
def execHeartbeatSend (s : State) : Out :=
  event true (fun s =>
    if s.spare.role = 0 then s else { s with spare := { s.spare with heartbeats := s.spare.heartbeats + 1 } }) s

/-- HEARTBEAT_RECEIVE (R223): the next window begins with it, so that three windows pass 300 µs behind it (R224). -/
def execHeartbeatReceive (s : State) : Out :=
  event true (fun s => { s with spare := { s.spare with windowAt := s.clock.cc, missed := 0 } }) s

/-- A window of 100 µs has passed since the last heartbeat, or since the last window ended (R224). -/
def State.windowOver (s : State) : Bool := s.spare.role != 0 && decide (s.spare.windowAt + 160000 ≤ s.clock.cc)

/-- HEARTBEAT_WINDOW_EXPIRY (R224): the third window without a heartbeat makes a spare take over and fences a primary with
SELFFENCE. -/
def execHeartbeatWindowExpiry (s : State) : Out :=
  event true (fun s =>
    let h := s.spare
    if !s.windowOver then s
    else
      let missed := BitVec.ofNat 8 (min (h.missed.toNat + 1) 255)
      let s := { s with spare := { h with missed := missed, windowAt := h.windowAt + 160000 } }
      if missed.toNat < 3 then s
      else if h.role = 2 then s.takeOver 1
      else if h.selffence && !h.taken then s.fence
      else s) s

/-- FATAL_ERROR_MESSAGE (R224). -/
def execFatalErrorMessage (s : State) : Out := event true (fun s => s.takeOver 2) s

/-- HSCTL_TAKE (R221, R224). -/
def execHsctlTake (s : State) : Out := event true (fun s => if s.feature 2 then s.takeOver 3 else s) s

/-- MIRROR_PUBLISH_RECEIVE (R223): the spare's mailbox publishes with the primary's version and header. -/
def execMirrorPublishReceive (p : MirrorPublish) (s : State) : Out :=
  event (decide (p.slot < 4096)) (fun s =>
    let k := s.mbSlot p.slot
    if s.spare.role ≠ 2 ∨ s.spare.taken ∨ !k.valid then s
    else
      let b := k.openBuf.getD k.choose
      let at_ := mbLoc (k.base b)
      let ver := p.ver.toNat
      let s := s.store (at_ + 32) (p.data.take (k.size - 32))
      let s := s.storeNat at_ 32
        (mbStored ver p.ptime.toNat p.writer.toNat p.ufl.toNat p.slot p.len.toNat true)
      s.setMb p.slot ((k.setBuf b { st := .opened }).publish b ver)) s

/-- The binding of a mirrored keep region has no activation now (R223). -/
def State.keepFree (s : State) (k : KeepMirror) : Bool :=
  let c := 256 + k.tile
  match (s.core c).ctx.findTag k.tag.toNat with
  | some (i, _) => !((s.core c).bindingRuns i k.tag.toNat)
  | none => true

/-- Mirrored keep regions are written, each whole and between activations of its binding (R223). -/
def State.flushKeeps (s : State) : State :=
  let go := s.spare.keepIn.filter s.keepFree
  go.foldl (fun s k =>
    let c := 256 + k.tile
    match (s.core c).ctx.findTag k.tag.toNat with
    | some (_, e) => s.store (sramLoc c (64 * bindKeepOff e)) (k.data.take (64 * bindKeepSize e))
    | none => s) { s with spare := { s.spare with keepIn := s.spare.keepIn.filter fun k => !s.keepFree k } }

/-- KEEP_REGION_MIRROR_RECEIVE (R223). -/
def execKeepRegionMirrorReceive (k : KeepMirror) (s : State) : Out :=
  event (decide (k.tile < 32)) (fun s =>
    if s.spare.role ≠ 2 then s else ({ s with spare := { s.spare with keepIn := s.spare.keepIn ++ [k] } } : State).flushKeeps) s

end Sys2Proof.Machine
end

