-- ==== Sys2Proof/Machine/Control.lean ====
section
/-! DEFINITION. Branches, jumps and the mask operations (R60, R380 to R382, R389, R407, R410). -/

namespace Sys2Proof.Machine

/-- A branch: to the target of R345 when taken, else on (R382). -/
def State.branch (s : State) (taken : Bool) (o : BitVec 16) : Res := if taken then .jump (s.branchTo o) s else .retire s

/-- The target of `j` and `jal` (R407). -/
def State.jumpTo (s : State) (o : BitVec 25) : Dword := s.pc + 4 * o.signExtend 64

/-- Write a k register and retire. -/
def State.retK (s : State) (d : BitVec 3) (v : Word) : Res := .retire (s.setK d v)

/-- `beq` (R381). -/
def execBeq (a : Reg) (b : Reg) (o : BitVec 16) (s : State) : Out :=
  issue (.beq a b o) (fun s => s.branch (s.x a == s.x b) o) s

/-- `bne` (R381). -/
def execBne (a : Reg) (b : Reg) (o : BitVec 16) (s : State) : Out :=
  issue (.bne a b o) (fun s => s.branch (s.x a != s.x b) o) s

/-- `blt` (R381). -/
def execBlt (a : Reg) (b : Reg) (o : BitVec 16) (s : State) : Out :=
  issue (.blt a b o) (fun s => s.branch ((s.x a).slt (s.x b)) o) s

/-- `bge` (R381). -/
def execBge (a : Reg) (b : Reg) (o : BitVec 16) (s : State) : Out :=
  issue (.bge a b o) (fun s => s.branch ((s.x b).sle (s.x a)) o) s

/-- `bltu` (R381). -/
def execBltu (a : Reg) (b : Reg) (o : BitVec 16) (s : State) : Out :=
  issue (.bltu a b o) (fun s => s.branch ((s.x a).ult (s.x b)) o) s

/-- `bgeu` (R381). -/
def execBgeu (a : Reg) (b : Reg) (o : BitVec 16) (s : State) : Out :=
  issue (.bgeu a b o) (fun s => s.branch ((s.x b).ule (s.x a)) o) s

/-- `bkany` (R60). -/
def execBkany (k : BitVec 3) (o : BitVec 16) (s : State) : Out :=
  issue (.bkany k o) (fun s => s.branch (s.k k != 0) o) s

/-- `bkall` (R60). -/
def execBkall (k : BitVec 3) (o : BitVec 16) (s : State) : Out :=
  issue (.bkall k o) (fun s => s.branch (s.k k == BitVec.allOnes 32) o) s

/-- `bknone` (R60). -/
def execBknone (k : BitVec 3) (o : BitVec 16) (s : State) : Out :=
  issue (.bknone k o) (fun s => s.branch (s.k k == 0) o) s

/-- `bceos`: branches when an end-of-stream beat stands at the head of the register (R189, R380). -/
def execBceos (v : Reg) (o : BitVec 16) (s : State) : Out :=
  issue (.bceos v o) (fun s =>
    match s.boundOf v.toNat with
    | none => .trap causeMover 3 s
    | some b =>
      if s.fillingReg v.toNat || !b.isSource then .trap causeMover 3 s
      else s.branch (b.fifo.head? == some none) o) s

/-- `j` (R407). -/
def execJ (o : BitVec 25) (s : State) : Out :=
  issue (.j o) (fun s => .jump (s.jumpTo o) s) s

/-- `jal`: x1 takes the low 32 bits of its own address + 4 (R346, R407). -/
def execJal (o : BitVec 25) (s : State) : Out :=
  issue (.jal o) (fun s => .jump (s.jumpTo o) (s.setX 1 ((s.pc + 4).setWidth 32))) s

/-- `jalr`: the target keeps the upper half of pc (R346, R407). -/
def execJalr (d : Reg) (a : Reg) (o : BitVec 10) (s : State) : Out :=
  issue (.jalr d a o) (fun s => .jump
    ((s.pc.extractLsb' 32 32) ++ (s.x a + 4 * o.signExtend 32)) (s.setX d ((s.pc + 4).setWidth 32))) s

/-- `jalr.far`: the target is 64 bits wide, and a pair field of 0 writes nothing (R346, R407). -/
def execJalrFar (d : Reg) (a : Reg) (o : BitVec 10) (s : State) : Out :=
  issue (.jalrFar d a o) (fun s => .jump (s.p a + 4 * o.signExtend 64)
    (if d = 0 then s else s.setP d (s.pc + 4))) s

/-- `dbnz`: the value tested is computed before x0 discards it (R389). -/
def execDbnz (a : Reg) (o : BitVec 16) (s : State) : Out :=
  issue (.dbnz a o) (fun s => (s.setX a (s.x a - 1)).branch (s.x a - 1 != 0) o) s

/-- `kmov xd, ka` (R410). -/
def execKmovX (d : Reg) (a : BitVec 3) (s : State) : Out :=
  issue (.kmovX d a) (fun s => s.retX d (s.k a)) s

/-- `kand` (R410). -/
def execKand (d : BitVec 3) (a : BitVec 3) (b : BitVec 3) (s : State) : Out :=
  issue (.kand d a b) (fun s => s.retK d (s.k a &&& s.k b)) s

/-- `kor` (R410). -/
def execKor (d : BitVec 3) (a : BitVec 3) (b : BitVec 3) (s : State) : Out :=
  issue (.kor d a b) (fun s => s.retK d (s.k a ||| s.k b)) s

/-- `kxor` (R410). -/
def execKxor (d : BitVec 3) (a : BitVec 3) (b : BitVec 3) (s : State) : Out :=
  issue (.kxor d a b) (fun s => s.retK d (s.k a ^^^ s.k b)) s

/-- `knot` (R410). -/
def execKnot (d : BitVec 3) (a : BitVec 3) (s : State) : Out :=
  issue (.knot d a) (fun s => s.retK d (~~~(s.k a))) s

/-- `kmov kd, ka` (R410). -/
def execKmovK (d : BitVec 3) (a : BitVec 3) (s : State) : Out :=
  issue (.kmovK d a) (fun s => s.retK d (s.k a)) s

/-- `kpopc` (R410). -/
def execKpopc (d : Reg) (a : BitVec 3) (s : State) : Out :=
  issue (.kpopc d a) (fun s => s.retX d (BitVec.ofNat 32 (onesCount (s.k a).toNat 32))) s

/-- `kfirst`: the lowest 1 bit, or 32 (R410). -/
def execKfirst (d : Reg) (a : BitVec 3) (s : State) : Out :=
  issue (.kfirst d a) (fun s => s.retX d (BitVec.ofNat 32 (trailingZeros (s.k a)))) s

/-- `kgen` (R410). -/
def execKgen (d : BitVec 3) (a : Reg) (s : State) : Out :=
  issue (.kgen d a) (fun s => s.retK d (s.x a)) s

end Sys2Proof.Machine
end

