-- ==== Sys2Proof/Machine/Firmware.lean ====
section
/-! DEFINITION. How front-end firmware reaches memory, and the record of a refused service (R238, R290, R291, R316, R515). -/

namespace Sys2Proof.Machine

/-- The core on which the model's firmware makes its accesses. -/
def firmwareCore : Nat := 352

/-- The location that a unit of a core reaches for an address-space id on a translated path, none when the translation
fails. -/
def State.unitLoc (s : State) (c : Nat) (asid : BitVec 16) (path va : Nat) (kind : AccessKind) : State × Option Nat :=
  if !isTranslated path || decide (2 ^ 48 ≤ va) then (s, none)
  else
    match s.translate c asid path va kind with
    | .hit loc => (s.touchTlb c asid path va kind, some loc)
    | .miss w =>
      match s.performWalk c asid w with
      | (s, some _) => (s, none)
      | (s, none) =>
        match s.translate c asid path va kind with
        | .hit loc => (s, some loc)
        | .miss _ => (s, none)

/-- The location that firmware reaches. -/
def State.feLoc (s : State) (asid : BitVec 16) (path va : Nat) (kind : AccessKind) : State × Option Nat :=
  s.unitLoc firmwareCore asid path va kind

/-- The locations of `n` bytes. -/
def State.feLocs (s : State) (asid : BitVec 16) (path va : Nat) (kind : AccessKind) : Nat → State × Option (List Nat)
  | 0 => (s, some [])
  | n + 1 =>
    match s.feLoc asid path va kind with
    | (s, none) => (s, none)
    | (s, some loc) =>
      match s.feLocs asid path (va + 1) kind n with
      | (s, none) => (s, none)
      | (s, some l) => (s, some (loc :: l))

/-- Firmware reads bytes through a path of an address-space id: none when one of them cannot be read. -/
def State.feRead (s : State) (asid : BitVec 16) (path va n : Nat) : State × Option (List Byte) :=
  match s.feLocs asid path va .load n with
  | (s, none) => (s, none)
  | (s, some l) =>
    if l.any fun a => (s.poisoned a (a + 1)).isSome then (s, none) else (s, some (l.map (memByte s.mem)))

/-- Firmware writes bytes through a path of an address-space id; where one cannot be written, nothing is. -/
def State.feWrite (s : State) (asid : BitVec 16) (path va : Nat) (bs : List Byte) : State :=
  match s.feLocs asid path va .store bs.length with
  | (s, none) => s
  | (s, some l) => s.storeCells (l.zip bs)

/-- Some bytes of path 0x00 can be read and written by an address-space id, page by page. -/
def State.feMapped (s : State) (asid : BitVec 16) (va pages : Nat) : Bool :=
  (List.range pages).all fun i =>
    match s.walkTable asid 0 (va + 4096 * i) with
    | .leaf _ _ e => leafAllows e .atomic
    | .fault _ _ => false

/-- A word of a service's payload. -/
def reqWord (r : ServiceReq) (i : Nat) : Nat := (r.words.getD i 0).toNat

/-- The 64-bit value of two words of a payload. -/
def reqDword (r : ServiceReq) (i : Nat) : Nat := reqWord r i + reqWord r (i + 1) * 2 ^ 32

/-- The sender may act for every address-space id: it ran in supervisor mode, or is the driver. -/
def reqFree (r : ServiceReq) : Bool := r.supervisor || r.driver

/-- A refused service is discarded with an error record (R290, R316, R515). -/
def State.refuse (s : State) (r : ServiceReq) (reason : Nat) : State :=
  s.feRecord 0x13 2 r.asid.toNat
    ([(20, 1, r.number), (21, 1, reason)] ++ (List.range 8).map fun i => (24 + 4 * i, 4, reqWord r i))

/-- Take a request that waits for firmware; one that the driver writes comes from outside (R290). -/
def State.takeService (s : State) (r : ServiceReq) : Option State :=
  if s.boot.stage ≠ 3 then none
  else if r.driver then some s
  else if s.services.contains r then some { s with services := s.services.erase r }
  else none

/-- An event that serves a request of one number: it does nothing where no such request waits. -/
def serviceEvent (n : Nat) (r : ServiceReq) (sup : Bool) (body : State → State) (s : State) : State :=
  if r.number ≠ n then s
  else
    match s.takeService r with
    | none => s
    | some s => if sup && !reqFree r then s.refuse r 2 else body s

/-- A descriptor that words 0 and 1 of a payload address: read as the sender's load through path 0x00 or 0x08, or by the
driver from port A (R291). -/
def State.readDesc (s : State) (r : ServiceReq) : State × Option (List Byte) :=
  let a := reqDword r 0
  let path := bits a 56 8
  if r.driver then
    if path = 0x08 then
      let loc := hostLoc (bits a 0 48)
      (s, if (s.poisoned loc (loc + 64)).isSome then none else some (s.read loc 64))
    else (s, none)
  else if path = 0x00 ∨ path = 0x08 then s.feRead r.asid path (bits a 0 56) 64
  else (s, none)

end Sys2Proof.Machine
end

