-- ==== Sys2Proof/Machine/Generation.lean ====
section
/-! DEFINITION. The step scheduler: its service (R237), a step boundary (R238 to R242, R257 to R259), and the bandit that
chooses templates (R245, R248). -/

namespace Sys2Proof.Machine

/-! The service (R237). -/

/-- Service 0x20 starts the scheduler for the sender's address-space id, or stops it at the next boundary (R237). -/
def State.stepService (s : State) (r : ServiceReq) : State :=
  let a := reqDword r 0
  if bits (reqWord r 3) 1 31 ≠ 0 then s.refuse r 3
  else if bit (reqWord r 3) 0 then
    if bits (reqWord r 2) 9 23 ≠ 0 ∨ bits (reqWord r 2) 0 9 = 0 ∨ 256 < bits (reqWord r 2) 0 9 ∨ bits a 48 16 ≠ 0 then s.refuse r 3
    else if s.gen.owner.isSome then s.refuse r 4
    else if a % 4096 ≠ 0 ∨ !s.feMapped r.asid a 48 then s.refuse r 5
    else
      { s with gen := { s.gen with
        owner := some r.asid, block := a, bmax := bits (reqWord r 2) 0 9, stopping := false, submitted := false, stepGang := none
        batch := [], waitUntil := 0 } }
  else
    match s.gen.owner with
    | none => s
    | some o => if reqFree r || o == r.asid then { s with gen := { s.gen with stopping := true } } else s.refuse r 2

/-- SERVICE_STEP_SCHEDULER (R237). -/
def execServiceStepScheduler (r : ServiceReq) (s : State) : Out :=
  event true (serviceEvent 0x20 r false fun s => s.stepService r) s

/-! The bandit (R248). -/

/-- A template register is valid. -/
def State.templateValid (s : State) (j : Nat) : Bool := bit (FMap.get s.gen.templates j 0).toNat 1055

/-- The count of a template for a class. -/
def Generation.armN (g : Generation) (c j : Nat) : Nat := (FMap.get g.banditN (16 * c + j) 0).toNat

/-- The reward sum of a template for a class, as FP32 code. -/
def Generation.armS (g : Generation) (c j : Nat) : Nat := (FMap.get g.banditS (16 * c + j) 0).toNat

/-- A rational number not below zero, m × 2^e + a / b, rounded to FP32 by RNE. -/
def roundRatio (m : Nat) (e : Int) (a b : Nat) : Nat :=
  let num := m * 2 ^ (e + 400).toNat * b + a * 2 ^ 400
  let q := num / b
  if q = 0 then 0 else (roundFinite .fp32 0 false false q (-400) (decide (num % b ≠ 0))).1

/-- A reward sum with a / b added to it, rounded once. -/
def addReward (sum a b : Nat) : Nat :=
  match decodeFloat .fp32 sum with
  | .fin _ m e => roundRatio m e a b
  | _ => sum

/-- Half of a reward sum. -/
def halfReward (sum : Nat) : Nat :=
  match decodeFloat .fp32 sum with
  | .fin _ m e => roundRatio m (e - 1) 0 1
  | _ => sum

/-- The update of one class from the closed bank (R248). -/
def State.updateClass (s : State) (bank c : Nat) : State :=
  let g := s.gen
  let j := FMap.get g.choice c 0xFF
  let h (b : Nat) : Nat := (s.bin bank c b).toNat
  let m := (List.range 9).foldl (fun a b => a + h b) 0
  if 16 ≤ j ∨ m = 0 then s
  else
    let won := (List.range 9).foldl (fun a b => a + h b * (b + 1)) 0
    let sum := addReward (g.armS c j) (64 * won) (9 * (64 + FMap.get g.usedNodes j 0))
    let ns : FMap Word := FMap.set g.banditN (16 * c + j) (BitVec.ofNat 32 (g.armN c j + m)) 0
    let ss : FMap Word := FMap.set g.banditS (16 * c + j) (BitVec.ofNat 32 sum) 0
    let total := (List.range 16).foldl (fun a i => a + (FMap.get ns (16 * c + i) 0).toNat) 0
    let big := decide (2 ^ 20 < total)
    let halveN := (List.range 16).foldl (fun (l : FMap Word) i =>
      FMap.set l (16 * c + i) (BitVec.ofNat 32 ((FMap.get l (16 * c + i) 0).toNat / 2)) 0) ns
    let halveS := (List.range 16).foldl (fun (l : FMap Word) i =>
      FMap.set l (16 * c + i) (BitVec.ofNat 32 (halfReward (FMap.get l (16 * c + i) 0).toNat)) 0) ss
    { s with gen := { g with banditN := if big then halveN else ns, banditS := if big then halveS else ss } }

/-- ln t with 320 fraction bits, for t at least 1. -/
def lnFix (t : Nat) : Nat := (Nat.log2 t * 2 ^ 320 + log2Fix t (Nat.log2 t)) * ln2Fix / 2 ^ 320

/-- s / n, rounded to FP32 by RNE (R248). -/
def armMean (sum n : Nat) : Nat :=
  match decodeFloat .fp32 sum with
  | .fin _ m e => roundRatio 0 0 (m * 2 ^ (e + 400).toNat) (n * 2 ^ 400)
  | _ => sum

/-- √(2 ln t / n) with 161 fraction bits, the last of which is set where bits have been cut off (log entry 15). -/
def armBonus (n t : Nat) : Nat := if t ≤ 1 then 0 else 2 * isqrt (2 * lnFix t / n) + 1

/-- The index of R248, s / n + √(2 ln t / n), as FP32 code: the quotient is rounded by RNE, and so is its sum with the root. -/
def armIndex (sum n t : Nat) : Nat :=
  match decodeFloat .fp32 (armMean sum n) with
  | .fin _ m e => roundRatio m e (armBonus n t) (2 ^ 161)
  | _ => sum

/-- The choice of one class over the valid templates (R248). -/
def State.chooseTemplate (s : State) (c : Nat) : Nat :=
  let valid := (List.range 16).filter s.templateValid
  match valid.find? fun i => s.gen.armN c i == 0 with
  | some i => i
  | none =>
    let t := valid.foldl (fun a i => a + s.gen.armN c i) 0
    let score (i : Nat) : Nat := armIndex (s.gen.armS c i) (s.gen.armN c i) t
    match valid with
    | [] => 0xFF
    | i :: rest => rest.foldl (fun best k => if score best < score k then k else best) i

/-- The banks swap, the classes of the last batch update their templates, every class chooses, and the closed bank is zeroed
(R248). -/
def State.bandit (s : State) (classes : List Nat) : State :=
  let bank := if s.gen.hbank then 1 else 0
  let s := { s with gen := { s.gen with hbank := !s.gen.hbank } }
  let s := classes.foldl (fun s c => s.updateClass bank c) s
  let choice := (List.range 32).map fun c => (c, s.chooseTemplate c)
  { s with gen := { s.gen with choice := choice, hist := s.gen.hist.filter fun e => e.1 / 1024 != bank } }

/-! The block (R238, R239). -/

/-- The offset of a sequence entry. -/
def seqOffset (i : Nat) : Nat := 0x10000 + 64 * i

/-- The owner reads bytes of its block; what cannot be read counts as zero. -/
def State.genRead (s : State) (off n : Nat) : State × Nat :=
  match s.feRead (s.gen.owner.getD 0) 0 (s.gen.block + off) n with
  | (s, some l) => (s, leNat l)
  | (s, none) => (s, 0)

/-- The scheduler writes a number of `n` bytes to its block. -/
def State.genWrite (s : State) (off n v : Nat) : State :=
  s.feWrite (s.gen.owner.getD 0) 0 (s.gen.block + off) (leBytes n v)

/-- A sequence as the scheduler sees it at a boundary. -/
structure SeqView where
  idx : Nat
  word : Nat
  last : Nat
  fut : Nat
  deriving DecidableEq, Repr

/-- STATE of a sequence. -/
def SeqView.st (v : SeqView) : Nat := bits v.word 0 8
/-- CLASS of a sequence. -/
def SeqView.cls (v : SeqView) : Nat := bits v.word 8 2
/-- SCLS of a sequence. -/
def SeqView.scls (v : SeqView) : Nat := bits v.word 10 5

/-- A STATE word that is not batched and is reported: STATE, the CLASS of an entry in use, or a reserved bit is invalid
(R240, log entry 15). -/
def SeqView.bad (v : SeqView) : Bool :=
  decide (4 < v.st) || bits v.word 15 17 != 0 || (v.st != 0 && v.cls == 0)

/-- Read a sequence entry. -/
def State.readSeq (s : State) (i : Nat) : State × SeqView :=
  let w := s.genRead (seqOffset i) 4
  let f := w.1.genRead (seqOffset i + 24) 16
  (f.1, { idx := i, word := w.2, fut := f.2 % 2 ^ 64, last := f.2 / 2 ^ 64 })

/-- The location of a future's cell on the owner's path 0x00, none where it names none. -/
def State.futLoc (s : State) (fut : Nat) : State × Option Nat :=
  if bits fut 56 8 ≠ 0 ∨ fut % 16 ≠ 0 then (s, none) else s.feLoc (s.gen.owner.getD 0) 0 fut .atomic

/-- The futures of the batch are full (R241). -/
def State.batchFull (s : State) : Bool :=
  s.gen.batch.all fun i =>
    match s.futLoc (s.readSeq i).2.fut with
    | (_, some loc) => bit (s.readNat (loc + 8) 1) 0
    | (_, none) => false

/-- The verification gang of the step in flight has exited. -/
def State.stepOver (s : State) : Bool :=
  !s.gen.submitted &&
    (match s.gen.stepGang.bind s.gang with
      | some g => g.st == .ended
      | none => true)

/-- A boundary can be run now (R241). -/
def State.boundaryDue (s : State) : Bool :=
  match s.gen.owner with
  | none => false
  | some o =>
    s.stepOver && decide (s.gen.waitUntil ≤ s.clock.now) && s.feMapped o s.gen.block 48 && s.batchFull

/-! A boundary (R241). -/

/-- Change the state of a sequence (R240). -/
def State.setSeq (s : State) (v : SeqView) (st : Nat) : State :=
  s.genWrite (seqOffset v.idx) 4 (v.word / 256 * 256 + st)

/-- Add 1 to a word of the header. -/
def State.bumpHeader (s : State) (off : Nat) : State :=
  let v := s.genRead off 4
  v.1.genWrite off 4 (v.2 + 1)

/-- Act on the future of a batched sequence (R242, R257, R258): the state, and whether the entry is taken as FAULTED or as
LEAVING from now on. -/
def State.settleSeq (s : State) (i : Nat) : State × Option Nat :=
  let v := s.readSeq i
  match v.1.futLoc v.2.fut with
  | (s, none) => (s, none)
  | (s, some loc) =>
    let f := s.readNat loc 8
    match bits f 56 8 with
    | 0 => (s.genWrite (seqOffset i + 4) 4 (bits f 0 32), none)
    | 1 => (s.bumpHeader 12, none)
    | 3 => (s.genWrite (seqOffset i + 4) 4 (bits f 0 32), some 3)
    | _ =>
      let len := s.genRead (seqOffset i + 4) 4
      let s := len.1.feRecord 0x0F 2 (s.gen.owner.getD 0).toNat [(20, 4, i), (24, 4, len.2), (28, 4, bits f 0 32)]
      (s.bumpHeader 16, some 4)

/-- Sample an entry once and make the changes of a boundary: the entry as it stands then (R240, R241 step 2). -/
def State.sampleSeq (s : State) (forced : FMap Nat) (i : Nat) : State × SeqView :=
  let r := s.readSeq i
  let v := r.2
  let s := r.1
  match FMap.find forced i with
  | some 4 => (s.setSeq v 4, { v with word := v.word / 256 * 256 + 4 })
  | f =>
    if v.bad then
      (s.feRecord 0x13 2 (s.gen.owner.getD 0).toNat [(20, 1, 0x20), (21, 1, 8), (24, 4, i), (28, 4, v.word)],
        { v with word := 0 })
    else if v.st = 3 ∨ (f = some 3 ∧ v.st = 2) then (s.setSeq v 0, { v with word := v.word / 256 * 256 })
    else if v.st = 1 then (s.setSeq v 2, { v with word := v.word / 256 * 256 + 2 })
    else (s, v)

/-- Insert a sequence by its class, its last step and its index (R241 step 4). -/
def insertSeq (v : SeqView) : List SeqView → List SeqView
  | [] => [v]
  | w :: r =>
    let before := decide (v.cls < w.cls) || (v.cls == w.cls && (decide (v.last < w.last) || (v.last == w.last && decide (v.idx < w.idx))))
    if before then v :: w :: r else w :: insertSeq v r

/-- The batch formed from the entries (R241 step 4). -/
def State.formBatch (s : State) (l : List SeqView) : List SeqView :=
  ((l.filter fun v => v.st == 2 && !sheds s.shed.level v.cls).foldr insertSeq []).take s.gen.bmax

/-- Steps 5 and 6 for a batch: the block's tables are written, the futures reset and the gang submitted (R241). -/
def State.submitStep (s : State) (step : Nat) (batch : List SeqView) : State :=
  let n := batch.length
  let s := s.genWrite 0 8 step
  let s := (s.genWrite 8 4 (s.gen.bmax + n * 2 ^ 16)).genWrite 20 44 0
  let s := batch.foldl (fun s v => s.genWrite (seqOffset v.idx + 32) 8 step) s
  let s := (List.range n).foldl (fun s k => s.genWrite (0x100 + 2 * k) 2 ((batch.map SeqView.idx).getD k 0)) s
  let s := (List.range 32).foldl (fun s c => s.genWrite (0x80 + c) 1 (FMap.get s.gen.choice c 0xFF)) s
  let s := s.genWrite (0x80 + 32) 32 0
  let s := (List.range 16).foldl (fun s j => s.genWrite (0x1000 + 256 * j) 256 (FMap.get s.gen.templates j 0).toNat) s
  let used := (List.range 16).map fun j => (j, bits (FMap.get s.gen.templates j 0).toNat 1024 7)
  let s := batch.foldl (fun (s : State) v =>
    match s.futLoc v.fut with
    | (s, some loc) => s.storeNat (loc + 8) 4 0
    | (s, none) => s) s
  let s := { s with gen := { s.gen with usedNodes := used, batch := batch.map SeqView.idx, stepGang := none } }
  if n = 0 then { s with gen := { s.gen with waitUntil := s.clock.now + 10000 } }
  else
    let d := s.genRead 0x40 60
    let v := setBits (setBits (setBits d.2 (8 * 6 + 3) 1 0) (8 * 28) 64 step) (8 * 36) 16 n
    let s := d.1
    { s with
      gen := { s.gen with submitted := true }
      gangPort := s.gangPort ++ [{ desc := leBytes 60 v, asid := s.gen.owner.getD 0, step := true }] }

/-- A step boundary (R241). -/
def State.stepBoundary (s : State) : State :=
  if !s.boundaryDue then s
  else if s.gen.stopping then { s with gen := { s.gen with owner := none, stopping := false, batch := [], stepGang := none } }
  else
    let r := s.gen.batch.foldl (fun (p : State × FMap Nat) i =>
      match p.1.settleSeq i with
      | (t, some k) => (t, FMap.put p.2 i k)
      | (t, none) => (t, p.2)) (s, ([] : FMap Nat))
    let classes := (s.gen.batch.map fun i => (s.readSeq i).2.scls).eraseDups
    let q := (List.range 2048).foldl (fun (p : State × List SeqView) i =>
      let e := p.1.sampleSeq r.2 i
      (e.1, e.2 :: p.2)) (r.1, ([] : List SeqView))
    let s := q.1.bandit classes
    let step := s.genRead 0 8
    step.1.submitStep ((step.2 + 1) % 2 ^ 64) (s.formBatch q.2)

/-- STEP_BOUNDARY (R241). -/
def execStepBoundary (s : State) : Out := event true (fun s => s.stepBoundary) s

end Sys2Proof.Machine
end

