-- ==== Sys2Proof/Machine/LoadCheck.lean ====
section
/-! DEFINITION. What the load service verifies of a code object: the loader's checks of R71, the extent of R346 and the
rules for queue programs of R276, on the words of the object. -/

namespace Sys2Proof

open Machine

/-! The words of the code section. -/

/-- A word belongs to the entry header that stands before a handler (R68). -/
def CodeObject.inHeader (o : CodeObject) (i : Nat) : Bool := o.handlers.any fun h => decide (i < h) && decide (h ≤ i + 4)

/-- A word as a number. -/
def CodeObject.word (o : CodeObject) (i : Nat) : Nat := (o.words.getD i 0).toNat

/-- The instruction at a word: none in an entry header, or where the word is none. -/
def CodeObject.instr (o : CodeObject) (i : Nat) : Option Instr :=
  if o.inHeader i || decide (o.words.length ≤ i) then none else decode (o.words.getD i 0)

/-- The major opcode of the instruction at a word, 0 where there is none (R342). -/
def CodeObject.op (o : CodeObject) (i : Nat) : Nat := if (o.instr i).isSome then bits (o.word i) 26 6 else 0

/-- The word is a `safe`. -/
def isSafe : Option Instr → Bool
  | some (.safe _ _) => true
  | _ => false

/-- The word governs the word behind it as a prefix (R72). -/
def CodeObject.governed (o : CodeObject) (i : Nat) : Bool := decide (0 < i) && o.op (i - 1) == 0x3F

/-- The payload of a KIND 0b00 prefix that governs a word (R73). -/
def CodeObject.ext (o : CodeObject) (i : Nat) : Option Nat :=
  if o.governed i && bits (o.word (i - 1)) 24 2 == 0 then some (bits (o.word (i - 1)) 0 16) else none

/-- The word to which a branch, or a jump with a fixed target, goes (R73, R345). -/
def CodeObject.target (o : CodeObject) (i : Nat) : Option Int :=
  let op := o.op i
  if (decide (0x10 ≤ op) && decide (op ≤ 0x17)) || op == 0x1A then
    some (i + match o.ext i with
      | some p => signed (p * 2 ^ 16 + bits (o.word i) 0 16) 32
      | none => signed (o.word i) 16)
  else if op = 0x18 then some (i + signed (o.word i) 25)
  else none

/-- The target of a word stands at or below the word itself. -/
def CodeObject.goesBack (o : CodeObject) (i : Nat) : Bool := (o.target i).any fun t => decide (t ≤ (i : Int))

/-- The numbers of the words. -/
def CodeObject.indexes (o : CodeObject) : List Nat := List.range o.words.length

/-- No branch or jump of the object goes to a word. -/
def CodeObject.untargeted (o : CodeObject) (i : Nat) : Bool := o.indexes.all fun j => o.target j != some (i : Int)

/-! The loader's checks of R71. -/

/-- The instruction at a word, or the pair that the word ends, follows a `safe` on every way to it. -/
def CodeObject.afterSafe (o : CodeObject) (i : Nat) : Bool :=
  let first := if o.governed i then i - 1 else i
  decide (0 < first) && isSafe (o.instr (first - 1)) && o.untargeted first && o.untargeted i

/-- A load, store or `glaunch` goes through a register pair, so its path does not stand in the word (R343, R488). -/
def CodeObject.byPointer (o : CodeObject) (i : Nat) : Bool :=
  let op := o.op i
  (decide (0x20 ≤ op) && decide (op ≤ 0x2B) && bits (o.word i) 17 4 != 0) || op == 0x35 ||
    match o.instr i with
    | some (.glaunch _ _) => true
    | _ => false

/-- A word must follow a `safe`: a matrix command or a blocking instruction, a backward branch or jump, a `jalr`. -/
def CodeObject.owesSafe (o : CodeObject) (i : Nat) : Bool :=
  (o.instr i).any needsSafe || (o.byPointer i && !Config.loaderProves o.words i) || o.goesBack i || o.op i == 0x19

/-- The first two rows of R71. -/
def CodeObject.safesStand (o : CodeObject) : Bool := o.indexes.all fun i => !o.owesSafe i || o.afterSafe i

/-- Control can go on behind a word: not behind `j`, `jalr`, `exit` or `eret`. -/
def CodeObject.goesOn (o : CodeObject) (i : Nat) : Bool :=
  match o.instr i with
  | none | some (.j _) | some (.jalr _ _ _) | some (.jalrFar _ _ _) | some (.exit _ _) | some .eret => false
  | some _ => true

/-- For every word from `i` on, the most instructions that retire from it to the next `safe` without a backward branch; a
pair counts once (R361). -/
def CodeObject.stretches (o : CodeObject) : List Nat :=
  o.indexes.foldr (fun i rest =>
    let ahead := if o.goesOn i then rest.headD 0 else 0
    let aside := match o.target i with
      | some t => if (i : Int) < t then rest.getD (t - i - 1).toNat 0 else 0
      | none => 0
    (if isSafe (o.instr i) || (o.instr i).isNone then 0 else (if o.op i = 0x3F then 0 else 1) + max ahead aside) :: rest) []

/-- The third row of R71: a backward branch follows a `safe`, so the stretch at its target comes right behind it. -/
def CodeObject.gustShort (o : CodeObject) : Bool :=
  let l := o.stretches
  !o.gustEligible || o.indexes.all fun i =>
    decide (l.getD i 0 ≤ 512) && (!o.goesBack i || decide (l.getD ((o.target i).getD 0).toNat 0 ≤ 511))

/-! Queue programs (R276). -/

/-- An instruction that a queue program may have. -/
def CodeObject.queueWord (o : CodeObject) (i : Nat) : Bool :=
  let op := o.op i
  o.inHeader i || (decide (0x01 ≤ op) && decide (op ≤ 0x0B)) || (decide (0x10 ≤ op) && decide (op ≤ 0x15)) || op == 0x1A ||
    (decide (0x20 ≤ op) && decide (op ≤ 0x29)) ||
    match o.instr i with
    | some (.j _) | some (.fence _ _ _) | some (.safe _ _) | some (.pfxExt _) | some (.tnow _) | some (.glaunch _ _)
    | some (.gabort _ _ _) => true
    | some (.exit _ t) => t == 0
    | _ => false

/-- The registers that an instruction of a queue program writes. -/
def CodeObject.writes (o : CodeObject) (i : Nat) : List Nat :=
  let op := o.op i
  let d := bits (o.word i) 21 5
  let pair : List Nat := [2 * d, 2 * d + 1]
  if (decide (0x01 ≤ op) && decide (op ≤ 0x09)) || op == 0x1A || (decide (0x20 ≤ op) && decide (op ≤ 0x24)) then [d]
  else if op = 0x0A ∨ op = 0x0B ∨ op = 0x25 then pair
  else match o.instr i with
    | some (.tnow _) => pair
    | some (.glaunch _ _) | some (.gabort _ _ _) => [d]
    | _ => []

/-- A word sets a loop's counter: `addi` from x0 with an immediate of 1 to 4,096. -/
def CodeObject.setsCounter (o : CodeObject) (r i : Nat) : Bool :=
  let imm : Int := match o.ext i with
    | some p => (p * 2 ^ 16 + bits (o.word i) 0 16 : Nat)
    | none => signed (o.word i) 16
  r != 0 && o.op i == 0x02 && bits (o.word i) 21 5 == r && bits (o.word i) 16 5 == 0 && decide (1 ≤ imm) && decide (imm ≤ 4096)

/-- Behind a word, the register was last written by such an `addi`, given whether it was so before the word. -/
def CodeObject.setAfter (o : CodeObject) (r i : Nat) (before : Bool) : Bool :=
  o.setsCounter r i || (before && !(o.writes i).contains r)

/-- Control can go from a word to another. -/
def CodeObject.leads (o : CodeObject) (i j : Nat) : Bool := (o.goesOn i && i + 1 == j) || o.target i == some (j : Int)

/-- One pass over the words: each is reached with the counter set if every word that leads to it leaves it set. -/
def CodeObject.counterPass (o : CodeObject) (r : Nat) (l : List Bool) : List Bool :=
  o.indexes.foldl (fun l j =>
    l.set j (!o.handlers.contains j && o.indexes.all fun i => !o.leads i j || o.setAfter r i (l.getD i true))) l

/-- For every word, whether each way to it last wrote the counter by such an `addi`; a pass follows every chain of forward
branches, so one pass for each `dbnz`, and two more, find it. -/
def CodeObject.counterSet (o : CodeObject) (r : Nat) : List Bool :=
  (List.range ((o.indexes.filter fun i => o.op i == 0x1A).length + 2)).foldl (fun l _ => o.counterPass r l)
    (o.words.map fun _ => true)

/-- The loop of a `dbnz` with a target at or below it keeps its bound: every way into it sets the counter, and no other
instruction in it writes the counter. -/
def CodeObject.loopBounded (o : CodeObject) (j : Nat) : Bool :=
  let r := bits (o.word j) 21 5
  let set := o.counterSet r
  let inside (i : Nat) : Bool := decide ((o.target j).getD 0 ≤ (i : Int)) && decide (i ≤ j)
  r != 0 && o.indexes.all fun i =>
    if inside i then !o.handlers.contains i && (i == j || !(o.writes i).contains r)
    else o.setAfter r i (set.getD i true) || o.indexes.all fun k => !inside k || !o.leads i k

/-- The rules of R276. -/
def CodeObject.queueRules (o : CodeObject) : Bool :=
  o.indexes.all fun i => o.queueWord i && (!o.goesBack i || (o.op i == 0x1A && o.loopBounded i))

/-! The object as bytes (R362). -/

/-- The offset of the live-map table: directly after the code, 16-byte aligned. -/
def CodeObject.tableOff (o : CodeObject) : Nat := (4 * o.words.length + 15) / 16 * 16

/-- The bytes of the code section. -/
def CodeObject.code (o : CodeObject) : List Byte := o.words.flatMap fun w => leBytes 4 w.toNat

/-- The bytes of the live-map table. -/
def CodeObject.table (o : CodeObject) : List Byte := o.liveMap.flatMap fun e => leBytes 16 e.toNat

/-- The code section and its live-map table as they are placed, the address of the table in every entry header. -/
def CodeObject.image (o : CodeObject) : List Byte :=
  let at_ := o.base.toNat + o.tableOff
  let word (i : Nat) : Nat :=
    if o.handlers.contains (i + 4) then bits at_ 0 32 else if o.handlers.contains (i + 3) then bits at_ 32 32 else o.word i
  o.indexes.flatMap (fun i => leBytes 4 (word i)) ++ List.replicate (o.tableOff - 4 * o.words.length) 0 ++ o.table

/-- The bytes that are measured (R339, log entry 53). -/
def CodeObject.bytes (o : CodeObject) : List Byte := o.code ++ o.table ++ o.sections.flatMap (·.2)

/-- The object crosses a 4 GiB-aligned boundary (R346). -/
def CodeObject.straddles (o : CodeObject) : Bool :=
  let lo := o.base.toNat
  decide (0 < o.image.length) && decide (lo / 2 ^ 32 < (lo + o.image.length - 1) / 2 ^ 32)

/-- The load service accepts the object: it keeps R71 and R346, and, when front-end cores are to fetch it, R276. -/
def CodeObject.passes (o : CodeObject) : Bool :=
  o.safesStand && o.gustShort && !o.straddles && (coreType o.core != .frontEnd || o.queueRules)

end Sys2Proof
end

