-- ==== Sys2Proof/Machine/FrontEnd.lean ====
section
/-! DEFINITION. The front end: queues and their packets (R275 to R282), and the services of firmware (R114, R289 to R293). -/

namespace Sys2Proof.Machine

/-! Packets (R275, R277, R280). -/

/-- The virtual address of the packet at RIDX (R280). -/
def Queue.packet (k : Queue) : Nat := k.ring + 64 * (k.ridx.toNat % 2 ^ k.log2n)

/-- The packet at RIDX of a queue is written (R280): its LAP bit is that of the index. The read is an access of the queue's
owner, so its walk sets the A bit (R104). -/
def State.packetWritten (s : State) (q : Nat) : State × Bool :=
  let k := s.queueAt q
  match s.feRead k.asid (bits k.packet 56 8) (bits k.packet 0 56 + 63) 1 with
  | (s, some l) => (s, bit (leNat l) 7 == bit k.ridx.toNat k.log2n)
  | (s, none) => (s, false)

/-- A queue has an index left to run, and nothing keeps its packet from starting (R275, R296, R314). -/
def State.queueOpen (s : State) (q : Nat) : Bool :=
  let k := s.queueAt q
  k.st == .active && k.ridx != k.widx && !k.running && !sheds s.shed.level k.cls && !s.fatal

/-- The queues that are open, in the order in which they are taken: by class, and round-robin within a class (R275). -/
def State.queueLine (s : State) : List Nat :=
  let open_ := (s.queues.map (·.1)).filter s.queueOpen
  [1, 2, 3].flatMap fun cls =>
    let mine := open_.filter fun q => (s.queueAt q).cls == cls
    let after (q : Nat) : Bool := (FMap.find s.lastQueue cls).any fun l => decide (l < q)
    mine.filter after ++ mine.filter fun q => !after q

/-- The first queue of a line whose packet is written; the packets before it have been read (R275, R280). -/
def State.firstWritten (s : State) : List Nat → State × Option Nat
  | [] => (s, none)
  | q :: rest =>
    match s.packetWritten q with
    | (s, true) => (s, some q)
    | (s, false) => s.firstWritten rest

/-- The next ready queue (R275). -/
def State.nextQueue (s : State) : State × Option Nat := s.firstWritten s.queueLine

/-- A slot of a front-end core is free of firmware. -/
def State.feFree (s : State) (c n : Nat) : Bool := !s.dispatchBarred c && (s.core c).slotFree n

/-- The registers a packet's program starts with (R277). -/
def packetBank (c n q : Nat) (k : Queue) (entry : Dword) : Bank :=
  let words : List Nat := [k.packet, k.packet / 2 ^ 32, k.ridx.toNat, q, k.ctxpg, k.ctxpg / 2 ^ 32, 0, 0]
  startBank (infoWord false false false (unitIndex c) n 0)
    (BitVec.ofNat 32 (unitIndex c * 2 ^ 24 + 3 * 2 ^ 21 + k.cls * 2 ^ 16)) (words.map (BitVec.ofNat 32)) 0 entry

/-- A slot takes the next ready queue's packet (R275, R277). -/
def State.startPacket (s : State) (c n : Nat) : State :=
  if !s.feFree c n then s
  else
    match s.nextQueue with
    | (s, none) => s
    | (s, some q) =>
      let k := s.queueAt q
      match FMap.find s.programs k.prog.toNat with
      | none => s
      | some p =>
        let a : Activation :=
          { kind := .queueProgram q, budget := k.budget, entry := p.entry, asid := k.asid, ctx := s.contextId false k.asid,
            headerDone := false }
        let s := s.begin c n (packetBank c n q k p.entry) a 0 0 0 0 false false false
        let s := { s with lastQueue := FMap.put s.lastQueue k.cls q }
        s.modQueue q fun k => { k with running := true }

/-- QUEUE_PACKET_START (R277). -/
def execQueuePacketStart (core slot : Nat) (s : State) : Out :=
  event (isCore core && coreType core == .frontEnd && decide (slot < 4)) (fun s => s.startPacket core slot) s

/-- DOORBELL_WRITE (R281). -/
def execDoorbellWrite (q : Nat) (v : BitVec 64) (s : State) : Out :=
  event (decide (q < 1024)) (fun s => s.doorbell q v.toNat) s

/-- The shadow word of a queue's descriptor, read as its owner (R278, R282). -/
def State.shadowWord (s : State) (asid : BitVec 16) (a : Nat) : State × Option Nat :=
  let r := s.feRead asid (bits a 56 8) (bits a 0 56) 8
  (r.1, r.2.map leNat)

/-- One queue is reconciled: its shadow word acts as a doorbell (R282). -/
def State.reconcile (s : State) (q : Nat) : State :=
  let k := s.queueAt q
  if k.st ≠ .active then s
  else
    match s.shadowWord k.asid k.shadow with
    | (s, none) => s
    | (s, some v) =>
      let s := s.doorbell q v
      if (s.queueAt q).lastseq = k.lastseq then s
      else s.modQueue q fun k => { k with recov := BitVec.ofNat 16 (min (k.recov.toNat + 1) 0xFFFF) }

/-- RECONCILE_PASS (R282). -/
def execReconcilePass (s : State) : Out :=
  event true (fun s => (s.queues.map (·.1)).foldl State.reconcile s) s

/-! Contexts and shoot-downs (R114, R291, R292). -/

/-- A root breaks R291. -/
def rootBad (r : Nat) : Bool := bits r 0 12 != 0 || (r != 0 && !isBacked r)

/-- Service 0x02 (R291, R292). -/
def State.installContext (s : State) (r : ServiceReq) : State :=
  match s.readDesc r with
  | (s, none) => s.refuse r 5
  | (s, some d) =>
    let asid := field d 0 2
    let remove := bit (field d 2 1) 0
    if bits (field d 2 1) 1 7 ≠ 0 ∨ field d 3 5 ≠ 0 ∨ field d 32 32 ≠ 0 ∨ asid = 0 then s.refuse r 3
    else if s.anyLive (BitVec.ofNat 16 asid) then s.refuse r 4
    else if remove then
      { s with contexts := s.contexts.map fun e => if e.1 = asid then (e.1, { e.2 with live := false }) else e }
    else if rootBad (field d 8 8) || rootBad (field d 16 8) || rootBad (field d 24 8) then s.refuse r 3
    else
      let gen := (FMap.get s.gens asid 0 + 1) % 2 ^ 16
      let c : Context := { generic := field d 8 8, host := field d 16 8, peer := field d 24 8, gen := gen }
      { s with
        gens := FMap.put s.gens asid gen
        contexts := FMap.put s.contexts asid c
        boot := { s.boot with installed := true } }

/-- SERVICE_INSTALL_CONTEXT (R291). -/
def execServiceInstallContext (r : ServiceReq) (s : State) : Out :=
  event true (serviceEvent 0x02 r true fun s => s.installContext r) s

/-- An entry maps one of the pages of a shoot-down (R114). -/
def shotPages (root : Nat) (asid : BitVec 16) (va pages : Nat) (t : TlbEntry) : Bool :=
  let n := 12 + 9 * t.level
  let lo := t.page * 2 ^ n
  let from_ := va / 4096 * 4096
  t.root == root && (t.asid == asid || bit t.leaf.toNat 4) && decide (lo < from_ + 4096 * pages) && decide (from_ < lo + 2 ^ n)

/-- Every TLB of the die drops some entries, once the stores that any slot has buffered have performed (R114). -/
def State.shootTlbs (s : State) (p : TlbEntry → Bool) : State :=
  let s := s.cores.foldl (fun s e => (List.range 4).foldl (fun s n => s.drainStores e.1 n) s) s
  { s with cores := s.cores.map fun e => (e.1, { e.2 with tlb := e.2.tlb.filter fun t => !p t }) }

/-- Service 0x10 (R114). -/
def State.shootDown (s : State) (r : ServiceReq) : State :=
  let a := reqDword r 0
  let pages := reqWord r 2
  let asid := BitVec.ofNat 16 (reqWord r 3)
  if pages ≠ 0 ∧ !isTranslated (bits a 56 8) then s.refuse r 9
  else
    let s := s.shootTlbs (if pages = 0 then dropsAsid asid else shotPages (pathRoot (bits a 56 8)) asid (bits a 0 48) pages)
    { s with shootdowns := s.shootdowns ++ [{ asid := asid, tile := bits (reqWord r 4) 8 8, ctr := bits (reqWord r 4) 0 6 }] }

/-- SERVICE_SHOOTDOWN (R114). -/
def execServiceShootdown (r : ServiceReq) (s : State) : Out :=
  event true (serviceEvent 0x10 r true fun s => s.shootDown r) s

/-- SHOOTDOWN_COMPLETE (R114): the oldest shoot-down is complete and its counter receives 1. -/
def execShootdownComplete (s : State) : Out :=
  event true (fun s =>
    match s.shootdowns with
    | [] => s
    | d :: rest => ({ s with shootdowns := rest } : State).addFrontEnd d.tile d.ctr) s

/-! Queues (R278, R289). -/

/-- A path byte that a queue's addresses may have. -/
def queuePath (a : Nat) : Bool := (bits a 56 8 == 0x00 || bits a 56 8 == 0x08) && bits a 48 8 == 0

/-- The reason that a queue descriptor is refused for, 0 when it is accepted (R278, R515). -/
def State.queueReason (s : State) (r : ServiceReq) (d : List Byte) : Nat :=
  let q := reqWord r 2
  let ring := field d 0 8
  let asid := BitVec.ofNat 16 (field d 12 2)
  if 1024 ≤ q ∨ field d 8 1 < 4 ∨ 16 < field d 8 1 ∨ field d 9 1 = 0 ∨ 3 < field d 9 1 ∨ 4096 < field d 10 2 ∨ field d 14 2 ≠ 0 ∨
      field d 36 28 ≠ 0 ∨ !queuePath ring ∨ bits (field d 16 8) 48 16 ≠ 0 ∨ !queuePath (field d 24 8) then 3
  else if !reqFree r && asid != r.asid then 2
  else if (s.queueAt q).st ≠ .free then 4
  else if ring % (64 * 2 ^ field d 8 1) ≠ 0 ∨ field d 16 8 % 4096 ≠ 0 ∨ field d 24 8 % 8 ≠ 0 then 5
  else if !((FMap.find s.contexts asid.toNat).any (·.live)) then 6
  else
    match FMap.find s.programs (field d 32 4) with
    | some p => if p.queueProgram then 0 else 6
    | none => 6

/-- Service 0x30 (R278, R279). -/
def State.createQueue (s : State) (r : ServiceReq) : State :=
  match s.readDesc r with
  | (s, none) => s.refuse r 5
  | (s, some d) =>
    let why := s.queueReason r d
    if why ≠ 0 then s.refuse r why
    else
      let asid := BitVec.ofNat 16 (field d 12 2)
      match s.shadowWord asid (field d 24 8) with
      | (s, none) => s.refuse r 5
      | (s, some v) =>
        let idx := BitVec.ofNat 32 (bits v 0 32)
        let k : Queue :=
          { st := .active, ring := field d 0 8, log2n := field d 8 1, cls := field d 9 1,
            budget := if field d 10 2 = 0 then 256 else field d 10 2, asid := asid, ctxpg := field d 16 8, shadow := field d 24 8,
            prog := BitVec.ofNat 32 (field d 32 4), lastseq := BitVec.ofNat 32 (bits v 32 32), widx := idx, ridx := idx }
        { s with queues := FMap.put s.queues (reqWord r 2) k }

/-- SERVICE_CREATE_QUEUE (R278). -/
def execServiceCreateQueue (r : ServiceReq) (s : State) : Out :=
  event true (serviceEvent 0x30 r false fun s => s.createQueue r) s

/-- The launches of a queue that wait at the placement unit's port or still reserve are rolled back (R289). -/
def State.rollBackQueue (s : State) (q : Nat) : State :=
  let mine := s.gangPort.filter fun g => g.queue == some q
  let s := { s with gangPort := s.gangPort.filter fun g => g.queue != some q }
  let s := mine.foldl (fun s g => s.rejectGang (field g.desc 8 4) g.asid 6) s
  (s.gangs.filter fun g => g.queue == some q && (g.st == .pending || g.st == .reserving)).foldl
    (fun s g => s.rollBack g.no) s

/-- Service 0x31 (R289). -/
def State.destroyQueue (s : State) (r : ServiceReq) : State :=
  let q := bits (reqWord r 0) 0 10
  let k := s.queueAt q
  let abort := bit (reqWord r 0) 16
  if !reqFree r && k.asid != r.asid then s.refuse r 2
  else
    let s := s.modQueue q fun k => { k with
      st := .draining, destroy := k.destroy ++ [(bits (reqWord r 1) 8 8, bits (reqWord r 1) 0 6)]
      destroyAbort := k.destroyAbort || abort }
    let s := s.rollBackQueue q
    if abort then (s.gangs.filter fun g => g.queue == some q && g.st == .live).foldl (fun s g => s.abortGang g.no) s else s

/-- SERVICE_DESTROY_QUEUE (R289). -/
def execServiceDestroyQueue (r : ServiceReq) (s : State) : Out :=
  event true (serviceEvent 0x31 r false fun s => s.destroyQueue r) s

/-- A queue's destruction can complete: no program of it runs and no launch of it is live or reserving (R289). -/
def State.destroyDue (s : State) (q : Nat) : Bool :=
  let k := s.queueAt q
  k.st == .draining && !k.destroy.isEmpty && !k.running &&
    (s.gangPort.all fun g => g.queue != some q) && (s.gangs.all fun g => g.queue != some q || g.st != .live)

/-- QUEUE_DESTROY_COMPLETE (R289): launches that the last packet submitted and that still reserve are rolled back, the queue
is FREE and the named counters receive 1. -/
def execQueueDestroyComplete (q : Nat) (s : State) : Out :=
  event (decide (q < 1024)) (fun s =>
    if !s.destroyDue q then s
    else
      let s := s.rollBackQueue q
      let named := (s.queueAt q).destroy
      let s := s.modQueue q fun k => { k with st := .free, destroy := [], destroyAbort := false }
      named.foldl (fun s e => s.addFrontEnd e.1 e.2) s) s

/-! Code, pages and frames (R276, R290, R293, R339). -/

/-- The cores whose SRAM takes an object: all eight of the front end, since any of them may take a queue's packet, else the
one that it names. -/
def loadCores (c : Nat) : List Nat :=
  if coreType c = .frontEnd then (List.range 8).map (352 + ·) else [c]

/-- Some bytes of an object are placed where its core type finds them: at a path 0x00 address of the sender's, or at an offset
of the core's own SRAM (R68, R362). It tells whether they could be. -/
def State.placeBytes (s : State) (r : ServiceReq) (c : Nat) (kind : AccessKind) (a : Nat) (bs : List Byte) : State × Bool :=
  if coreType c = .reasoning then
    if bits a 48 16 ≠ 0 then (s, false)
    else
      match s.feLocs r.asid 0 a kind bs.length with
      | (s, none) => (s, false)
      | (s, some l) => (s.storeCells (l.zip bs), true)
  else
    let off := bits a 0 56
    if bits a 56 8 ≠ 0x10 ∨ s.ringLimit c < off + bs.length then (s, false)
    else ((loadCores c).foldl (fun s c => s.store (sramLoc c off) bs) s, true)

/-- The sections of an object are placed, one after the other, as long as each can be. -/
def State.placeSections (s : State) (r : ServiceReq) (c : Nat) : List (Dword × List Byte) → State × Bool
  | [] => (s, true)
  | (a, bs) :: rest =>
    match s.placeBytes r c .load a.toNat bs with
    | (s, false) => (s, false)
    | (s, true) => s.placeSections r c rest

/-- A code object is placed: its code and its live-map table, and its other sections (R362). -/
def State.placeCode (s : State) (r : ServiceReq) (o : CodeObject) : State × Bool :=
  if o.base.toNat % 16 ≠ 0 then (s, false)
  else
    match s.placeBytes r o.core .fetch o.base.toNat o.image with
    | (s, false) => (s, false)
    | (s, true) => s.placeSections r o.core o.sections

/-- The pc of a code object's first handler on a core type: a path 0x00 address on a reasoning tile, and elsewhere an offset in the
core's own SRAM, with no path byte (R84). -/
def codeEntry (t : CoreType) (o : CodeObject) : Dword :=
  let a := o.base.toNat + 4 * o.handlers.headD 0
  BitVec.ofNat 64 (if t = .reasoning then a else bits a 0 56)

/-- Service 0x32: an object that is verified is placed, measured and registered, and the sender has its handle
(R290, R339, R362; log entry 53). -/
def State.loadCode (s : State) (r : ServiceReq) (o : CodeObject) : State :=
  if !o.passes then s.refuse r 7
  else
    match s.placeCode r o with
    | (s, false) => s.refuse r 5
    | (s, true) =>
      let p : Program :=
        { entry := codeEntry (coreType o.core) o, asid := r.asid, queueProgram := coreType o.core == .frontEnd }
      let s := { s with programs := FMap.put s.programs o.handle.toNat p, handles := s.handles ++ [(r, o.handle)] }
      s.measure (sha256 o.bytes) 1 r.asid.toNat o.handle.toNat

/-- SERVICE_LOAD_CODE_OBJECT (R290): firmware gives an object a handle that no other has. -/
def execServiceLoadCodeObject (r : ServiceReq) (o : CodeObject) (s : State) : Out :=
  event (isCore o.core) (fun s =>
    if (FMap.find s.programs o.handle.toNat).isSome then s else serviceEvent 0x32 r false (fun s => s.loadCode r o) s) s

/-- Copy `n` bytes of storage, their poison with them, over what stands at the destination. -/
def State.copySpan (s : State) (src dst n : Nat) : State :=
  let inSrc (a : Nat) : Bool := decide (src ≤ a) && decide (a < src + n)
  let inDst (a : Nat) : Bool := decide (dst ≤ a) && decide (a < dst + n)
  let cells := (s.mem.filter fun e => inSrc e.1).map fun e => (e.1 - src + dst, e.2)
  let marks := (s.poison.filter inSrc).map fun a => a - src + dst
  let s := { s with mem := memCells (s.mem.filter fun e => !inDst e.1) cells,
                    poison := (marks ++ s.poison.filter fun a => !inDst a).eraseDups }
  s.loseResvs dst (dst + n)

/-- The physical address of the frame that firmware takes for a page of a level in a domain (R97, R293, log entry 6). -/
def State.newFrame (s : State) (d level : Nat) : Nat :=
  let n := 9 * level
  2 ^ 37 + d * 2 ^ 33 + (Config.freeFrame d s.frameSeq).toNat / 2 ^ n * 2 ^ n * 4096

/-- What the driver names when it asks for an auto page (R99). -/
inductive PageFor where
  | nothing
  | tile (t : Nat)
  | gang (name : Nat) (asid : BitVec 16)
  deriving DecidableEq, Repr

/-- How many members of a gang stand in a domain. -/
def Gang.inDomain (g : Gang) (d : Nat) : Nat := (g.members.filter fun e => domainOf e.2.tile == d).length

/-- The domain that the placement unit chooses for an auto page, none for an interleaved one (R99): that of the tile named, or
the one with the most members of the gang named, then with the most free frames, then the lowest (log entry 82). -/
def State.autoDomain (s : State) : PageFor → Option Nat
  | .nothing => none
  | .tile t => some (domainOf t)
  | .gang name asid =>
    (s.liveGang name asid).map fun g =>
      (List.range 16).foldl (fun best d =>
        if g.inDomain best < g.inDomain d ∨ (g.inDomain best = g.inDomain d ∧
            Config.freeFrames best s.frameSeq < Config.freeFrames d s.frameSeq) then d else best) 0

/-- Service 0x33: an auto page moves to a frame of another domain (R293). -/
def State.migratePage (s : State) (r : ServiceReq) : State :=
  let a := reqDword r 0
  let asid := BitVec.ofNat 16 (reqWord r 2)
  let d := bits (reqWord r 2) 16 4
  if bits a 48 16 ≠ 0 ∨ bits (reqWord r 2) 20 12 ≠ 0 then s.refuse r 3
  else
    match s.walkTable asid 0 a with
    | .fault _ _ => s.refuse r 5
    | .leaf level loc e =>
      if bits e 9 2 ≠ 2 then s.refuse r 3
      else
        let size := 2 ^ (12 + 9 * level)
        let old := bits e 12 36 * 4096
        let new := s.newFrame d level
        let e2 := setBits (setBits e 12 36 (new / 4096)) 48 4 d
        let s := (s.shootTlbs (shotPages 0 asid a 1)).copySpan (dramLoc old) (dramLoc new) size
        { s.storeNat loc 8 e2 with frameSeq := s.frameSeq + 1 }

/-- SERVICE_MIGRATE_PAGE (R293). -/
def execServiceMigratePage (r : ServiceReq) (s : State) : Out :=
  event true (serviceEvent 0x33 r true fun s => s.migratePage r) s

/-- Service 0x34: a run of frames has an owner from now on (R268, R290). -/
def State.setFrameOwner (s : State) (r : ServiceReq) : State :=
  { s with frames := (reqDword r 0 / 4096, reqWord r 2, BitVec.ofNat 16 (reqWord r 3)) :: s.frames }

/-- SERVICE_SET_FRAME_OWNER (R290). -/
def execServiceSetFrameOwner (r : ServiceReq) (s : State) : Out :=
  event true (serviceEvent 0x34 r true fun s => s.setFrameOwner r) s

/-- The services that there are (R290). -/
def knownService (n : Nat) : Bool := [0x02, 0x10, 0x20, 0x30, 0x31, 0x32, 0x33, 0x34].contains n

/-- Those that ask for supervisor mode (R290). -/
def supService (n : Nat) : Bool := [0x02, 0x10, 0x33, 0x34].contains n

/-- SERVICE_UNKNOWN (R290): a request that no service answers, or that its sender may not make, is discarded with a
record. -/
def execServiceUnknown (r : ServiceReq) (s : State) : Out :=
  event true (fun s =>
    if knownService r.number && !(supService r.number && !reqFree r) then s
    else
      match s.takeService r with
      | none => s
      | some s => s.refuse r (if knownService r.number then 2 else 1)) s

/-- Firmware serves a request that waits; a request to load waits for the event that brings its code object. -/
def State.serve (s : State) (r : ServiceReq) : State :=
  if r.number = 0x32 then s
  else
    match s.takeService r with
    | none => s
    | some s =>
      if !knownService r.number then s.refuse r 1
      else if supService r.number && !reqFree r then s.refuse r 2
      else if r.number = 0x02 then s.installContext r
      else if r.number = 0x10 then s.shootDown r
      else if r.number = 0x20 then s.stepService r
      else if r.number = 0x30 then s.createQueue r
      else if r.number = 0x31 then s.destroyQueue r
      else if r.number = 0x33 then s.migratePage r
      else s.setFrameOwner r

end Sys2Proof.Machine
end

