-- ==== Sys2Proof/Machine/Gust.lean ====
section
/-! DEFINITION. Gust: the instructions, the end of a seizure, the start of Gust code and the relocation of suspended members
(R212 to R219, R404). -/

namespace Sys2Proof.Machine

/-- The trap value of the first check of R213 that a profile operand fails, 0 when it passes. -/
def State.gustRefuses (s : State) (v : Nat) : Nat :=
  let p := bits v 0 4
  if bits v 4 28 ≠ 0 then 1
  else if !(s.gustAt p).valid then 2
  else if !s.isHolder s.issuer p then 3
  else 0

/-- Replace a profile. -/
def State.setGust (s : State) (p : Nat) (g : GustProfile) : State := { s with gusts := FMap.put s.gusts p g }

/-- A seizure begins: every tile of the set is pending, and its slots stop at the points of R70 (R214, R215). -/
def State.seize (s : State) (p : Nat) (payload : List Word) : State :=
  let g := s.gustAt p
  let s := s.setGust p { g with held := true, expired := false, accepted := s.clock.now, payload := payload, started := [] }
  g.tiles.foldl (fun s t =>
    if (s.core t).gust.isSome then s else (s.modCore t fun k => { k with gust := some p }).askStop t) s

/-- A tile is given back: the tenant of one whose Gust code has not started or has ended comes back at once, and running
Gust code stops at the next point that allows it (R218). -/
def State.giveBack (s : State) (p t : Nat) : State :=
  let k := s.core t
  if k.gust ≠ some p then s
  else if !k.gustOn || k.cx.threads.all (fun e => e.2.act.isNone) then s.returnTenant t
  else s.askStop t

/-- A held seizure ends (R218). -/
def State.releaseGust (s : State) (p : Nat) : State :=
  let g := s.gustAt p
  let s := s.setGust p { g with held := false }
  g.tiles.foldl (fun s t => s.giveBack p t) s

/-- `gust` (R214, R404); an accepted one is a release of the holder's earlier accesses. -/
def execGust (d : Reg) (a : Reg) (s : State) : Out :=
  issue (.gust d a) (fun s =>
    let p := bits (s.x a).toNat 0 4
    let code := s.gustRefuses (s.x a).toNat
    if code ≠ 0 then .trap causeGust (BitVec.ofNat 64 code) s
    else if (s.gustAt p).held then s.retX d 0
    else (s.drain.seize p s.th.build).retX d 1) s

/-- `gustrel` (R214, R404). -/
def execGustrel (a : Reg) (s : State) : Out :=
  issue (.gustrel a) (fun s =>
    let p := bits (s.x a).toNat 0 4
    let code := s.gustRefuses (s.x a).toNat
    if code ≠ 0 then .trap causeGust (BitVec.ofNat 64 code) s
    else .retire (if (s.gustAt p).held then s.releaseGust p else s)) s

/-- The state word of a profile (R214). -/
def GustProfile.stateWord (g : GustProfile) : Nat :=
  let r := g.reg.toNat
  flagBit g.valid 31 + flagBit g.held 30 + flagBit g.expired 29 + flagBit (bit r 126) 28 + g.started.length * 2 ^ 16
    + bits r 119 7

/-- The state word of the pool (R214). -/
def State.poolWord (s : State) : Nat :=
  let pool := tileList s.gustPool
  let held := pool.filter fun t => s.gusts.any fun e => e.2.held && e.2.tiles.contains t
  held.length * 2 ^ 16 + pool.length

/-- `gustq` (R214, R404). -/
def execGustq (d : Reg) (a : Reg) (s : State) : Out :=
  issue (.gustq d a) (fun s =>
    let v := (s.x a).toNat
    if bits v 5 27 ≠ 0 then .trap causeGust 1 s
    else s.retX d (BitVec.ofNat 32 (if bit v 4 then s.poolWord else (s.gustAt (bits v 0 4)).stateWord))) s

/-! Events. -/

/-- The Gust code of a seized tile can start: its slots have stopped and its context can go to its area (R215). -/
def State.gustDue (s : State) (c : Nat) : Option Nat :=
  let k := s.core c
  match k.gust with
  | some p => if !k.gustOn && k.quiet && (s.gustAt p).held then some p else none
  | none => none

/-- GUST_CODE_START (R215): the tenant's context goes to its area and the member's code starts on slot 0. -/
def execGustCodeStart (core : Nat) (s : State) : Out :=
  event (decide (core < 256)) (fun s =>
    match s.gustDue core with
    | some p => s.startGust core p ((s.gustAt p).tiles.idxOf core)
    | none => s) s

/-- A seizure has been held for HOLD µs (R212, R218). -/
def State.holdOver (s : State) (p : Nat) : Bool :=
  let g := s.gustAt p
  g.held && decide (g.accepted + 1000 * bits g.reg.toNat 64 24 ≤ s.clock.now)

/-- GUST_HOLD_EXPIRY (R218): the seizure ends, EXPIRED is set and a GUSTHOLD record names the holder's tile. -/
def execGustHoldExpiry (p : Nat) (s : State) : Out :=
  event (decide (p < 16)) (fun s =>
    if !s.holdOver p then s
    else
      let s := (s.releaseGust p)
      let g := s.gustAt p
      (s.setGust p { g with expired := true }).record 0x0B 2 (FMap.get s.parts 0 {}).asid.toNat (bits g.reg.toNat 110 5) 0 1
        [(20, 1, p)]) s

/-! Relocation (R219). -/

/-- A gang member of the tenant of a tile, suspended by the seizure for at least 200 µs. -/
def State.longSuspended (s : State) (t : Thread) : Bool :=
  (match t.run with | .suspended _ => true | _ => false) && (t.act.bind (·.gang)).isSome &&
    decide (t.blockedSince + 200000 ≤ s.clock.now)

/-- The live gangs with a running member on a tile. -/
def State.gangsOn (s : State) (c : Nat) : List Gang :=
  s.gangs.filter fun g => g.st == .live && g.members.any fun m => m.2.tile == c && m.2.st == .running

/-- A tile is free to take over a tenant: a tile of the tenant's running partition that nothing holds, whose slots are idle
and which has no work of its engines under way. -/
def State.tileFree (s : State) (asid : BitVec 16) (c : Nat) : Bool :=
  let k := s.core c
  (match s.partOf c with
    | some q => q.st == .running && q.asid == asid
    | none => false) &&
    !s.refusesMember c && k.saved.isNone && k.reserved.isEmpty &&
    (List.range 4).all (fun n => k.slotFree n) && k.cx.bounds.isEmpty && k.cx.mx.running.isNone && k.cx.mx.fills.isEmpty &&
    k.cx.mx.hands.isEmpty && k.cx.movers.all (fun m => m.2.st != .running) && k.cx.timers.isEmpty

/-- A gang's binding is in the table of a tile (R45). -/
def State.knowsGang (s : State) (g : Gang) (c : Nat) : Bool := ((s.core c).cx.bound g.etag.toNat).isSome

/-- The tile to which the tenant of a seized tile moves (R45, R219). -/
def State.relocTarget (s : State) (c : Nat) : Option Nat :=
  let k := s.core c
  let gs := s.gangsOn c
  match k.gust with
  | none => none
  | some p =>
    if !k.gustSaved || !bit (s.gustAt p).reg.toNat 126 || !(k.ctx.threads.any fun e => s.longSuspended e.2) then none
    else
      (List.range 256).find? fun d =>
        d != c && s.tileFree k.asid d &&
          gs.all fun g => (g.gust || !s.inPool d) && s.knowsGang g d &&
            shapeKept g (g.members.map fun e => if e.2.tile = c then d else e.2.tile)

/-- The tenant of a seized tile moves with its storage, its context and its queues, and resumes (R219). -/
def State.relocate (s : State) (c d : Nat) : State :=
  let f (t : Nat) : Nat := if t = c then d else t
  let s := s.finishSnaps [c]
  let k := s.core c
  let s := spillPages.foldl (fun s o => s.copyPage (sramLoc c o) (sramLoc d o)) s
  let s := s.modCore d fun q => { q with
    saved := k.saved, l1cfg := k.l1cfg, overMax := k.overMax, serial := if q.serial < k.serial then k.serial else q.serial, pending := k.pending ++ q.pending,
    overflow := k.overflow ++ q.overflow, hold := k.hold ++ q.hold, succQ := k.succQ.filter (!·.isGust) ++ q.succQ }
  let s := s.modCore c fun k => { k with saved := none, gustSaved := false, pending := [], overflow := [], hold := [], succQ := k.succQ.filter (·.isGust) }
  let s := (s.moveGangs k.asid f).moveFlight f
  let s := s.moveClaims c d k.ctx
  let s := ((s.loadTile d).syncRing d).goOnAll d false
  (s.core d).cx.bounds.foldl (fun s b => s.linkEnds d b) s

/-- GUST_RELOCATION (R219). -/
def execGustRelocation (core : Nat) (s : State) : Out :=
  event (decide (core < 256)) (fun s =>
    match s.relocTarget core with
    | some d => s.relocate core d
    | none => s) s

end Sys2Proof.Machine
end

