-- ==== Sys2Proof/Machine/Health.lean ====
section
/-! DEFINITION. Shedding (R296), errors of storage and fatal errors (R312 to R314), the error queue and MSI-X windows
(R317, R335), and the commands of partitions (R304 to R309). -/

namespace Sys2Proof.Machine

/-! Shedding (R296). -/

/-- The matrix clock of a level in MHz (R296). -/
def mclkOf (level : Nat) : Nat := if 4 ≤ level then 400 else if level = 3 then 600 else 800

/-- A gang is parked or goes on, as the level asks (R296). -/
def State.parkGang (s : State) (no : Nat) : State :=
  match s.gang no with
  | none => s
  | some g =>
    let want := g.st == .live && sheds s.shed.level g.cls
    if want = g.parked then s
    else
      let s := s.modGang no fun g => { g with parked := want }
      g.members.foldl (fun s e =>
        if want then s.stopPoint e.2.tile e.2.slot false
        else if (s.core e.2.tile).saved.isSome then s
        else s.goOn e.2.tile e.2.slot false) s

/-- The controller takes a level and its actions (R296, R340). -/
def State.setLevel (s : State) (level temp power : Nat) : State :=
  let up := decide (s.shed.level < level)
  let s := { s with shed := { s.shed with level := level, mclk := mclkOf level } }
  let s := (s.gangs.map (·.no)).foldl State.parkGang s
  if !up || level ≠ 5 then s
  else
    let s := if s.boot.busy then { s with boot := { s.boot with busy := false, attFail := true } } else s
    if s.spare.role = 1 then ({ s with spare := { s.spare with fatalSent := true } } : State).fence
    else s.feRecord 0x14 2 0 [(20, 1, temp), (21, 2, power)]

/-- A tick of the controller with the temperature in °C and the average power of the last millisecond in W (R296). -/
def State.thermalTick (s : State) (temp power : Nat) : State :=
  let k := s.shed
  let s := { s with shed := { k with temp := BitVec.ofNat 8 (min temp 255) } }
  if k.tlim.toNat < temp ∨ k.env.toNat < power then
    let s := { s with shed := { s.shed with below := 0 } }
    if k.level < 5 then s.setLevel (k.level + 1) temp power else s
  else if temp + 5 < k.tlim.toNat ∧ 100 * power < 95 * k.env.toNat then
    if 10 ≤ k.below + 1 then
      let s := { s with shed := { s.shed with below := 0 } }
      if 0 < k.level then s.setLevel (k.level - 1) temp power else s
    else { s with shed := { s.shed with below := k.below + 1 } }
  else { s with shed := { s.shed with below := 0 } }

/-- THERMAL_CONTROL_TICK (R296). -/
def execThermalControlTick (temp power : Nat) (s : State) : Out := event true (fun s => s.thermalTick temp power) s

/-! Errors (R312 to R314). -/

/-- The unit code of R315. -/
def unitKindCode : UnitKind → Nat
  | .reasoning => 0 | .reflex => 1 | .agent => 2 | .frontEnd => 3 | .timeUnit => 4 | .portA => 5 | .portB => 6 | .mailbox => 7

/-- The unit exists. -/
def errUnitOk (u : ErrUnit) : Bool :=
  match u.kind with
  | .reasoning => decide (u.index < 256)
  | .reflex => decide (u.index < 32)
  | .agent => decide (u.index < 64)
  | .frontEnd => decide (u.index < 8)
  | _ => u.index == 0

/-- The location of an error's address: SRAM of the unit, mailbox, or, for a slice whose address has no path byte 0x10, a
line of its DRAM (log entry 17); none where the unit holds no storage. -/
def errLoc (u : ErrUnit) (addr : Nat) : Option Nat :=
  match u.kind with
  | .reasoning => some (sramLoc u.index (addr % 2 ^ 21))
  | .reflex => some (sramLoc (256 + u.index) (addr % 2 ^ 24))
  | .agent => if bits addr 56 8 = 0x10 then some (sramLoc (288 + u.index) (addr % 2 ^ 17))
    else if isBacked addr then some (dramLoc addr) else none
  | .frontEnd => some (sramLoc (352 + u.index) (addr % 2 ^ 19))
  | .mailbox => some (mbLoc (addr % 2 ^ 25))
  | _ => none

/-- A record of an error at an address (R312, R313, R316). -/
def State.errorRecord (s : State) (kind sev : Nat) (u : ErrUnit) (fields : List RecordField) : State :=
  s.record kind sev 0 u.index 0 (unitKindCode u.kind) fields

/-- A correctable error is counted, and reported at most once a millisecond for each unit (R312). -/
def State.corrected (s : State) (u : ErrUnit) (addr : Nat) : State :=
  let q := s.errq
  let key := 1024 * unitKindCode u.kind + u.index
  let s := { s with errq := { q with cecnt := if q.cecnt = BitVec.allOnes 32 then q.cecnt else q.cecnt + 1 } }
  let quiet := (FMap.find q.ceSeen key).any fun t => decide (s.clock.now < t + 1000000)
  if quiet then s
  else
    let s := s.errorRecord 0x16 1 u [(24, 8, addr % 2 ^ 56)]
    { s with errq := { s.errq with ceSeen := FMap.put s.errq.ceSeen key s.clock.now } }

/-- CORRECTABLE_ERROR (R312). -/
def execCorrectableError (u : ErrUnit) (addr : Nat) (s : State) : Out :=
  event (errUnitOk u) (fun s => s.corrected u addr) s

/-- A fatal error halts every reasoning partition that runs, one whose RESUME is under way too (R314). -/
def State.fatalError (s : State) (u : ErrUnit) (addr : Nat) : State :=
  let s := s.errorRecord 0x18 3 u
    [(20, 1, (Config.fatalSource (unitKindCode u.kind) u.index).toNat), (24, 8, addr % 2 ^ 56)]
  let s := { s with fatal := true }
  let s : State := (s.parts.map (·.1)).foldl (fun (s : State) n =>
    let p := s.partAt n
    if n ≠ 0 ∧ (p.st = .running ∨ (p.st = .busy ∧ p.next = some .running)) then s.haltPart n else s) s
  if s.spare.role = 1 then ({ s with spare := { s.spare with fatalSent := true } } : State).fence else s

/-- FATAL_ERROR (R314). -/
def execFatalError (u : ErrUnit) (addr : Nat) (s : State) : Out := event (errUnitOk u) (fun s => s.fatalError u addr) s

/-- UNCORRECTABLE_ERROR (R313): the granule is poisoned and a record written; in front-end or time-unit SRAM the error is
fatal besides (R314). -/
def execUncorrectableError (u : ErrUnit) (addr : Nat) (s : State) : Out :=
  event (errUnitOk u) (fun s =>
    let s := match errLoc u addr with
      | some loc => s.poisonAt loc
      | none => s
    let s := s.errorRecord 0x17 2 u [(24, 8, addr % 2 ^ 56)]
    if u.kind = .frontEnd ∨ u.kind = .timeUnit then s.fatalError u addr else s) s

/-- ERRQ_WRITE (R317). -/
def execErrqWrite (v : BitVec 256) (s : State) : Out := event true (fun s => s.writeErrq v.toNat) s

/-- The window of a vector has ended. -/
def State.msixDue (s : State) (v : Nat) : Bool :=
  let w := FMap.get s.link.window v 0
  w != 0 && decide (w ≤ s.clock.cc)

/-- MSIX_WINDOW_EXPIRY (R335): a vector with an event owed is raised again, and a new window starts. -/
def execMsixWindowExpiry (vec : Nat) (s : State) : Out :=
  event (decide (vec < 32)) (fun s =>
    if !s.msixDue vec then s
    else
      let k := s.link
      let owed := FMap.get k.owed vec 0
      let s := { s with link := { k with window := FMap.del k.window vec, owed := FMap.del k.owed vec } }
      if owed = 0 then s else s.raiseMsi vec) s

/-! Partitions. -/

/-- PARTITION_ENTRY_WRITE (R304). -/
def execPartitionEntryWrite (n : Nat) (v : BitVec 512) (s : State) : Out :=
  event (decide (n < 16)) (fun s => s.writePart n v.toNat) s

/-- PARTITION_HALT (R306). -/
def execPartitionHalt (n : Nat) (s : State) : Out := event (decide (n < 16)) (fun s => s.partCmd n 1) s

/-- PARTITION_SAVE (R307). -/
def execPartitionSave (n : Nat) (s : State) : Out := event (decide (n < 16)) (fun s => s.partCmd n 2) s

/-- PARTITION_RESTORE (R305). -/
def execPartitionRestore (n : Nat) (s : State) : Out := event (decide (n < 16)) (fun s => s.partCmd n 3) s

/-- PARTITION_RESUME (R305). -/
def execPartitionResume (n : Nat) (s : State) : Out := event (decide (n < 16)) (fun s => s.partCmd n 4) s

/-- PARTITION_SPILL (R309). -/
def execPartitionSpill (n : Nat) (s : State) : Out := event (decide (n < 16)) (fun s => s.partCmd n 5) s

/-- PARTITION_FILL (R309). -/
def execPartitionFill (n : Nat) (s : State) : Out := event (decide (n < 16)) (fun s => s.partCmd n 6) s

/-- PARTITION_COMMAND_COMPLETE (R305). -/
def execPartitionCommandComplete (n : Nat) (s : State) : Out :=
  event (decide (n < 16)) (fun s => if s.partDue n then s.partDone n else s) s

end Sys2Proof.Machine
end

