-- ==== Sys2Proof/Machine/Movers.lean ====
section
/-! DEFINITION. Mover channels (R176 to R184, R430), streams (R185, R186, R447 to R449) and mesh channels (R187 to R189,
R386): the instructions, and what a channel does at each element. -/

namespace Sys2Proof.Machine

/-! Descriptors (R177). -/

/-- A register of a command's descriptor, as a number. -/
def MoverCmd.e (m : MoverCmd) (i : Nat) : Nat := (m.desc.getD i 0).toNat

/-- Count of a dimension. -/
def MoverCmd.count (m : MoverCmd) (d : Nat) : Nat := bits (m.e 2) (16 * d) 16
/-- Source stride of a dimension. -/
def MoverCmd.sstride (m : MoverCmd) (d : Nat) : Int := signed (bits (m.e (3 + d / 2)) (32 * (d % 2)) 32) 32
/-- Destination stride of a dimension. -/
def MoverCmd.dstride (m : MoverCmd) (d : Nat) : Int := signed (bits (m.e (5 + d / 2)) (32 * (d % 2)) 32) 32
/-- ELEM. -/
def MoverCmd.elem (m : MoverCmd) : Nat := bits (m.e 7) 32 13
/-- CONV. -/
def MoverCmd.conv (m : MoverCmd) : Nat := bits (m.e 7) 28 4
/-- RED. -/
def MoverCmd.redFmt (m : MoverCmd) : Nat := bits (m.e 7) 26 2
/-- CT. -/
def MoverCmd.ct (m : MoverCmd) : Nat := bits (m.e 7) 14 2
/-- CNT. -/
def MoverCmd.cnt (m : MoverCmd) : Nat := bits (m.e 7) 8 6
/-- MODE. -/
def MoverCmd.shape (m : MoverCmd) : Nat := bits (m.e 7) 0 3
/-- The register that holds the index list of MODE 1 or 2. -/
def MoverCmd.indexReg (m : MoverCmd) : Nat := if m.shape = 1 then m.e 4 else m.e 6
/-- IW. -/
def MoverCmd.iw (m : MoverCmd) : Nat := bits m.indexReg 32 2
/-- The elements of a command. -/
def MoverCmd.total (m : MoverCmd) : Nat := m.count 0 * m.count 1 * m.count 2 * m.count 3

/-- Source and destination format of a conversion (R177, R179). -/
def convFormats (c : Nat) : Option (FloatFmt × FloatFmt) :=
  match c with
  | 1 => some (.fp32, .bf16)
  | 2 => some (.bf16, .fp32)
  | 3 => some (.bf16, .e4m3)
  | 4 => some (.bf16, .e5m2)
  | 5 => some (.e4m3, .bf16)
  | 6 => some (.e5m2, .bf16)
  | _ => none

/-- The format of the adds of `mvred`. -/
def MoverCmd.addFmt (m : MoverCmd) : FloatFmt := if m.redFmt = 0 then .fp32 else .bf16

/-- Source lane width in bytes, 1 when lanes do not matter (R179). -/
def MoverCmd.srcLane (m : MoverCmd) : Nat :=
  if m.red then m.addFmt.width / 8
  else match convFormats m.conv with
    | some (a, _) => a.width / 8
    | none => 1

/-- Destination lane width in bytes (R179). -/
def MoverCmd.dstLane (m : MoverCmd) : Nat :=
  if m.red then m.addFmt.width / 8
  else match convFormats m.conv with
    | some (_, b) => b.width / 8
    | none => 1

/-- The destination bytes that source bytes come to (R179). -/
def MoverCmd.destBytes (m : MoverCmd) (n : Nat) : Nat := n / m.srcLane * m.dstLane

/-- The checks of R181 by code, 1 to 2; 0 when they pass. -/
def MoverCmd.bad (m : MoverCmd) : Nat :=
  let mode := m.shape
  if 2 < mode ∨ 6 < m.conv ∨ 1 < m.redFmt ∨ m.ct = 3 ∨ bits (m.e 7) 45 19 ≠ 0 ∨ bits (m.e 7) 16 10 ≠ 0 ∨ bits (m.e 7) 3 5 ≠ 0 ∨
      (mode ≠ 0 ∧ (m.iw = 3 ∨ bits m.indexReg 34 30 ≠ 0)) then 1
  else if m.count 0 = 0 ∨ m.count 1 = 0 ∨ m.count 2 = 0 ∨ m.count 3 = 0 ∨ m.elem = 0 ∨ 4096 < m.elem ∨
      (mode ≠ 0 ∧ (m.count 1 ≠ 1 ∨ m.count 2 ≠ 1 ∨ m.count 3 ≠ 1)) ∨ m.elem % m.srcLane ≠ 0 then 2
  else 0

/-- A command of a slice agent counts on a counter that its slot does not have (R261). -/
def State.noCounter (s : State) (m : MoverCmd) : Bool :=
  coreType s.cur == .agent && decide (16 ≤ m.cnt) && (m.ct == 0 || (m.ct == 1 && bits (m.e 1) 56 8 == 0x10))

/-- The paths that `mvred` adds on (R181). -/
def redPath (p : Nat) : Bool := p == 0x10 || p == 0x18

/-- The checks of R181 by code, in their order; 0 when they pass. -/
def MoverCmd.refuses (m : MoverCmd) : Nat :=
  let dp := bits (m.e 1) 56 8
  if m.bad ≠ 0 then m.bad
  else if (m.red && (m.conv != 0 || m.shape == 1 || !redPath dp)) || (m.ct == 1 && !(redPath dp || dp == 0x19)) then 6
  else 0

/-- The path checks of R181 on one base: the class, or 0. -/
def State.basePathClass (s : State) (a : Nat) (acc : Access) : Nat :=
  let p := bits a 56 8
  if s.pathCheck s.issuer p ≠ 0 then s.pathCheck s.issuer p
  else match acc with
    | .atomic _ => 0
    | _ => if s.dirClass p acc = causeDir then causeDir else 0

/-- The command a slot's descriptor for a channel gives (R177, R430). -/
def State.moverCmd (s : State) (chan : Nat) (red : Bool) : MoverCmd :=
  { desc := (List.range 8).map fun i => s.th.getE (16 + 8 * chan + i)
    red := red, mode := s.effMode, ocp := s.optSat == 2, issuer := s.issuer, ctx := s.act.ctx, serial := s.th.csr.ser }

/-! Channels. -/

/-- A channel of a context. -/
def TileCtx.mover (x : TileCtx) (c : Nat) : Mover := FMap.get x.movers c {}

/-- Replace a channel of a context. -/
def TileCtx.setMover (x : TileCtx) (c : Nat) (m : Mover) : TileCtx := { x with movers := FMap.put x.movers c m }

/-- Change the resident context of a core. -/
def State.modCx (s : State) (c : Nat) (f : TileCtx → TileCtx) : State := s.modCore c fun k => { k with cx := f k.cx }

/-- A binding is a stream of a channel: the channel, and whether it writes. -/
def Bound.stream (b : Bound) : Option (Nat × Bool) :=
  match b.kind with
  | .readStream c => some (c, false)
  | .writeStream c => some (c, true)
  | _ => none

/-- The binding of a channel's stream, one whose register is already free among them. -/
def TileCtx.streamOf (x : TileCtx) (c : Nat) : Option Bound := x.bounds.find? fun b => b.stream.any fun p => p.1 == c

/-- A channel is bound as a stream of a slot. -/
def TileCtx.isStream (x : TileCtx) (c : Nat) : Bool :=
  x.bounds.any fun b => decide (b.slot < 4) && b.stream.any fun p => p.1 == c

/-- Change the binding of a channel's stream. -/
def TileCtx.modStream (x : TileCtx) (c : Nat) (f : Bound → Bound) : TileCtx :=
  { x with bounds := x.bounds.map fun b => if b.stream.any fun p => p.1 == c then f b else b }

/-- Queue a command on a channel that has a place for it (R176). -/
def Mover.take (m : Mover) (cmd : MoverCmd) : Mover :=
  match m.st with
  | .running => { m with queued := some cmd }
  | .halted => { m with queued := some cmd }
  | _ => { m with st := .running, run := some cmd, queued := none, err := 0, killed := false, killing := false, done := 0 }

/-- The running command ends: the queued one starts (R176). -/
def Mover.finish (m : Mover) : Mover :=
  match m.queued with
  | some q => { m with st := .running, run := some q, queued := none, killing := false, done := 0, walk := none }
  | none => { m with st := .idle, run := none, killing := false, walk := none }

/-- The status word of a channel (R183). -/
def Mover.status (m : Mover) : Word :=
  let st := match m.st with | .idle => 0 | .running => 1 | .halted => 2 | .stopped => 3
  BitVec.ofNat 32 (st * 2 ^ 30 + (if m.queued.isSome then 2 ^ 29 else 0) + (if m.killed then 2 ^ 28 else 0)
    + m.err * 2 ^ 24 + min m.done 0xFFFFFF)

/-! The commands (R430). -/

/-- The channel operand's reserved bits are clear. -/
def chanOk (v : Word) : Bool := bits v.toNat 2 30 == 0

/-- `mvgo` and `mvred` (R181, R430); the thread's earlier stores perform before the command's accesses (R131, log entry 9). -/
def State.moverGo (s : State) (w : Word) (d a : Reg) (red : Bool) : Res :=
  let c := bits (s.x a).toNat 0 2
  let cmd := s.moverCmd c red
  let src := s.basePathClass (cmd.e 0) .load
  let dst := s.basePathClass (cmd.e 1) .store
  if !chanOk (s.x a) then .trap causeMover 1 s
  else if src ≠ 0 then s.accessTrap w src (BitVec.ofNat 64 (cmd.e 0))
  else if dst ≠ 0 then s.accessTrap w dst (BitVec.ofNat 64 (cmd.e 1))
  else if cmd.bad ≠ 1 ∧ s.noCounter cmd then .trap causeMover 1 s
  else if cmd.refuses ≠ 0 then .trap causeMover (BitVec.ofNat 64 cmd.refuses) s
  else
    let x := (s.core s.cur).cx
    let m := x.mover c
    if (m.run.isSome && m.queued.isSome) || x.isStream c then s.retX d 0
    else (s.drain.modCx s.cur fun x => x.setMover c (m.take cmd)).retX d 1

/-- `mvgo` (R430). -/
def execMvgo (d : Reg) (a : Reg) (s : State) : Out :=
  issue (.mvgo d a) (fun s => s.moverGo (encode (.mvgo d a)) d a false) s

/-- `mvred` (R430). -/
def execMvred (d : Reg) (a : Reg) (s : State) : Out :=
  issue (.mvred d a) (fun s => s.moverGo (encode (.mvred d a)) d a true) s

/-- `mvst` (R183, R430). -/
def execMvst (d : Reg) (a : Reg) (s : State) : Out :=
  issue (.mvst d a) (fun s =>
    if !chanOk (s.x a) then .trap causeMover 1 s
    else s.retX d ((s.core s.cur).cx.mover (bits (s.x a).toNat 0 2)).status) s

/-- A read stream whose channel stops: what it has fetched stands before its end-of-stream beat; a write stream takes no
more (R448). -/
def TileCtx.stopStream (x : TileCtx) (c : Nat) : TileCtx :=
  x.modStream c fun b =>
    match b.kind with
    | .readStream _ => Bound.settle { b with finished := true } 6
    | _ => { b with finished := true }

/-- A channel stops: its queued command is discarded, its stream ends, and the register of a stream that was already unbound
is free now (R183, R448). -/
def TileCtx.stopChannel (x : TileCtx) (c : Nat) (m : Mover) : TileCtx :=
  let x := (x.setMover c { m with st := .stopped, run := none, queued := none, killing := false, walk := none }).stopStream c
  { x with bounds := x.bounds.filter fun b => !(decide (4 ≤ b.slot) && b.stream.any fun p => p.1 == c) }

/-- Stop a channel for good after its current element (R183). -/
def TileCtx.kill (x : TileCtx) (c : Nat) : TileCtx :=
  let m := x.mover c
  match m.st with
  | .idle => x
  | .stopped => x
  | _ => x.stopChannel c { m with killed := true }

/-- `mvkill` (R183, R430). -/
def execMvkill (a : Reg) (s : State) : Out :=
  issue (.mvkill a) (fun s =>
    if !chanOk (s.x a) then .trap causeMover 1 s
    else .retire (s.modCx s.cur fun x => x.kill (bits (s.x a).toNat 0 2))) s

/-! Elements (R178, R179). -/

/-- What a channel's element comes to before it moves its bytes: an error code of R183, a wait, or a walk. -/
inductive ElemStop where
  | err (code : Nat)
  | wait
  | walk (w : Walk)
  deriving DecidableEq, Repr

/-- The error code of an element that faults (R183). -/
def elemErr (code : Nat) : Nat :=
  if code = causeAlign then 2 else if code = causeForeign then 3 else if code = causePoison then 4
  else if code = causePriv then 6 else 1

/-- An address and a displacement of the low 56 bits, none on a carry or borrow (R178). -/
def addrPlus (a : Nat) (d : Int) : Option Dword := offsetPair (BitVec.ofNat 64 a) d

/-- The location of one byte of an element in storage, or the walk that is missing. -/
def State.elemLoc (s : State) (i : Issuer) (a : Dword) (kind : AccessKind) (j : Nat) : Nat ⊕ Walk :=
  match (s.region i a j (j + 1)).2 with
  | .mem loc => .inl loc
  | .virt path va =>
    match s.translate i.core i.asid path va kind with
    | .hit loc => .inl loc
    | .miss w => .inr w
  | _ => .inl 0

/-- The locations of some bytes of an element in storage, byte by byte, or the first walk that is missing (R103): the lowest
address with no translation is the one a fault reports (R111; DEDUCED, log entry 76). -/
def State.bytesLocs (s : State) (i : Issuer) (a : Dword) (kind : AccessKind) : List Nat → List Nat ⊕ Walk
  | [] => .inl []
  | j :: r =>
    match s.elemLoc i a kind j with
    | .inr w => .inr w
    | .inl loc =>
      match s.bytesLocs i a kind r with
      | .inr w => .inr w
      | .inl l => .inl (loc :: l)

/-- The locations of the bytes of an element. -/
def State.elemLocs (s : State) (i : Issuer) (a : Dword) (kind : AccessKind) (n : Nat) : List Nat ⊕ Walk :=
  s.bytesLocs i a kind (List.range n)

/-- The TLB entries that serve an element become the most recently used, those of its pages in rising order (R107). -/
def State.touchElem (s : State) (i : Issuer) (a : Dword) (kind : AccessKind) (n : Nat) : State :=
  let p := pathByte a
  let v := bits a.toNat 0 56
  let pages := (v + n - 1) / 4096 - v / 4096
  if isTranslated p && decide (0 < n) then
    (List.range (pages + 1)).foldl (fun s j => s.touchTlb i.core i.asid p (max v ((v / 4096 + j) * 4096)) kind) s
  else s

/-- The place of an element's bytes, its checks passed (R83, R89, R181). `lane` is the width its address must be a multiple
of; a view asks for whole elements of its own. -/
def State.elemPlace (s : State) (i : Issuer) (a : Dword) (lane n : Nat) (acc : Access) : Place ⊕ ElemStop :=
  let p := pathByte a
  let view := decide (0x11 ≤ p) && decide (p ≤ 0x15)
  if isTranslated p ∧ 2 ^ 48 < bits a.toNat 0 56 + n then .inr (.err 1)
  else
    match s.reach i a (if view then max lane 2 else lane) 0 n acc with
    | .fault code _ => .inr (.err (elemErr code))
    | .wait => .inr .wait
    | .to q => if view ∧ n % 2 ≠ 0 then .inr (.err 2) else .inl q

/-- The bytes of an element's source (R178, R183). -/
def State.elemRead (s : State) (i : Issuer) (a : Dword) (lane n : Nat) : List Byte ⊕ ElemStop :=
  match s.elemPlace i a lane n .load with
  | .inr e => .inr e
  | .inl p =>
    let plain : List Byte ⊕ ElemStop :=
      match s.elemLocs i a .load n with
      | .inr w => .inr (.walk w)
      | .inl l =>
        if l.any fun b => (s.poisoned b (b + 1)).isSome then .inr (.err 4) else .inl (l.map (memByte s.mem))
    match p with
    | .mem _ => plain
    | .virt _ _ => plain
    | .egress _ _ => .inl (List.replicate n 0)
    | .slice k off => .inl (s.regBytes (.slice k) off n)
    | .device off => .inl (s.regBytes .device off n)
    | q =>
      match s.readPlace i a q (List.range n) with
      | .bytes l _ => .inl l
      | .poison _ => .inr (.err 4)
      | .wait => .inr .wait
      | .walk w => .inr (.walk w)

/-- Write an element's bytes at its destination, with the flags that a narrowing view raises (R91, R178, R184). -/
def State.elemWrite (s : State) (m : MoverCmd) (i : Issuer) (a : Dword) (bs : List Byte) : (State × FlagSet) ⊕ ElemStop :=
  match s.elemPlace i a m.dstLane bs.length .store with
  | .inr e => .inr e
  | .inl p =>
    let cells (base : Nat) : List (Nat × Byte) := ((List.range bs.length).map (base + ·)).zip bs
    let plain : (State × FlagSet) ⊕ ElemStop :=
      match s.elemLocs i a .store bs.length with
      | .inr w => .inr (.walk w)
      | .inl l => .inl (s.storeCells (l.zip bs), 0)
    match p with
    | .mem _ => plain
    | .virt _ _ => plain
    | .view v off =>
      let r := narrowCells (if v = .e4m3 then .e4m3 else .e5m2) m.mode m.ocp off (cells 0)
      .inl (s.storeCells (r.1.map fun e => (sramLoc i.core e.1, e.2)), r.2)
    | .mailbox _ _ => .inl (s, 0)
    | .egress q off =>
      if off ≠ 0 ∨ 2048 < m.elem ∨ 2048 < bs.length then .inr (.err 1) else .inl (s.commitFrame q bs.length bs, 0)
    | .slice k off => .inl (s.regStore (.slice k) off (cells off) false, 0)
    | .device off => .inl (s.regStore .device off (cells off) false, 0)

/-- Add an element's lanes at the owning tile's bank, one atomic per lane (R181). -/
def State.elemAdd (s : State) (m : MoverCmd) (i : Issuer) (a : Dword) (bs : List Byte) : (State × FlagSet) ⊕ ElemStop :=
  match s.elemPlace i a m.dstLane bs.length (.atomic 0) with
  | .inl (.mem loc) =>
    if (s.poisoned loc (loc + bs.length)).isSome then .inr (.err 4)
    else
      let w := m.dstLane
      .inl ((List.range (bs.length / w)).foldl (fun r j =>
        let v := leNat ((bs.drop (w * j)).take w)
        let q := sumNums m.mode [decodeFloat m.addFmt (r.1.readNat (loc + w * j) w), decodeFloat m.addFmt v]
        let f := roundFloat m.addFmt m.mode false q.1
        (r.1.storeNat (loc + w * j) w f.1, r.2 ||| q.2 ||| f.2)) (s, 0))
  | .inl _ => .inr (.err 1)
  | .inr e => .inr e

/-- Convert the lanes of an element (R179). -/
def MoverCmd.convert (m : MoverCmd) (bs : List Byte) : List Byte × FlagSet :=
  match convFormats m.conv with
  | none => (bs, 0)
  | some (f, g) =>
    let w := f.width / 8
    (List.range (bs.length / w)).foldl (fun r j =>
      let q := roundFloat g m.mode m.ocp (decodeFloat f (leNat ((bs.drop (w * j)).take w)))
      (r.1 ++ leBytes (g.width / 8) q.1, r.2 ||| q.2)) ([], 0)

/-- An entry of the index list of MODE 1 or 2 (R177, R178). -/
def State.elemIndex (s : State) (m : MoverCmd) (i : Issuer) (j : Nat) : Int ⊕ ElemStop :=
  let w := if m.iw = 0 then 2 else 4
  let a := bits m.indexReg 0 32 + w * j
  match s.elemRead i (BitVec.ofNat 64 (0x10 * 2 ^ 56 + a)) 1 w with
  | .inr e => .inr e
  | .inl l => .inl (if m.iw = 2 then signed (leNat l) 32 else (leNat l : Nat))

/-- A base and the displacement of an element by its dimensions (R178). -/
def MoverCmd.walkAddr (m : MoverCmd) (base : Nat) (stride : Nat → Int) (j : Nat) : Option Dword :=
  let c0 := m.count 0
  let c1 := m.count 1
  let c2 := m.count 2
  addrPlus base (stride 0 * (j % c0 : Nat) + stride 1 * (j / c0 % c1 : Nat) + stride 2 * (j / (c0 * c1) % c2 : Nat)
    + stride 3 * (j / (c0 * c1 * c2) : Nat))

/-- The address of an element's source or destination (R178). -/
def State.elemAddr (s : State) (m : MoverCmd) (i : Issuer) (j : Nat) (src : Bool) : Dword ⊕ ElemStop :=
  let base := if src then m.e 0 else m.e 1
  let listed : Bool := if src then m.shape = 1 else m.shape = 2
  let stride := if src then m.sstride else m.dstride
  if listed then
    match s.elemIndex m i j with
    | .inr e => .inr e
    | .inl x => match addrPlus base (x * stride 0) with | some a => .inl a | none => .inr (.err 1)
  else match m.walkAddr base stride j with | some a => .inl a | none => .inr (.err 1)

/-- One add of a run of destination bytes to the counter that a command's CT and CNT name (R182, R193, R261). -/
def State.countRun (s : State) (m : MoverCmd) (i : Issuer) (a : Dword) (n : Nat) : State :=
  let v := BitVec.ofNat 32 n
  let gust := i.gustProfile.isSome
  let own : State :=
    if coreType i.core = .agent ∧ (s.thread i.core i.slot).csr.ser ≠ m.serial then s
    else s.addOwnCounter i.core i.slot m.cnt gust v
  match m.ct with
  | 0 => own
  | 1 =>
    let p := pathByte a
    if p = 0x10 then own
    else if p = 0x18 then
      match s.remoteTarget i (bits a.toNat 0 56) with
      | .inl c => if isAway c then s else s.addTileCounter c m.cnt v
      | .inr _ => s
    else if p = 0x19 then
      match s.seizureOf i with
      | none => s
      | some g =>
        match (s.gustAt g).tiles[bits a.toNat 32 6]? with
        | none => s
        | some t => s.modCx t fun x => { x with ctr := FMap.set x.ctr m.cnt (FMap.get x.ctr m.cnt 0 + v) 0 }
    else s
  | _ => s

/-- The adds that count an element's destination bytes: at most 4 KiB each (R182). -/
def addRuns (n : Nat) : List Nat := List.replicate (n / 4096) 4096 ++ (if n % 4096 = 0 then [] else [n % 4096])

/-- Count an element's destination bytes once its last byte has performed (R182). -/
def State.countBytes (s : State) (m : MoverCmd) (i : Issuer) (a : Dword) (n : Nat) : State :=
  (addRuns n).foldl (fun s v => s.countRun m i a v) s

/-- Move the bytes of an element to its destination, count them and merge its flags (R151, R152, R178, R182). -/
def State.elemPut (s : State) (m : MoverCmd) (i : Issuer) (j : Nat) (bs : List Byte) : State ⊕ ElemStop :=
  match s.elemAddr m i j false with
  | .inr e => .inr e
  | .inl a =>
    let r := m.convert bs
    match (if m.red then s.elemAdd m i a bs else s.elemWrite m i a r.1) with
    | .inr e => .inr e
    | .inl (t, f) =>
      .inl (((t.touchElem i a .store r.1.length).countBytes m i a r.1.length).creditFlags i.core i.slot m.ctx i.asid false m.serial (r.2 ||| f))

/-- The bytes of an element's source. -/
def State.elemGet (s : State) (m : MoverCmd) (i : Issuer) (j : Nat) : List Byte ⊕ ElemStop :=
  match s.elemAddr m i j true with
  | .inr e => .inr e
  | .inl a => s.elemRead i a m.srcLane m.elem

/-- The source of an element has been read: its TLB entries become the most recently used (R107). -/
def State.touchSource (s : State) (m : MoverCmd) (i : Issuer) (j : Nat) : State :=
  match s.elemAddr m i j true with
  | .inl a => s.touchElem i a .load m.elem
  | .inr _ => s

/-- The error record of a channel (R183, R316). -/
def State.moverRecord (s : State) (m : MoverCmd) (i : Issuer) (chan err : Nat) : State :=
  s.record 0x06 2 i.asid.toNat (unitIndex i.core) i.slot (unitCode i.core)
    [(16, 4, m.serial.toNat), (20, 1, chan), (21, 1, err), (24, 4, m.idx)]

/-- A channel stops with an error code (R183). -/
def TileCtx.failMover (x : TileCtx) (chan err : Nat) : TileCtx := x.stopChannel chan { x.mover chan with err := err }

/-- An element faults: the channel stops and the error queue gets a record (R183). -/
def State.stopMover (s : State) (c chan err : Nat) (m : MoverCmd) (i : Issuer) : State :=
  (s.moverRecord m i chan err).modCx c fun x => x.failMover chan err

/-- An element's translation faults: the channel halts at it and the front end hears of it (R111, R316). -/
def State.haltMover (s : State) (c chan : Nat) (m : MoverCmd) (i : Issuer) (w : Walk) (k : XlatKind) (level : Nat) : State :=
  let s := s.record 0x02 0 i.asid.toNat (unitIndex i.core) i.slot (unitCode i.core)
    [(16, 4, m.serial.toNat), (24, 8, w.addr), (32, 1, w.path), (33, 1, (Config.accessCode (accessIndex w.kind)).toNat),
      (34, 1, (Config.xlatCode (xlatIndex k)).toNat), (35, 1, level)]
  s.modCx c fun x => x.setMover chan { x.mover chan with st := .halted, walk := some w }

/-- The walk that a channel's element waited for has ended: the element starts again, or the channel halts (R108, R111). -/
def State.chanWalked (s : State) (c chan : Nat) : State :=
  let v := (s.core c).cx.mover chan
  match v.run, v.walk with
  | some m, some w =>
    let i := { m.issuer with core := c }
    match s.performWalk c i.asid w with
    | (t, none) => t.modCx c fun x => x.setMover chan { x.mover chan with walk := none }
    | (t, some (k, level)) => t.haltMover c chan m i w k level
  | _, _ => s

/-- An element completes; `n` is the bytes it wrote to its destination (R178, R330). -/
def State.elemDone (s : State) (c chan n : Nat) (m : MoverCmd) : State :=
  (s.pm c 0x0D n).modCx c fun x =>
    let v := x.mover chan
    x.setMover chan { v with run := some { m with idx := m.idx + 1 }, done := v.done + 1 }

/-- A channel with no stream whose command has moved its last element goes on to the next (R176). -/
def State.moverNext (s : State) (c chan : Nat) : State :=
  s.modCx c fun x =>
    let v := x.mover chan
    match v.run with
    | some m => if m.total ≤ m.idx then x.setMover chan v.finish else x
    | none => x

/-- Take entries from a write stream's FIFO until an element's bytes are there (R185). -/
def Bound.gather (b : Bound) (n : Nat) : Nat → Bound
  | 0 => b
  | fuel + 1 =>
    if n ≤ b.part.length then b
    else
      match b.fifo with
      | some v :: r => Bound.gather { b with fifo := r, part := b.part ++ leBytes 32 v.toNat } n fuel
      | _ => b

/-- Everything an unbound write stream was given has moved: the channel goes on and the binding is gone (R449). -/
def State.streamDrained (s : State) (c chan : Nat) : State :=
  s.modCx c fun x =>
    let x := x.setMover chan (x.mover chan).finish
    { x with bounds := x.bounds.filter fun b => !(b.stream.any fun p => p.1 == chan) }

/-- An element's translation misses: its channel waits for the walk, and the element starts again behind it (R107, R108). -/
def State.awaitElem (s : State) (c chan : Nat) (i : Issuer) (w : Walk) : State :=
  (s.modCx c fun x => x.setMover chan { x.mover chan with walk := some w }).askWalk (w.request c i.asid)

/-- One element of a channel (R178, R185, R449). -/
def State.moverStep (s : State) (c chan : Nat) : State :=
  let x := (s.core c).cx
  let v := x.mover chan
  match v.st, v.run with
  | .running, some m =>
    let i := { m.issuer with core := c }
    let stop (s : State) (e : ElemStop) : State :=
      match e with
      | .err code => s.stopMover c chan code m i
      | .wait => s
      | .walk w => s.awaitElem c chan i w
    match x.streamOf chan with
    | none =>
      match s.elemGet m i m.idx with
      | .inr e => stop s e
      | .inl bs =>
        let s := s.touchSource m i m.idx
        match s.elemPut m i m.idx bs with
        | .inr e => stop s e
        | .inl t => (t.elemDone c chan (m.destBytes bs.length) m).moverNext c chan
    | some b =>
      match b.kind with
      | .readStream _ =>
        if b.finished || m.total ≤ m.idx || 4 ≤ b.fifo.length || 32 ≤ b.part.length then s
        else
          match s.elemGet m i m.idx with
          | .inr e => stop s e
          | .inl bs =>
            let r := m.convert bs
            let s := (s.touchSource m i m.idx).creditFlags c i.slot m.ctx i.asid false m.serial r.2
            (s.elemDone c chan 0 m).modCx c fun x => x.modStream chan fun b =>
              Bound.settle { b with part := b.part ++ r.1, finished := m.total ≤ m.idx + 1 } 6
      | _ =>
        let b := b.gather m.elem 129
        if m.total ≤ m.idx then (if v.killing then s.streamDrained c chan else s)
        else if m.elem ≤ b.part.length then
          match s.elemPut m i m.idx (b.part.take m.elem) with
          | .inr e => stop s e
          | .inl t =>
            (t.elemDone c chan (m.destBytes m.elem) m).modCx c fun x => x.modStream chan fun _ =>
              { b with part := b.part.drop m.elem, finished := b.finished || m.total ≤ m.idx + 1 }
        else if v.killing then
          let bs := b.part.take (b.part.length / m.srcLane * m.srcLane)
          if bs.isEmpty then s.streamDrained c chan
          else
            match s.elemPut m i m.idx bs with
            | .inr e => stop s e
            | .inl t => (t.pm c 0x0D (m.destBytes bs.length)).streamDrained c chan
        else s.modCx c fun x => x.modStream chan fun _ => b
  | _, _ => s

/-- The engines of a core run: no HALT and no seizure pauses them (R215, R306). -/
def Core.enginesRun (k : Core) : Bool := !k.halting && (k.gust.isNone || k.gustOn)

/-- A channel could do an element now. -/
def Core.moverDue (k : Core) (chan : Nat) : Bool :=
  k.enginesRun &&
    (let v := k.cx.mover chan
     match v.st, v.run with
     | .running, some m =>
       v.walk.isSome ||
       match k.cx.streamOf chan with
       | none => true
       | some b =>
         match b.kind with
         | .readStream _ => !(b.finished || m.total ≤ m.idx || 4 ≤ b.fifo.length || 32 ≤ b.part.length)
         | _ => v.killing || (!decide (m.total ≤ m.idx) && !b.fifo.isEmpty)
     | _, _ => false)

/-! Streams (R447 to R449). -/

/-- `sbind` (R447); the command's accesses follow the thread's earlier ones (R131). -/
def execSbind (d : Reg) (a : Reg) (t : Reg) (s : State) : Out :=
  issue (.sbind d a t) (fun s =>
    let c := bits (s.x a).toNat 0 2
    let dir := bit (s.x t).toNat 0
    let cmd := s.moverCmd c false
    let x := (s.core s.cur).cx
    let m := x.mover c
    let base := if dir then cmd.e 1 else cmd.e 0
    let cls := s.basePathClass base (if dir then .store else .load)
    if s.fillingReg d.toNat then .trap causeMover 3 s
    else if bits (s.x a).toNat 2 30 ≠ 0 ∨ bits (s.x t).toNat 1 31 ≠ 0 then .trap causeMover 1 s
    else if (s.boundOf d.toNat).isSome || !(m.st == .idle || m.st == .stopped) || (x.streamOf c).isSome then
      .trap causeMover 5 s
    else if cls ≠ 0 then s.accessTrap (encode (.sbind d a t)) cls (BitVec.ofNat 64 base)
    else if dir && s.noCounter cmd then .trap causeMover 1 s
    else if cmd.bad ≠ 0 then .trap causeMover (BitVec.ofNat 64 cmd.bad) s
    else if (!dir && (cmd.e 1 != 0 || cmd.shape == 2)) || (dir && (cmd.e 0 != 0 || cmd.shape == 1)) then
      .trap causeMover 2 s
    else
      let b : Bound := { slot := s.slot, reg := d.toNat, kind := if dir then .writeStream c else .readStream c,
                         gang := s.act.gang, gust := s.isGust }
      .retire (s.drain.modCx s.cur fun x => { (x.setMover c ((x.mover c).take cmd)) with bounds := x.bounds ++ [b] })) s

/-- A register is no longer bound: it reads as zero (R449). -/
def State.unboundReg (s : State) (r : Nat) : State :=
  (s.modCx s.cur fun x => { x with bounds := x.bounds.filter fun b => !(b.slot == s.slot && b.reg == r) }).modTh (·.setV r 0)

/-- `sunbind` (R186, R449). -/
def execSunbind (d : Reg) (s : State) : Out :=
  issue (.sunbind d) (fun s =>
    match s.boundOf d.toNat with
    | none => .trap causeMover 3 s
    | some b =>
      if s.fillingReg d.toNat then .trap causeMover 3 s
      else
        match b.kind with
        | .readStream c =>
          .retire ((s.unboundReg d.toNat).modCx s.cur fun x => x.setMover c { (x.mover c) with
            st := .idle, run := none, err := 0, killed := false, walk := none })
        | .writeStream c =>
          let m := (s.core s.cur).cx.mover c
          if b.drained m then
            .retire ((s.unboundReg d.toNat).modCx s.cur fun x => x.setMover c { m with
              st := .idle, run := none, err := 0, killed := false, walk := none, killing := false })
          else
            let s := s.modCx s.cur fun x =>
              { (x.setMover c { m with killing := true }) with
                bounds := x.bounds.map fun e => if e.slot == s.slot && e.reg == d.toNat then { e with slot := 4 + s.slot } else e }
            .retire (s.modTh (·.setV d.toNat 0))
        | _ => .retire ((s.unlinkEnd s.cur b).unboundReg d.toNat)) s

/-! Mesh channels (R187 to R189, R386). -/

/-- The peer that an operand names, if it is valid for the core and its gang (R187). -/
def State.peerOf (s : State) (v : Nat) : Option Peer :=
  match bits v 9 2 with
  | 0 => if coreType s.cur = .reasoning ∧ (s.memberTile s.act.gang (bits v 0 8)).isSome then some (.member (bits v 0 8)) else none
  | 1 =>
    if coreType s.cur = .agent then none
    else if (meshNeighbour s.cur (bits v 0 2)).isSome then some (.neighbour (bits v 0 2)) else none
  | _ => none

/-- A set bit that R187 reserves in the operands of `cbind`. -/
def cbindReserved (v w : Nat) : Bool :=
  bits v 11 21 != 0 || bit v 8 || decide (2 ≤ bits v 9 2) || (bits v 9 2 == 1 && bits v 2 6 != 0) || bits w 7 25 != 0 ||
    (bit w 0 && bits w 4 3 != 0)

/-- `cbind` (R187, R386). -/
def execCbind (d : Reg) (a : Reg) (t : Reg) (s : State) : Out :=
  issue (.cbind d a t) (fun s =>
    let v := (s.x a).toNat
    let w := (s.x t).toNat
    let out := bit w 0
    let port := bits w 1 3
    let bufs := bits w 4 3
    if s.fillingReg d.toNat then .trap causeMover 3 s
    else if (s.boundOf d.toNat).isSome then .trap causeMover 5 s
    else if cbindReserved v w then .trap causeMover 1 s
    else if !out && (bufs == 0 || decide (4 < bufs)) then .trap causeMover 2 s
    else
      match s.peerOf v with
      | none => .trap causeMover 7 s
      | some p =>
        if (s.core s.cur).cx.bounds.any (·.isEnd out port) then .trap causeMover 5 s
        else
          let b : Bound := { slot := s.slot, reg := d.toNat, gang := s.act.gang, gust := s.isGust,
                             kind := if out then .chanOut p port else .chanIn p port bufs }
          .retire ((s.modCx s.cur fun x => { x with bounds := x.bounds ++ [b] }).linkEnds s.cur b)) s

/-- The core that a credit of an input end goes to (R188). -/
def State.creditTo (s : State) (b : Bound) : Option (Nat × Nat × Bool) :=
  match b.kind with
  | .chanIn p q _ => (s.peerCore s.cur b.gang p).map fun c => (c, q, b.gust)
  | _ => none

/-- `cret` (R188, R386): the credit of an end whose peer is not bound to it goes nowhere. -/
def execCret (d : Reg) (s : State) : Out :=
  issue (.cret d) (fun s =>
    match s.boundOf d.toNat with
    | none => .trap causeMover 3 s
    | some b =>
      match b.kind with
      | .chanIn _ _ _ =>
        if s.fillingReg d.toNat then .trap causeMover 3 s
        else if b.readBufs = 0 then .trap causeMover 4 s
        else
          let s1 := s.modBound s.cur s.slot d.toNat fun b => { b with readBufs := b.readBufs - 1 }
          match s.creditTo b with
          | some e =>
            if b.linked then .retire { s1 with flight := { s1.flight with chanCredits := s1.flight.chanCredits ++ [e] } }
            else .retire s1
          | none => .retire s1
      | _ => .trap causeMover 3 s) s

/-- `ceos` (R189, R386). -/
def execCeos (d : Reg) (s : State) : Out :=
  issue (.ceos d) (fun s =>
    match s.boundOf d.toNat with
    | none => .trap causeMover 3 s
    | some b =>
      match b.kind with
      | .chanOut _ _ =>
        if s.fillingReg d.toNat then .trap causeMover 3 s
        else if b.hasRoom then .retire (s.sendBeat b none) else .wait .bound (s.waitsOn d.toNat)
      | _ => .trap causeMover 3 s) s

/-- Traffic of channels to a core waits while the tenant it is for is saved (R193). -/
def State.trafficWaits (s : State) (c : Nat) (gust : Bool) : Bool := isAway c || (!gust && (s.core c).saved.isSome)

/-- CHANNEL_BEAT_ARRIVAL (R188): beats of a port arrive in the order they were sent. -/
def execChannelBeatArrival (i : Nat) (s : State) : Out :=
  event true (fun s =>
    match s.flight.beats[i]? with
    | none => s
    | some e =>
      let same (f : Nat × Nat × Bool × Option Vec) : Bool := f.1 == e.1 && f.2.1 == e.2.1 && f.2.2.1 == e.2.2.1
      if (s.flight.beats.take i).any same || s.trafficWaits e.1 e.2.2.1 then s
      else
        let s := { s with flight := { s.flight with beats := s.flight.beats.eraseIdx i } }
        s.modEnd e.1 false e.2.1 e.2.2.1 fun b => { b with fifo := b.fifo ++ [e.2.2.2] }) s

/-- CHANNEL_CREDIT_RETURN (R188). -/
def execChannelCreditReturn (i : Nat) (s : State) : Out :=
  event true (fun s =>
    match s.flight.chanCredits[i]? with
    | none => s
    | some e =>
      if s.trafficWaits e.1 e.2.2 then s
      else
        let s := { s with flight := { s.flight with chanCredits := s.flight.chanCredits.eraseIdx i } }
        s.modEnd e.1 true e.2.1 e.2.2 fun b => { b with credits := b.credits + 1 }) s

end Sys2Proof.Machine
end

