-- ==== Sys2Proof/Machine/Replies.lean ====
section
/-! DEFINITION. What memory and translation answer: the end of a page walk and of a translation fault (R108 to R112), the
store buffer (R119), host accesses (R123, R514), the change of the L1 portion (R85), and the wakes of waiting threads
(R272, R273, R402, R496). -/

namespace Sys2Proof.Machine

/-- A blocked slot is READY and tries its instruction again. -/
def Thread.wakeUp (t : Thread) : Thread := { t with run := .ready, walk := none, parked := false }

/-! The L1 portion (R85). -/

/-- A change of `l1cfg` completes: bytes that change sides read zero, and the writer goes on (R85). -/
def State.resizeL1 (s : State) (c : Nat) : State :=
  let k := s.core c
  match k.l1pending with
  | none => s
  | some new =>
    let lo := min (l1StartOf new) (l1StartOf k.l1cfg)
    let hi := max (l1StartOf new) (l1StartOf k.l1cfg)
    let inside (a : Nat) : Bool := decide (sramLoc c lo ≤ a) && decide (a < sramLoc c hi)
    let s := { s with mem := s.mem.filter (fun e => !inside e.1), poison := s.poison.filter fun a => !inside a }
    let s := s.loseResvs (sramLoc c lo) (sramLoc c hi)
    let wake (t : Thread) : Thread := if t.run = .blocked .interlock && t.parked then t.wakeUp else t
    s.modCore c fun k => { k with
      l1cfg := new, l1pending := none, cx := { k.cx with threads := k.cx.threads.map fun e => (e.1, wake e.2) } }

/-- L1_RESIZE_COMPLETE (R85). -/
def execL1ResizeComplete (core : Nat) (s : State) : Out := event (decide (core < 256)) (fun s => s.resizeL1 core) s

/-! Walks (R108 to R110). -/

/-- What a walk that has ended means for one slot that waits for it: its TLB serves the access now, or the thread is suspended
and the front end hears of the fault (R108 to R110). -/
def State.walked (s : State) (c n : Nat) : State :=
  let t := s.thread c n
  match t.run, t.walk with
  | .blocked _, some w =>
    match s.performWalk c (t.act.getD {}).asid w with
    | (s, none) => s.modThread c n Thread.wakeUp
    | (s, some (k, level)) =>
      let s := s.xlatRecord c n w k level
      (s.modThread c n fun t => { t.rewind with
        faultPfx := t.pfx.isSome, run := .suspended .fault, walk := none, fault := some w, answer := .waiting, blockedSince := s.clock.now }).stopPoint
          c n false
  | _, _ => s

/-- A walk has ended for everything on its tile that waits for it: slots, mover channels and `pf`s (R108, R115). -/
def State.walkEnded (s : State) (r : WalkReq) : State :=
  let c := r.core
  let s := (s.walkSlots r).foldl (fun s n => s.walked c n) s
  let s := ((List.range 4).filter fun n => s.chanWalk c n == some r).foldl (fun s n => s.chanWalked c n) s
  ((s.core c).prefetches.filter fun p => p.request c == r).foldl (fun s p => s.prefetchWalked c p) s

/-- A walk ends, when one of its slice's walkers has it (R108). -/
def State.endRequest (s : State) (r : WalkReq) : State :=
  let s := s.moveWalks r.slice
  if !(s.sliceAt r.slice).walking.contains r then s
  else ((s.walkEnded r).modSlice r.slice fun k => { k with walking := k.walking.erase r }).moveWalks r.slice

/-- The walk that a slot waits for, or else the first that one of its `pf`s waits for, ends (R108). -/
def State.endWalk (s : State) (c n : Nat) : State :=
  match s.walkOf c n with
  | some r => s.endRequest r
  | none =>
    match (s.core c).prefetches.find? (·.slot == n) with
    | some p => s.endRequest (p.request c)
    | none => s

/-- PAGE_WALK_COMPLETE (R109). -/
def execPageWalkComplete (core slot : Nat) (s : State) : Out :=
  event (isCore core && decide (slot < 4)) (fun s => s.endWalk core slot) s

/-- A running channel does its next element, or ends the walk that its element waits for (R108, R178); a channel that came to
its tile with a walk asks for it again there. -/
def State.moverTurn (s : State) (c chan : Nat) : State :=
  match s.chanWalk c chan with
  | some r => (s.queueWalk r).endRequest r
  | none => s.moverStep c chan

/-- MOVER_ELEMENT (R178): a running channel does its next element. -/
def execMoverElement (core chan : Nat) (s : State) : Out :=
  event (isCore core && decide (chan < 4)) (fun s =>
    if (s.core core).enginesRun then s.moverTurn core chan else s) s

/-! Translation faults (R110 to R112). -/

/-- Change the tenant's context of a core, or of a tile of a spilled partition. -/
def State.modTenantCtx (s : State) (c : Nat) (f : TileCtx → TileCtx) : State :=
  if isAway c then
    s.modPart ((c - 4096) / 256) fun p => { p with images := (List.range p.images.length).map fun i =>
      let e := p.images.getD i {}
      if i = (c - 4096) % 256 then { e with ctx := f e.ctx } else e }
  else s.modCore c (·.modCtx f)

/-- The tenant's context of a core, or of a tile of a spilled partition. -/
def State.tenantCtx (s : State) (c : Nat) : TileCtx :=
  if isAway c then ((s.partAt ((c - 4096) / 256)).images.getD ((c - 4096) % 256) {}).ctx else (s.core c).ctx

/-- The front end answers the fault of a slot; a saved thread takes the answer when it is restored (R110, R112). -/
def State.answerThread (s : State) (c n : Nat) (a : FaultAnswer) : State :=
  let t : Thread := FMap.get (s.tenantCtx c).threads n {}
  if t.run = .suspended .fault ∧ t.answer = .waiting then
    let s := s.modTenantCtx c fun x => { x with threads := FMap.put x.threads n { t with answer := a } }
    if isAway c || (s.core c).saved.isSome then s else ((s.settleFault c n).stopPoint c n false).gustOver c
  else s

/-- The tile that a record names for a core's context: of a spilled partition, the tile that it was spilled from (R111, R309). -/
def State.tileOf (s : State) (c : Nat) : Nat :=
  if isAway c then (tileList (s.partAt ((c - 4096) / 256)).spillTiles).getD ((c - 4096) % 256) 0 else c

/-- The front end answers the fault of a channel's element (R111). -/
def State.answerChannel (s : State) (c ch : Nat) (a : FaultAnswer) : State :=
  let v := (s.tenantCtx c).mover ch
  match v.st, v.run, a with
  | .halted, some _, .replay =>
    s.modTenantCtx c fun x => x.setMover ch { x.mover ch with st := .running, walk := none }
  | .halted, some m, .abort =>
    (s.moverRecord m { m.issuer with core := s.tileOf c } ch 5).modTenantCtx c fun x => x.failMover ch 5
  | _, _, _ => s

/-- The front end answers a translation fault. -/
def State.answerFault (s : State) (t : FaultTarget) (a : FaultAnswer) : State :=
  match t with
  | .thread c n => s.answerThread c n a
  | .channel c ch => s.answerChannel c ch a

/-- A fault can be one of a unit of the device. -/
def faultTargetOk : FaultTarget → Bool
  | .thread c n => (isCore c || (isAway c && decide (c < 8192))) && decide (n < 4)
  | .channel c ch => (isCore c || (isAway c && decide (c < 8192))) && decide (ch < 4)

/-- TRANSLATION_REPLAY (R110, R111). -/
def execTranslationReplay (t : FaultTarget) (s : State) : Out := event (faultTargetOk t) (fun s => s.answerFault t .replay) s

/-- TRANSLATION_ABORT (R110, R111). -/
def execTranslationAbort (t : FaultTarget) (s : State) : Out := event (faultTargetOk t) (fun s => s.answerFault t .abort) s

/-! Stores. -/

/-- STORE_BUFFER_PERFORM (R119). -/
def execStoreBufferPerform (core slot : Nat) (s : State) : Out :=
  event (isCore core && decide (slot < 4)) (fun s => s.performStore core slot) s

/-! Wakes. -/

/-- REQUEST_RESPONSE (R402): a slot that waits for a request tries again and finds its answer. -/
def execRequestResponse (core slot : Nat) (s : State) : Out :=
  event (isCore core && decide (slot < 4)) (fun s =>
    let t := s.thread core slot
    if t.run = .blocked .memory && t.walk.isNone then s.setThread core slot t.wakeUp else s) s

/-- The time limit of a parked `wrs` has run out (R496). -/
def State.wrsOver (s : State) (c n : Nat) : Bool :=
  let t := s.thread c n
  t.run == .blocked .reservation && (t.timer.any fun e => e != 0 && decide (e ≤ s.clock.now))

/-- WRS_TIMEOUT (R496): the thread is READY, and its `wrs` then answers 2, or 1 when the reservation is gone by then. -/
def execWrsTimeout (core slot : Nat) (s : State) : Out :=
  event (isCore core && decide (slot < 4)) (fun s =>
    if s.wrsOver core slot then s.modThread core slot fun t => { t with run := .ready } else s) s

/-- A refused `fget` is to be sent again (R272). -/
def State.retryDue (s : State) (c n : Nat) : Bool :=
  let t := s.thread c n
  t.run == .blocked .future && t.parked && (t.timer.any fun e => decide (e ≤ s.clock.now))

/-- FGET_PARK_RETRY (R272): the tile sends the `fget` again, while its thread stays BLOCKED; the slot tries it at its next turn
and parks again if that is refused too. -/
def execFgetParkRetry (core slot : Nat) (s : State) : Out :=
  event (isCore core && decide (slot < 4)) (fun s =>
    if s.retryDue core slot then s.modThread core slot fun t => { t with parked := false, timer := none } else s) s

/-- A wake has reached a parked `fget` (R273). -/
def State.wakeDue (s : State) (c n : Nat) : Bool :=
  let t := s.thread c n
  t.run == .blocked .future && t.parked && t.wake.isSome

/-- FUTURE_WAKE (R273): the waiter is READY and returns the value of the `fput` that woke it. -/
def execFutureWake (core slot : Nat) (s : State) : Out :=
  event (isCore core && decide (slot < 4)) (fun s =>
    if s.wakeDue core slot then s.modThread core slot Thread.wakeUp else s) s

end Sys2Proof.Machine
end

