-- ==== Sys2Proof/Machine/Host.lean ====
section
/-! DEFINITION. What the host, the driver and the debugger write: the debug blocks and logs (R319 to R330), the device's
registers (R194 to R336), start-up and attestation (R337 to R340), and accesses through the BARs (R333, R334). -/

namespace Sys2Proof.Machine

/-! Debug (R320 to R330). -/

/-- Write `dbgctl` with its fields as they stand and one more bit set. -/
def State.dbgCommand (s : State) (c i : Nat) : State :=
  s.writeDbgctl c (Nat.lor (masked (s.core c).dbgctl (fieldMask 31 1 + fieldMask 25 4 + fieldMask 20 2)) (2 ^ i))

/-- DBG_HALTREQ (R321). -/
def execDbgHaltreq (core : Nat) (s : State) : Out := event (isCore core) (fun s => s.dbgCommand core 31) s

/-- DBG_RESUME (R322). -/
def execDbgResume (core : Nat) (s : State) : Out := event (isCore core) (fun s => s.dbgCommand core 30) s

/-- DBG_STEP (R322). -/
def execDbgStep (core : Nat) (s : State) : Out := event (isCore core) (fun s => s.dbgCommand core 29) s

/-- DBG_BKSYNC (R325). -/
def execDbgBksync (core : Nat) (s : State) : Out := event (isCore core) (fun s => s.dbgCommand core 24) s

/-- BKSYNC_COMPLETE (R325). -/
def execBksyncComplete (core : Nat) (s : State) : Out := event (isCore core) (fun s => s.bksyncDone core) s

/-- DBGDAT_ACCESS (R324): a write of the value given, or a read. -/
def execDbgdatAccess (core : Nat) (w : Option (BitVec 64)) (s : State) : Out :=
  event (isCore core) (fun s =>
    match w with
    | some v => s.writeDbgdat core v.toNat
    | none => s.touchDbgdat core) s

/-- LOG_DWELL_EXPIRY (R327). -/
def execLogDwellExpiry (core slot : Nat) (s : State) : Out :=
  event (isCore core && decide (slot < 4)) (fun s => if s.logDue core slot then s.logState core else s) s

/-- LOGCTL_WRITE (R329). -/
def execLogctlWrite (core : Nat) (v : BitVec 64) (s : State) : Out :=
  event (isCore core) (fun s => s.writeLogctl core v.toNat) s

/-- PMSEL_WRITE (R330). -/
def execPmselWrite (core : Nat) (v : BitVec 64) (s : State) : Out :=
  event (isCore core) (fun s => s.writeDbg core 0x070 v.toNat) s

/-! Registers of the device. -/

/-- TICK_ENTRY_WRITE (R199). -/
def execTickEntryWrite (e : Nat) (v : BitVec 256) (s : State) : Out := event (decide (e < 64)) (fun s => s.writeTick e v.toNat) s

/-- MAILBOX_SLOT_WRITE (R202). -/
def execMailboxSlotWrite (n : Nat) (v : BitVec 128) (s : State) : Out :=
  event (decide (n < 4096)) (fun s => s.writeMbSlot n v.toNat) s

/-- GUST_POOL_WRITE (R212). -/
def execGustPoolWrite (v : BitVec 256) (s : State) : Out := event true (fun s => s.writeGustPool v.toNat) s

/-- GUST_PROFILE_WRITE (R212). -/
def execGustProfileWrite (p : Nat) (v : BitVec 128) (s : State) : Out :=
  event (decide (p < 16)) (fun s => s.writeProfile p v.toNat) s

/-- TMCTL_WRITE (R225). -/
def execTmctlWrite (v : BitVec 32) (s : State) : Out := event true (fun s => s.writeTmctl v.toNat) s

/-- TIMED_STREAM_WRITE (R226). -/
def execTimedStreamWrite (stream : Nat) (v : BitVec 512) (s : State) : Out :=
  event (decide (stream < 128)) (fun s => s.writeStream stream v.toNat) s

/-- TREE_TEMPLATE_WRITE (R245). -/
def execTreeTemplateWrite (j : Nat) (v : BitVec 2048) (s : State) : Out :=
  event (decide (j < 16)) (fun s => s.writeTemplate j v.toNat) s

/-- EVENT_TABLE_ROW_WRITE (R264). -/
def execEventTableRowWrite (slice r : Nat) (v : BitVec 128) (s : State) : Out :=
  event (decide (slice < 64) && decide (r < 16)) (fun s => s.writeRow slice r v.toNat) s

/-- SQCFG_WRITE (R194). -/
def execSqcfgWrite (v : BitVec 32) (s : State) : Out := event true (fun s => s.writeSqcfg v.toNat) s

/-- SHEDCTL_WRITE (R295). -/
def execShedctlWrite (v : BitVec 32) (s : State) : Out := event true (fun s => s.writeShedctl v.toNat) s

/-- FEATACC_WRITE (R336). -/
def execFeataccWrite (v : BitVec 256) (s : State) : Out := event true (fun s => s.writeFeatacc v.toNat) s

/-! Start-up and attestation (R337 to R340). -/

/-- PERST_RELEASE (R332, R337): port B takes the role that its strap says, and the boot ROM links port A, exposes BAR0 and
waits for an image. -/
def execPerstRelease (s : State) : Out :=
  event true (fun s =>
    if s.boot.stage = 0 then
      { s with boot := { s.boot with stage := 1 }, link := { s.link with pbEndpoint := Config.pbmode } }
    else s) s

/-- Memory of the host and of the peer, which the device does not hold. -/
def isForeignLoc (a : Nat) : Bool := decide (2 ^ 65 ≤ a) && decide (a < 2 ^ 67)

/-- PERST_ASSERT (R337): the device is reset and loses all state; what the outside world holds stays. -/
def execPerstAssert (s : State) : Out :=
  event true (fun s => { State.reset with
    agenda := s.agenda, mem := s.mem.filter fun e => isForeignLoc e.1, poison := s.poison.filter isForeignLoc }) s

/-- BOOT_GO (R338). -/
def execBootGo (s : State) : Out := event true (fun s => s.bootGo) s

/-- The copy of the image from the bus address in `bootaddr` to the start of front-end core 0's SRAM: none when a byte of it
cannot be read or it has no room there (R337, log entry 80). -/
def State.bootCopy (s : State) (n : Nat) : Option State :=
  let from_ := hostLoc s.boot.addr.toNat
  if 0x80000 < n ∨ (s.poisoned from_ (from_ + n)).isSome then none
  else some (s.store (sramLoc 352 0) (s.read from_ n))

/-- Some bytes lie in a run of `n` bytes from its start. -/
def inRun (off len n : Nat) : Bool := decide (off + len ≤ n)

/-- The code in FAIL that the checks of a copied image end with, 0 when all hold, in the order of R337's list: what is checked lies
in the image, and the hashes of its parts and the version in the manifest, which alone is signed. -/
def State.bootCheck (s : State) (i : BootImage) : Nat :=
  let part (off len : Nat) : List Byte := s.read (sramLoc 352 off) len
  let manifest := part i.manifest i.manifestLen
  let held (n : Nat) : List Byte := (manifest.drop n)
  if !inRun i.key i.keyLen i.len || sha256 (part i.key i.keyLen) != Config.vendorKeyHash then 2
  else if !inRun i.manifest i.manifestLen i.len || !inRun i.signature 7856 i.len ||
      !Config.slhVerify (part i.key i.keyLen) manifest (part i.signature 7856) then 3
  else if i.parts.any fun p => !inRun p.off p.len i.len || !inRun p.hash 32 i.manifestLen ||
      sha256 (part p.off p.len) != (held p.hash).take 32 then 4
  else if !inRun i.version 4 i.manifestLen || decide (leNat ((held i.version).take 4) < Config.rollbackCounter.toNat) then 5
  else 0

/-- Verification ends without the firmware: STAGE is 15 and FAIL says why (R338). -/
def State.bootFail (s : State) (code : Nat) : State := { s with boot := { s.boot with stage := 15, fail := code } }

/-- BOOT_VERIFY_COMPLETE (R337 to R339): the image is copied and checked, and the firmware starts, its manifest measured, or the
image is refused. -/
def execBootVerifyComplete (i : BootImage) (s : State) : Out :=
  event true (fun s =>
    if s.boot.stage ≠ 2 then s
    else
      match s.bootCopy i.len with
      | none => s.bootFail 1
      | some s =>
        if s.bootCheck i ≠ 0 then s.bootFail (s.bootCheck i)
        else
          ({ s with boot := { s.boot with stage := 3 } } : State).measure
            (sha256 (s.read (sramLoc 352 i.manifest) i.manifestLen)) 0 0 0) s

/-- ATTEST_REQUEST (R340). -/
def execAttestRequest (s : State) : Out := event true (fun s => s.attestRequest) s

/-- The body of a report (R340, log entry 18). -/
def State.reportBody (s : State) : List Byte :=
  let b := s.boot
  leBytes 32 b.nonce.toNat ++ leBytes 8 Config.partSerial.toNat ++ leBytes 32 b.m.toNat ++ leBytes 4 b.logged ++
    leBytes 32 b.featacc.toNat ++ leBytes 4 Config.rollbackCounter.toNat ++ leBytes 4 (if b.logfull then 1 else 0)

/-- ATTEST_COMPLETE (R340): the report and its signature are written, as far as the 4 KiB reach. -/
def execAttestComplete (s : State) : Out :=
  event true (fun s =>
    if !s.boot.busy then s
    else
      let body := s.reportBody
      let s := s.store (hostLoc s.boot.out.toNat) ((body ++ Config.signature body).take 4096)
      { s with boot := { s.boot with busy := false, attFail := false } }) s

/-! The BARs (R333, R334, R445). -/

/-- The base at which the model puts the BARs in the address of an access from outside (log entry 14). -/
def barBase : Nat := 2 ^ 60

/-- A place of the BARs: a register space with an offset, or an ingest aperture (R333, log entry 14). -/
inductive BarPlace where
  | reg (sp : RegSpace) (off : Nat)
  | ingest (stream off : Nat)
  | none
  deriving DecidableEq, Repr

/-- What an offset of the BARs names: BAR0 from 0, BAR2 from 2^32, BAR4 from 2^33. -/
def barPlace (o : Nat) : BarPlace :=
  if o < 2 ^ 26 then .reg .device o
  else if 2 ^ 32 ≤ o ∧ o < 2 ^ 32 + 2 ^ 30 then .reg (.slice ((o - 2 ^ 32) / 2 ^ 24)) ((o - 2 ^ 32) % 2 ^ 24)
  else if 2 ^ 33 ≤ o ∧ o < 2 ^ 33 + 2 ^ 23 then .ingest ((o - 2 ^ 33) / 2 ^ 16) ((o - 2 ^ 33) % 2 ^ 16)
  else .none

/-- Accesses from outside that hit no register are counted (R333). -/
def State.countHostbad (s : State) : State :=
  { s with link := { s.link with hostbad := if s.link.hostbad = BitVec.allOnes 32 then s.link.hostbad else s.link.hostbad + 1 } }

/-- The completion that leaves a port: its data, and whether it leaves poisoned (R313, R333). -/
def State.answerHost (s : State) (bs : List Byte) (bad : Bool) : State :=
  { s with link := { s.link with reply := bs, replyPoison := bad } }

/-- Bytes written to an ingest aperture; a write that covers byte 0 commits the record (R334). -/
def State.ingestWrite (s : State) (stream off : Nat) (bs : List Byte) : State :=
  let old : FMap Byte := FMap.get s.link.aperture stream []
  let new := (List.range bs.length).foldl (fun (m : FMap Byte) i => FMap.set m (off + i) (bs.getD i 0) 0) old
  let s := { s with link := { s.link with aperture := FMap.put s.link.aperture stream new } }
  if off = 0 ∧ !bs.isEmpty then s.commitIngest stream else s

/-- A read of the BARs: the bytes of the registers there, zero where there is none (R333). -/
def State.barRead (s : State) (o n : Nat) : State :=
  match barPlace o with
  | .reg sp off =>
    let t := s.answerHost (s.regBytes sp off n) false
    if (sp.touched off n).isEmpty then t.countHostbad else t.regTouch sp ((List.range n).map (off + ·))
  | .ingest _ _ => s.answerHost (List.replicate n 0) false
  | .none => s

/-- A write of the BARs (R333, R334, R445). -/
def State.barWrite (s : State) (o : Nat) (bs : List Byte) : State :=
  match barPlace o with
  | .reg sp off =>
    if (sp.touched off bs.length).isEmpty then s.countHostbad
    else s.regStore sp off ((List.range bs.length).map fun i => (off + i, bs.getD i 0))
  | .ingest n off => s.ingestWrite n off bs
  | .none => s

/-- REGISTER_WRITE (R333, R334, R445): a host write of some bytes at an offset of the BARs (log entry 14), which the boot ROM
exposes once it runs (R337). -/
def execRegisterWrite (off size v : Nat) (s : State) : Out :=
  event (decide (size ≤ 4096)) (fun s => if s.boot.stage = 0 then s else s.barWrite off (leBytes size v)) s

/-! Accesses through the ports (R123, R313, R332, R333, R514). -/

/-- The bytes that an AtomicOp reads and writes: 8 when it is wide, else 4. -/
def hostOpLen : HostOp → Nat
  | .read n => n
  | .write bs => bs.length
  | .fetchAdd w _ | .swap w _ | .cas w _ _ => if w then 8 else 4

/-- What an access writes, given what it finds: nothing for a read and for a CAS whose comparison fails (R332). -/
def hostOpResult (op : HostOp) (old : List Byte) : Option (List Byte) :=
  let n := hostOpLen op
  match op with
  | .read _ => none
  | .write bs => some bs
  | .fetchAdd _ v => some (leBytes n (leNat old + v.toNat))
  | .swap _ v => some (leBytes n v.toNat)
  | .cas _ o v => if leNat old = o.toNat % 2 ^ (8 * n) then some (leBytes n v.toNat) else none

/-- An access of port A to an address that names no memory is reported (R316, R514). -/
def State.portRecord (s : State) (pa : Nat) : State := s.record 0x01 2 0 0 0 5 [(24, 8, pa), (32, 1, causeRange)]

/-- An access of port A to device memory performs at the home slices of its bytes (R123): bytes that no memory holds read zero
and are discarded (R514), a read of poison returns a poisoned completion (R313), and an atomic that finds poison changes
nothing. An atomic takes the reservations of its granule with it whether or not it writes (R129). -/
def State.memoryAccess (s : State) (pa : Nat) (op : HostOp) : State :=
  let at_ (i : Nat) : Bool := isBacked (pa + i)
  let old := (List.range (hostOpLen op)).map fun i => if at_ i then memByte s.mem (dramLoc (pa + i)) else 0
  let bad := (List.range (hostOpLen op)).any fun i => at_ i && (s.poisoned (dramLoc (pa + i)) (dramLoc (pa + i) + 1)).isSome
  let store (s : State) (bs : List Byte) : State :=
    s.storeCells (((List.range bs.length).filter at_).map fun i => (dramLoc (pa + i), bs.getD i 0))
  let s := match op with
    | .write bs => store s bs
    | .read _ => s.answerHost old bad
    | _ =>
      let s := s.loseResvs (dramLoc pa) (dramLoc pa + hostOpLen op)
      match hostOpResult op old with
      | some bs => if bad then s.answerHost old true else (store s bs).answerHost old false
      | none => s.answerHost old bad
  match (List.range (hostOpLen op)).find? fun i => !at_ i with
  | some i => s.portRecord (pa + i)
  | none => s

/-- What port B exposes of BAR0 as an endpoint (R332). -/
def inPeerWindow (o n : Nat) : Bool := decide (0x60000 ≤ o) && decide (o + n ≤ 0x70000)

/-- An access to the BARs: AtomicOps are completed for memory alone, so one to a register has no effect (log entry 14). -/
def State.barAccess (s : State) (o : Nat) (op : HostOp) : State :=
  match op with
  | .read n => s.barRead o n
  | .write bs => s.barWrite o bs
  | .fetchAdd _ _ | .swap _ _ | .cas _ _ _ => s

/-- An access from outside: over port A to the BARs, once the boot ROM exposes them, or to memory; over port B, as an endpoint,
to its window of BAR0 (R123, R332, R337). -/
def State.hostAccess (s : State) (a : HostAccess) : State :=
  let o := a.pa - barBase
  if a.portB then
    if s.link.pbEndpoint && decide (barBase ≤ a.pa) && inPeerWindow o (hostOpLen a.op) then s.barAccess o a.op else s
  else if s.boot.stage = 0 then s
  else if barBase ≤ a.pa then s.barAccess o a.op
  else s.memoryAccess a.pa a.op

/-- HOST_MEMORY_ACCESS (R123, R332, R333). -/
def execHostMemoryAccess (a : HostAccess) (s : State) : Out := event true (fun s => s.hostAccess a) s

end Sys2Proof.Machine
end

