-- ==== Sys2Proof/Machine/Launch.lean ====
section
/-! DEFINITION. The front end's launch instructions (R283 to R285, R403). -/

namespace Sys2Proof.Machine

/-- `glaunch`: the 60 bytes are read as a load, in words (R277, R284, R403). -/
def State.launchGang (s : State) (w : Word) (d p : Reg) : Res :=
  let a := s.p p
  let rule := s.safeRule true true (pathByte a)
  if rule ≠ 0 then .trap causeSafe (BitVec.ofNat 64 rule) s
  else if a.toNat % 4 ≠ 0 then s.accessTrap w causeAlign a
  else if !s.windowAllows false a 0 60 then s.windowFault
  else
    match s.checkLanes a 4 (fun i => (i : Int)) .load (List.range 15) with
    | .fault code va => s.accessTrap w code va
    | .wait => .wait .memory s
    | .ok l =>
      match s.laneWalk .load l with
      | some w => .walk w s
      | none =>
        match s.readLanes 4 l with
        | .bytes bs s =>
          if 4 ≤ s.th.staged.length then s.retX d 0
          else (s.modTh fun t => { t with staged := t.staged ++ [bs] }).retX d 1
        | .poison va => .trap causePoison va s
        | .wait => .wait .memory s
        | .walk w => .walk w s

/-- `glaunch` (R403). -/
def execGlaunch (d : Reg) (p : Reg) (s : State) : Out :=
  issue (.glaunch d p) (fun s => s.launchGang (encode (.glaunch d p)) d p) s

/-- `gabort` (R285, R403). -/
def execGabort (d : Reg) (a : Reg) (t : Reg) (s : State) : Out :=
  issue (.gabort d a t) (fun s =>
    let v := s.x t
    let w := wordValue (encode (.gabort d a t))
    if bits v.toNat 16 16 ≠ 0 then .trap causeIllegal w s
    else if !s.sup && v != 0 then .trap causePriv w s
    else
      let asid := if s.sup then v.setWidth 16 else s.act.asid
      match s.liveGang (s.x a).toNat asid with
      | some g => (s.abortGang g.no).retX d 1
      | none => s.retX d 0) s

end Sys2Proof.Machine
end

