-- ==== Sys2Proof/Machine/Loader.lean ====
section
/-! DEFINITION. Loader programs of the slices' line-push units (R243, R269). -/

namespace Sys2Proof.Machine

/-- The runs of bytes of a virtual range that lie in one page each: the offset in the range and the length; `n` bounds the
pages. -/
def pageRuns (va len : Nat) : Nat → Nat → List (Nat × Nat)
  | 0, _ => []
  | n + 1, off =>
    if len ≤ off then []
    else
      let k := min (4096 - (va + off) % 4096) (len - off)
      (off, k) :: pageRuns va len n (off + k)

/-- The locations of the runs of a descriptor's path 0x00 range, none when one of them faults. -/
def State.runLocs (s : State) (c : Nat) (asid : BitVec 16) (va : Nat) (kind : AccessKind) :
    List (Nat × Nat) → State × Option (List (Nat × Nat × Nat))
  | [] => (s, some [])
  | (off, k) :: rest =>
    match s.unitLoc c asid 0 (va + off) kind with
    | (s, none) => (s, none)
    | (s, some loc) =>
      match s.runLocs c asid va kind rest with
      | (s, none) => (s, none)
      | (s, some l) => (s, some ((off, k, loc) :: l))

/-- A descriptor of a table, as its 32 bytes (R269). -/
abbrev LoadDesc := List Byte

/-- A field of a descriptor that must be zero is not, or an address or the length is out of step (log entry 16). -/
def loadBad (d : LoadDesc) : Bool :=
  field d 0 6 % 64 != 0 || field d 6 2 != 0 || field d 8 4 % 64 != 0 || decide (2 ^ 24 < field d 8 4) || bits (field d 18 1) 6 2 != 0 ||
    bits (field d 19 1) 1 7 != 0 || field d 20 4 % 64 != 0 || field d 24 8 != 0

/-- The tile of the member that a descriptor names: none when it names no live gang or no member (R269). -/
def State.loadMember (s : State) (asid : BitVec 16) (d : LoadDesc) : Option Nat :=
  match s.liveGang (field d 12 4) asid with
  | none => none
  | some g => if field d 16 2 < g.n then s.memberTile (some (g.no, 0)) (field d 16 2) else none

/-- What became of a piece of a descriptor: it moved, the number of bytes told, or the descriptor is skipped, or waits. -/
inductive Loaded where
  | moved (n : Nat) (s : State)
  | skipped (s : State)
  | waits

/-- Move the piece of a descriptor that begins `off` bytes into it, of at most 4 KiB, routed by logical id, and count it in one
add (R269). -/
def State.runPiece (s : State) (slice : Nat) (asid : BitVec 16) (d : LoadDesc) (off : Nat) : Loaded :=
  if loadBad d then .skipped s
  else
    match s.loadMember asid d with
    | none => .skipped s
    | some t =>
      let len := field d 8 4
      let n := min 4096 (len - off)
      if isAway t || (s.core t).saved.isSome then .waits
      else if s.scratchEnd t < field d 20 4 + len then .skipped s
      else
        let store := bit (field d 19 1) 0
        let at_ := sramLoc t (field d 20 4 + off)
        let va := field d 0 6 + off
        match s.runLocs (288 + slice) asid va (if store then .store else .load) (pageRuns va n 2 0) with
        | (s, none) => .skipped s
        | (s, some l) =>
          let bad := if store then (s.poisoned at_ (at_ + n)).isSome
            else l.any fun e => (s.poisoned e.2.2 (e.2.2 + e.2.1)).isSome
          if bad then .skipped s
          else
            let s := l.foldl (fun s e =>
              if store then s.store e.2.2 (s.read (at_ + e.1) e.2.1) else s.store (at_ + e.1) (s.read e.2.2 e.2.1)) s
            .moved n (if n = 0 then s else s.addTileCounter t (bits (field d 18 1) 0 6) (BitVec.ofNat 32 n))

/-- The table goes on behind a descriptor, and BUSY clears behind the last (R269). -/
def State.nextDescriptor (s : State) (slice : Nat) (err : Bool) : State :=
  s.modSlice slice fun k =>
    let v := if err then setBits k.ldctl.toNat 61 1 1 else k.ldctl.toNat
    { k with ldIdx := k.ldIdx + 1, ldOff := 0, ldctl := BitVec.ofNat 64 (if bits v 48 13 ≤ k.ldIdx + 1 then setBits v 62 1 0 else v) }

/-- The running table of a slice moves its next piece (R269). -/
def State.loaderStep (s : State) (slice : Nat) : State :=
  let k := s.sliceAt slice
  let v := k.ldctl.toNat
  let asid := BitVec.ofNat 16 (bits v 32 16)
  if !bit v 62 then s
  else if bits v 48 13 ≤ k.ldIdx then s.modSlice slice fun k => { k with ldctl := BitVec.ofNat 64 (setBits v 62 1 0) }
  else
    let d := s.read (sramLoc (288 + slice) (bits v 0 17 + 32 * k.ldIdx)) 32
    match s.runPiece slice asid d k.ldOff with
    | .moved n s =>
      if field d 8 4 ≤ k.ldOff + n then s.nextDescriptor slice false else s.modSlice slice fun k => { k with ldOff := k.ldOff + n }
    | .skipped s => (s.record 0x11 2 asid.toNat slice 0 2 [(20, 2, k.ldIdx)]).nextDescriptor slice true
    | .waits => s

/-- LOADER_START (R269): a GO write with the register's other fields as they stand. -/
def execLoaderStart (slice : Nat) (s : State) : Out :=
  event (decide (slice < 64)) (fun s => s.writeLdctl slice (setBits (setBits (s.sliceAt slice).ldctl.toNat 61 1 0) 63 1 1)) s

/-- LOADER_DESCRIPTOR_COMPLETE (R269): one piece of the descriptor, the last of which completes it. -/
def execLoaderDescriptorComplete (slice : Nat) (s : State) : Out :=
  event (decide (slice < 64)) (fun s => s.loaderStep slice) s

end Sys2Proof.Machine
end

