-- ==== Sys2Proof/Machine/Matrix.lean ====
section
/-! DEFINITION. The matrix engine (R144 to R175, R425, R426): operands, the arithmetic of a cell, the commands, the latch
buffers, the ring and the hand-off. -/

namespace Sys2Proof.Machine

/-! Geometry (R162, R171). -/

/-- Rows of a core's matrix unit. -/
def mxRows (c : Nat) : Nat := if coreType c = .reflex then 16 else 32
/-- Columns of a core's matrix unit, and its lanes in `mmv`. -/
def mxCols (c : Nat) : Nat := if coreType c = .reflex then 32 else 64

/-- Key of an accumulator element. -/
def accKey (bank i n : Nat) : Nat := 4096 * bank + 64 * i + n

/-! Operands (R158). -/

/-- The A format is read through a view (R158): W3, W4 or MXINT8. -/
def aView (af : Nat) : Bool := af == 0 || af == 1 || af == 3
/-- The A format has group scales. -/
def aGroup (af : Nat) : Bool := decide (af < 4)
/-- Width of an A element in bytes, for the formats that have one. -/
def aSize (af : Nat) : Nat := if af = 5 then 2 else if af = 6 then 4 else 1
/-- Width of a B element in bytes; packed 1-bit rows count by R159. -/
def bSize (bf : Nat) : Nat := if bf = 2 then 2 else if bf = 4 then 4 else 1
/-- Bytes of a row of B (R159). -/
def rowBytes (c bf : Nat) : Nat := if bf = 5 then mxCols c / 8 else mxCols c * bSize bf

/-- The multiple that K, I0 and `mx.astr` must be of (R158). -/
def aMultiple (af : Nat) : Nat := if aGroup af then 32 else if af = 7 then 8 else 1

/-- The base in rs is no multiple of the element's width (R158). -/
def baseBad (af rs : Nat) : Bool := if aView af then rs % 2 != 0 else if af = 7 then false else rs % aSize af != 0

/-- I0 (R158). -/
def firstElem (af rs : Nat) : Nat := if aView af then rs / 2 else if af = 7 then 8 * rs else rs / aSize af

/-- The index of A element (i, k). -/
def MatrixCmd.elemAt (m : MatrixCmd) (i k : Nat) : Nat := firstElem m.af m.base + i * m.astr + k

/-- First byte and length of the data of element I (R89, R158). -/
def aData (af e : Nat) : Nat × Nat :=
  if af = 0 then View.w3.data e else if af = 1 then View.w4.data e else if af = 7 then (e / 8, 1) else (e * aSize af, aSize af)

/-- First byte and length of the scale of element I (R89, R158). -/
def aScale (af scb e : Nat) : Option (Nat × Nat) :=
  if af < 3 then some ((scb + 2 * (e / 32)) % 2 ^ 32, 2) else if af = 3 then some ((scb + e / 32) % 2 ^ 32, 1) else none

/-- The value of A element I with the flags that forming it raises (R144). -/
def State.aValue (s : State) (c : Nat) (m : MatrixCmd) (e : Nat) : Num × FlagSet :=
  let d := aData m.af e
  let raw := s.readNat (sramLoc c d.1) d.2
  let scale := match aScale m.af m.scb e with | some (a, n) => s.readNat (sramLoc c a) n | none => 0
  let group (q : Int) : Num × FlagSet := mulNum (Num.ofInt q) (decodeFloat .bf16 scale)
  match m.af with
  | 0 => group (signed (bits raw (3 * (e % 32) % 8) 3) 3)
  | 1 => group (signed (bits raw (4 * (e % 2)) 4) 4)
  | 2 => group (signed raw 8)
  | 3 =>
    let q := signed raw 8
    if scale = 0xFF then (.nan, 0) else (.fin (decide (q < 0)) q.natAbs ((scale : Int) - 133), 0)
  | 4 => (Num.ofInt (signed raw 8), 0)
  | 5 => (decodeFloat .bf16 raw, 0)
  | 6 => (decodeFloat .fp32 raw, 0)
  | _ => (Num.ofInt (bits raw (e % 8) 1 : Nat), 0)

/-- The value of an element of a latch buffer, by the format and the byte offset of its row (R159). -/
def State.bValue (s : State) (c bf row n : Nat) : Num :=
  let at_ (w : Nat) : Nat := s.readNat (sramLoc c (row + n * w)) w
  match bf with
  | 0 => decodeFloat .e4m3 (at_ 1)
  | 1 => decodeFloat .e5m2 (at_ 1)
  | 2 => decodeFloat .bf16 (at_ 2)
  | 3 => Num.ofInt (signed (at_ 1) 8)
  | 4 => decodeFloat .fp32 (at_ 4)
  | _ => Num.ofInt (bits (s.readNat (sramLoc c (row + n / 8)) 1) (n % 8) 1 : Nat)

/-- The first poisoned granule that A element I or its scale touches, as a location. -/
def State.aPoison (s : State) (c : Nat) (m : MatrixCmd) (e : Nat) : Option Nat :=
  let at_ (d : Nat × Nat) : Option Nat := s.poisoned (sramLoc c d.1) (sramLoc c d.1 + d.2)
  at_ (aData m.af e) <|> (match aScale m.af m.scb e with | some d => at_ d | none => none)

/-! Pairings (R145, R149, R167). -/

/-- How a pairing computes: products per step, step length in mc, and passes. -/
structure Pairing where
  per : Nat
  len : Nat
  passes : Nat
  deriving DecidableEq, Repr

/-- The pairings of `mma` by semiring, A format and B format (R145, R149). -/
def mmaPairing (sr af bf : Nat) : Option Pairing :=
  let float := decide (bf < 2)
  match sr with
  | 0 =>
    if af < 2 then (if float then some ⟨2, 1, 1⟩ else if bf = 2 then some ⟨1, 1, 1⟩ else none)
    else if af < 5 then
      (if float then some ⟨1, 1, 1⟩ else if bf = 2 then some ⟨1, 2, 1⟩ else if af = 4 ∧ bf = 3 then some ⟨1, 1, 1⟩ else none)
    else if af = 5 then (if bf ≤ 2 then some ⟨1, 2, 1⟩ else none)
    else if af = 6 ∧ bf = 4 then some ⟨1, 2, 6⟩
    else none
  | 4 => if af = 7 ∧ bf = 5 then some ⟨8, 1, 1⟩ else none
  | _ => if sr < 4 ∧ (af = 4 ∨ af = 5) ∧ bf ≤ 2 then some ⟨1, 2, 1⟩ else none

/-- Products per lane step of `mmv` on a reasoning tile (R167). -/
def mmvPer (af bf : Nat) : Option Nat :=
  if af < 2 then (if bf < 2 then some 64 else if bf = 2 then some 32 else none)
  else if af < 4 then (if bf < 2 then some 32 else if bf = 2 then some 16 else none)
  else none

/-- Products per lane step of `mmv` on a core. -/
def mmvStep (c af bf : Nat) : Option Nat := (mmvPer af bf).map fun p => if coreType c = .reflex then p / 2 else p

/-- The command accumulates in s32: s8 by s8, or or-and (R145, R149). -/
def accInts (sr af bf : Nat) : Bool := sr == 4 || (sr == 0 && af == 4 && bf == 3)

/-- The ⊕ identity of a semiring (R149). -/
def ringZero (sr : Nat) : Nat := if sr = 1 then 0x7F800000 else if sr = 2 ∨ sr = 3 then 0xFF800000 else 0

/-- Length of a command in steps' time, rounding up. -/
def ceilDiv (a b : Nat) : Nat := (a + b - 1) / b

/-! Cells (R144 to R149, R162). -/

/-- One step of an FP32 cell: the products with the old value, exactly, and one rounding (R145, R149). -/
def floatStep (sr : Nat) (mode : RoundMode) (acc : Nat) (ps : List (Num × Num)) : Nat × FlagSet :=
  let old := decodeFloat .fp32 acc
  let r : Num × FlagSet :=
    match sr with
    | 0 =>
      let q := ps.map fun p => mulNum p.1 p.2
      let t := sumNums mode (old :: q.map (·.1))
      (t.1, q.foldl (fun f p => f ||| p.2) t.2)
    | _ =>
      ps.foldl (fun a p =>
        let q := if sr = 3 then mulNum p.1 p.2 else sumNums mode [p.1, p.2]
        (if sr = 1 then minNum a.1 q.1 else maxNum a.1 q.1, a.2 ||| q.2)) (old, 0)
  let f := roundFloat .fp32 mode false r.1
  (f.1, r.2 ||| f.2)

/-- The integer a value stands for, 0 for one that is none. -/
def Num.toInt' : Num → Int
  | .fin neg m e => let v : Int := (m * 2 ^ e.toNat : Nat); if neg then -v else v
  | _ => 0

/-- One step of an s32 cell: s8 products saturate or wrap, or-and gives 0 or 1 (R145, R149). -/
def intStep (sr : Nat) (wrap : Bool) (acc : Nat) (ps : List (Num × Num)) : Nat × FlagSet :=
  if sr = 4 then
    (if acc != 0 || ps.any fun p => p.1.toInt' != 0 && p.2.toInt' != 0 then 1 else 0, 0)
  else
    sealInt (!wrap) ⟨32, true⟩ (ps.foldl (fun a p => a + p.1.toInt' * p.2.toInt') (signed acc 32))

/-- The steps of a cell over its products in order, `per` at a time, at most `n` of them. -/
def cellSteps (step : Nat → List (Num × Num) → Nat × FlagSet) (per : Nat) :
    Nat → List (Num × Num) → Nat × FlagSet → Nat × FlagSet
  | 0, _, a => a
  | _, [], a => a
  | n + 1, ps, a =>
    let r := step a.1 (ps.take per)
    cellSteps step per n (ps.drop per) (r.1, a.2 ||| r.2)

/-- The slices of an FP32 value (R147). -/
def splitFP32 (x : Num) : Num × Num × Num :=
  match x with
  | .fin _ _ _ =>
    let part (y : Num) : Num := decodeFloat .bf16 (roundFloat .bf16 modeRZ false y).1
    let less (a b : Num) : Num := (sumNums 0 [a, b.neg]).1
    let h := part x
    let m := part (less x h)
    (h, m, part (less (less x h) m))
  | _ => (x, Num.zero, Num.zero)

/-- The slices that a pass of R148 multiplies. -/
def passSlices (pass : Nat) (a b : Num × Num × Num) : Num × Num :=
  match pass with
  | 0 => (a.2.2, b.1)
  | 1 => (a.1, b.2.2)
  | 2 => (a.2.1, b.2.1)
  | 3 => (a.2.1, b.1)
  | 4 => (a.1, b.2.1)
  | _ => (a.1, b.1)

/-- The products of a cell in the order of its steps: one pass, or the six of R148. -/
def cellProducts (passes : Nat) (a b : List Num) : List (Num × Num) :=
  if passes = 1 then a.zip b
  else
    let l := (a.map splitFP32).zip (b.map splitFP32)
    (List.range 6).flatMap fun p => l.map fun e => passSlices p e.1 e.2

/-- The step before which `mma` stops on poison, with the location of the poison (R174). -/
def State.mmaPoison (s : State) (c : Nat) (m : MatrixCmd) (b per : Nat) : Option (Nat × Nat) :=
  let rb := rowBytes c m.bf
  (List.range m.k).findSome? fun k =>
    let g := (List.range (mxRows c)).findSome? (fun i => s.aPoison c m (m.elemAt i k)) <|>
      s.poisoned (sramLoc c (b + rb * k)) (sramLoc c (b + rb * k) + rb)
    g.map fun g => (k / per, g)

/-- What a command comes to: the accumulators it writes, its flags, and the poison that ended it. -/
abbrev Computed := List (Nat × Nat) × FlagSet × Option Nat

/-- `mma` (R162, R174). `b` is the offset of the latch buffer. -/
def State.runMma (s : State) (c : Nat) (m : MatrixCmd) (b : Nat) (acc : FMap Word) : Computed :=
  let p := (mmaPairing m.sr m.af m.bf).getD ⟨1, 1, 1⟩
  let bad := s.mmaPoison c m b p.per
  let steps := match bad with | some e => e.1 | none => p.passes * ceilDiv m.k p.per
  let ks := List.range m.k
  let rows := (List.range (mxRows c)).map fun i => ks.map fun k => s.aValue c m (m.elemAt i k)
  let cols := (List.range (mxCols c)).map fun n => ks.map fun k => s.bValue c m.bf (b + rowBytes c m.bf * k) n
  let used := if bad.isSome then steps * p.per else m.k
  let step := if accInts m.sr m.af m.bf then intStep m.sr m.wrap else floatStep m.sr m.mode
  let out := (List.range (mxRows c)).flatMap fun i =>
    let a := rows.getD i []
    let fa := (a.take used).foldl (fun f e => f ||| e.2) 0
    (List.range (mxCols c)).map fun n =>
      let key := accKey m.bank i n
      let r := cellSteps step p.per steps (cellProducts p.passes (a.map (·.1)) (cols.getD n [])) ((FMap.get acc key 0).toNat, fa)
      (key, r)
  (out.map fun e => (e.1, e.2.1), out.foldl (fun f e => f ||| e.2.2) 0, bad.map (·.2))

/-- The lane step before which `mmv` stops on poison, with the location (R174). -/
def State.mmvPoison (s : State) (c : Nat) (m : MatrixCmd) (b per : Nat) : Option (Nat × Nat) :=
  let w := bSize m.bf
  let each := ceilDiv m.k per
  (List.range (ceilDiv m.nout (mxCols c) * each)).findSome? fun t =>
    let lo := t % each * per
    let ks := (List.range (min per (m.k - lo))).map (lo + ·)
    let ns := (List.range (mxCols c)).map (t / each * mxCols c + ·) |>.filter (· < m.nout)
    let g := ks.findSome? fun k =>
      ns.findSome? (fun n => s.aPoison c m (m.elemAt n k)) <|>
        s.poisoned (sramLoc c (b + w * k)) (sramLoc c (b + w * k) + w)
    g.map fun g => (t, g)

/-- `mmv` (R167, R174). -/
def State.runMmv (s : State) (c : Nat) (m : MatrixCmd) (b : Nat) (acc : FMap Word) : Computed :=
  let per := (mmvStep c m.af m.bf).getD 1
  let each := ceilDiv m.k per
  let bad := s.mmvPoison c m b per
  let x := (List.range m.k).map fun k => s.bValue c m.bf b k
  let out := (List.range m.nout).map fun n =>
    let steps := match bad with | some e => min each (e.1 - n / mxCols c * each) | none => each
    let a := (List.range m.k).map fun k => s.aValue c m (m.elemAt n k)
    let fa := (a.take (steps * per)).foldl (fun f e => f ||| e.2) 0
    let key := accKey m.bank (n / mxCols c) (n % mxCols c)
    (key, cellSteps (floatStep 0 m.mode) per steps ((a.map (·.1)).zip x) ((FMap.get acc key 0).toNat, fa))
  (out.map fun e => (e.1, e.2.1), out.foldl (fun f e => f ||| e.2.2) 0, bad.map (·.2))

/-! Issue checks (R164). -/

/-- A raw access to bytes of the scratchpad is allowed to the thread whose turn it is. A command that reads or writes the
scratchpad waits while a change of `l1cfg` is in progress on its tile (R85 step 4). -/
def State.rawOk (s : State) (lo n : Nat) : Bool := s.ownAllowed s.issuer lo n

/-- A core's latch does not break R157: both buffers lie where a raw access of the thread that wrote `mx.lat` is permitted, and
off the spill ring. -/
def State.latchOk (s : State) (c : Nat) : Bool :=
  let k := s.core c
  let x := k.cx.mx
  let lo := x.bufBase 0
  let n := 2 * x.bufSize
  let writer : Issuer := { core := c, slot := 0, sup := x.latFree, gustProfile := none, gang := none, asid := 0, tag := none,
                           window := none }
  x.bufSize != 0 && s.ownAllowed writer lo n &&
    !(decide (k.spbase.toNat < lo + n) && decide (lo < k.spbase.toNat + k.spsize.toNat))

/-- The first row of A, or of its scales, that a raw access may not reach: its offset (R158, R164). -/
def State.aBadRow (s : State) (m : MatrixCmd) (rows : Nat) : Option Nat :=
  (List.range rows).findSome? fun i =>
    let e := m.elemAt i 0
    let z := m.elemAt i (m.k - 1)
    let d := aData m.af e
    let y := aData m.af z
    if !s.rawOk d.1 (y.1 + y.2 - d.1) then some d.1
    else
      match aScale m.af m.scb e, aScale m.af m.scb z with
      | some a, some b => if a.1 ≤ b.1 ∧ s.rawOk a.1 (b.1 + b.2 - a.1) then none else some a.1
      | _, _ => none

/-- The trap of a scratchpad access that is not allowed (R83, R164). -/
def State.rowTrap (s : State) (w : Word) (code off : Nat) : Res :=
  s.accessTrap w code (BitVec.ofNat 64 (0x10 * 2 ^ 56 + off % 2 ^ 32))

/-- A trap of cause MATRIX. -/
def matrixTrap (code : Nat) (s : State) : Res := .trap causeMatrix (BitVec.ofNat 64 code) s

/-- The command as the slot's registers give it now (R157). -/
def State.matrixCmd (s : State) (op : MatrixOp) (base rt sr : Nat) : MatrixCmd :=
  let e (n : Nat) : Nat := (s.th.getE n).toNat
  { op := op, slot := s.slot, ctx := s.act.ctx, asid := s.act.asid, serial := s.th.csr.ser, base := base, bank := bits rt 0 2
    rel := bit rt 2, k := bits (e 0) 0 13, af := bits (e 1) 0 4, bf := bits (e 1) 4 4, scb := bits (e 3) 0 32
    astr := bits (e 4) 0 24, stride := bits (e 7) 16 32, ofmt := bits (e 7) 0 4, nout := bits (e 8) 0 12, sr := sr
    mode := s.effMode, wrap := s.optSat == 2 }

/-- The semiring of a command: the prefix's, else `mx.sr` (R74, R149). -/
def State.semiring (s : State) : Nat := if s.optRing = 0 then bits (s.th.getE 2).toNat 0 3 else s.optRing - 1

/-- What R158 asks of K, the base and the row stride is broken (R164 code 2). -/
def MatrixCmd.shapeBad (m : MatrixCmd) : Bool :=
  let q := aMultiple m.af
  m.k == 0 || decide (4096 < m.k) || m.k % q != 0 || baseBad m.af m.base || firstElem m.af m.base % q != 0 || m.astr % q != 0

/-- The longest command allowed (R164 code 3). -/
def State.lengthMax (s : State) : Nat := if s.th.csr.gelig then 512 else 1024

/-- The checks of R164 on `mma`, by code; 0 when they pass. -/
def State.mmaRefuses (s : State) (m : MatrixCmd) (rt count : Nat) : Nat :=
  match mmaPairing m.sr m.af m.bf with
  | none => 1
  | some p =>
    if m.shapeBad then 2
    else if s.lengthMax < p.passes * ceilDiv m.k p.per * p.len then 3
    else if count ≠ m.k * rowBytes s.cur m.bf then 4
    else if bit rt 2 && !bit (s.core s.cur).cx.mx.ring.toNat 63 then 5
    else if !s.latchOk s.cur then 6
    else if bits rt 3 29 ≠ 0 then 8
    else 0

/-- The checks of R164 on `mmv`, by code; 0 when they pass. -/
def State.mmvRefuses (s : State) (m : MatrixCmd) (rt count : Nat) : Nat :=
  match (if m.sr = 0 then mmvStep s.cur m.af m.bf else none) with
  | none => 1
  | some p =>
    if m.shapeBad || m.nout == 0 || decide ((if coreType s.cur = .reflex then 512 else 2048) < m.nout) then 2
    else if s.lengthMax < ceilDiv m.nout (mxCols s.cur) * ceilDiv m.k p then 3
    else if count ≠ m.k * bSize m.bf then 4
    else if bit rt 2 && !bit (s.core s.cur).cx.mx.ring.toNat 63 then 5
    else if !s.latchOk s.cur then 6
    else if bits rt 3 29 ≠ 0 then 8
    else 0

/-- The unit is free for the slot whose turn it is: no lower-numbered slot that waits for it can go first (R161). -/
def State.unitFree (s : State) : Bool :=
  let k := s.core s.cur
  k.cx.mx.running.isNone &&
    (List.range s.slot).all fun n =>
      match (k.thread n).run with
      | .blocked .unit => false
      | .blocked .unitBuf => k.cx.mx.headFull.isNone
      | _ => true

/-- A command issues: it claims the unit, its slot enters MATRIX and its bank is held (R161, R168). -/
def State.startMatrix (s : State) (m : MatrixCmd) : Res :=
  let s := s.modCx s.cur fun x => { x with mx := { x.mx with running := some m, held := FMap.put x.mx.held m.bank m.slot } }
  .done (s.modTh fun t => { t with run := .matrix })

/-- The hand-off of a command's buffer to the successor in the ring (R166). -/
def State.queueHandoff (s : State) (m : MatrixCmd) (buf : Nat) : State :=
  let x := (s.core s.cur).cx.mx
  let gang := match x.ringSlot.bind fun n => ((s.thread s.cur n).act.bind (·.gang)) with | some p => p.1 | none => 0
  let h : Handoff := { buf := buf, gang := gang, succ := bits x.ring.toNat 16 8, bytes := (x.buf buf).count, slot := m.slot,
                       serial := m.serial, asid := m.asid }
  s.modCx s.cur fun x => { x with mx := { x.mx with hands := x.mx.hands ++ [h] } }

/-- `mma` and `mmv`: the waits, the checks and the start (R161, R164, R166); the thread's earlier stores perform before the
command reads A and B (R131). A pending hand-off keeps its own buffer from being FULL and holds up no command that the other buffer
can serve (R161, R166; DESIGN CHOICE, log entry 97). -/
def State.matrixProduct (s : State) (w : Word) (op : MatrixOp) (a t : Reg) (refuses : MatrixCmd → Nat → Nat → Nat)
    (rows : MatrixCmd → Nat) : Res :=
  let x := (s.core s.cur).cx.mx
  match x.headFull with
  | none => .wait .unitBuf s
  | some b =>
    if !s.unitFree then .wait .unitBuf s
    else
      let rt := (s.x t).toNat
      let m := s.matrixCmd op (s.x a).toNat rt s.semiring
      let code := refuses m rt (x.buf b).count
      if code ≠ 0 then matrixTrap code s
      else if (s.core s.cur).l1pending.isSome then .wait .memory s
      else
        match s.aBadRow m (rows m) with
        | some off => s.rowTrap w causeRange off
        | none =>
          let s := s.drain.modCx s.cur fun y => { y with mx := y.mx.setBuf b { y.mx.buf b with st := .busy } }
          let s := if bit rt 2 then s.queueHandoff m b else s
          s.startMatrix { m with rel := false, buf := some b }

/-- `mma` (R162). -/
def execMma (a : Reg) (t : Reg) (s : State) : Out :=
  issue (.mma a t) (fun s => s.matrixProduct (encode (.mma a t)) .mma a t s.mmaRefuses fun _ => mxRows s.cur) s

/-- `mmv` (R167). -/
def execMmv (a : Reg) (t : Reg) (s : State) : Out :=
  issue (.mmv a t) (fun s => s.matrixProduct (encode (.mmv a t)) .mmv a t s.mmvRefuses (·.nout)) s

/-! `mst`, `mrd`, `mzero` (R169, R170, R426). -/

/-- Width of an element of `mst` in bytes by OFMT (R156). -/
def outSize (ofmt : Nat) : Nat := if ofmt = 0 ∨ ofmt = 4 then 4 else if ofmt = 1 ∨ ofmt = 5 then 2 else 1

/-- A row of `mst` that is not allowed, or not aligned: the cause and the offset (R426). -/
def State.mstBad (s : State) (m : MatrixCmd) : Option (Nat × Nat) :=
  let n := mxCols s.cur * outSize m.ofmt
  let rows := (List.range (mxRows s.cur)).map fun i => m.base + i * m.stride
  ((rows.find? fun o => !s.rawOk o n).map fun o => (causeRange, o)) <|>
    ((rows.find? fun o => o % outSize m.ofmt != 0).map fun o => (causeAlign, o))

/-- `mst` (R169, R426). -/
def execMst (a : Reg) (t : Reg) (s : State) : Out :=
  issue (.mst a t) (fun s =>
    let rt := (s.x t).toNat
    let m := s.matrixCmd .mst (s.x a).toNat rt 0
    if !s.unitFree then .wait .unit s
    else if 6 < m.ofmt then matrixTrap 1 s
    else if bits rt 3 29 ≠ 0 then matrixTrap 8 s
    else if (s.core s.cur).l1pending.isSome then .wait .memory s
    else
      match s.mstBad m with
      | some e => s.rowTrap (encode (.mst a t)) e.1 e.2
      | none => s.startMatrix m) s

/-- `mrd` (R170, R426). -/
def execMrd (d : Reg) (a : Reg) (t : Reg) (s : State) : Out :=
  issue (.mrd d a t) (fun s =>
    let rs := (s.x a).toNat
    let rt := (s.x t).toNat
    let narrow := bit rt 3
    let row := bits rs 0 5
    let block := bits rs 5 3
    if s.fillingReg d.toNat then .trap causeMover 3 s
    else if !s.unitFree then .wait .unit s
    else if bits rs 8 24 ≠ 0 ∨ bits rt 4 28 ≠ 0 ∨ mxRows s.cur ≤ row ∨ mxCols s.cur / (if narrow then 16 else 8) ≤ block ∨
        (s.boundOf d.toNat).isSome then matrixTrap 8 s
    else s.startMatrix (s.matrixCmd (.mrd d.toNat row block narrow) 0 rt 0)) s

/-- `mzero` (R170). -/
def execMzero (t : Reg) (s : State) : Out :=
  issue (.mzero t) (fun s =>
    let rt := (s.x t).toNat
    let m := s.matrixCmd .mzero 0 rt (bits (s.th.getE 2).toNat 0 3)
    if !s.unitFree then .wait .unit s
    else if 4 < m.sr then matrixTrap 1 s
    else if bits rt 2 30 ≠ 0 then matrixTrap 8 s
    else s.startMatrix { m with rel := false }) s

/-! Completion (R163, R169, R170, R174). -/

/-- An accumulator element converted to an output format (R169). -/
def convertAcc (ints : Bool) (ofmt : Nat) (mode : RoundMode) (wrap : Bool) (v : Nat) : Nat × FlagSet :=
  let ifmt : IntFmt := ⟨8 * outSize ofmt, true⟩
  let ffmt : FloatFmt := if ofmt = 0 then .fp32 else if ofmt = 1 then .bf16 else if ofmt = 2 then .e4m3 else .e5m2
  let ocp := wrap
  if ofmt < 4 then roundFloat ffmt mode ocp (if ints then Num.ofInt (signed v 32) else decodeFloat .fp32 v)
  else if ints then sealInt (!wrap) ifmt (signed v 32)
  else toInt ifmt mode wrap (decodeFloat .fp32 v)

/-- The flags of a command reach `aflags` of its issuer (R151, R152). -/
def State.matrixFlags (s : State) (c : Nat) (m : MatrixCmd) (f : FlagSet) : State :=
  s.creditFlags c m.slot m.ctx m.asid true m.serial f

/-- `mst` writes its rows in ascending order (R169, R426). -/
def State.runMst (s : State) (c : Nat) (m : MatrixCmd) : State :=
  let x := (s.core c).cx.mx
  let w := outSize m.ofmt
  (List.range (mxRows c)).foldl (fun s i =>
    let row := (List.range (mxCols c)).map fun n =>
      convertAcc (x.ints.getLsbD m.bank) m.ofmt m.mode m.wrap (FMap.get x.acc (accKey m.bank i n) 0).toNat
    let s := s.store (sramLoc c (m.base + i * m.stride)) (row.flatMap fun e => leBytes w e.1)
    s.matrixFlags c m (row.foldl (fun f e => f ||| e.2) 0)) s

/-- `mrd` copies from a row of the bank into a vector register (R170). -/
def State.runMrd (s : State) (c : Nat) (m : MatrixCmd) (vd row block : Nat) (narrow : Bool) : State :=
  let x := (s.core c).cx.mx
  let at_ (n : Nat) : Nat := (FMap.get x.acc (accKey m.bank row n) 0).toNat
  if narrow then
    let l := (List.range 16).map fun j => convertAcc (x.ints.getLsbD m.bank) 1 m.mode false (at_ (16 * block + j))
    (s.modThread c m.slot (·.setV vd (ofLanes 2 (l.map (·.1))))).matrixFlags c m (l.foldl (fun f e => f ||| e.2) 0)
  else s.modThread c m.slot (·.setV vd (ofLanes 4 ((List.range 8).map fun j => at_ (8 * block + j))))

/-- Set accumulators, and the type of their bank. -/
def Matrix.setAcc (x : Matrix) (bank : Nat) (ints : Bool) (l : List (Nat × Nat)) : Matrix :=
  { x with acc := l.foldl (fun m e => FMap.set m e.1 (BitVec.ofNat 32 e.2) 0) x.acc
           ints := if ints then x.ints ||| BitVec.ofNat 4 (2 ^ bank) else x.ints &&& ~~~BitVec.ofNat 4 (2 ^ bank) }

/-- Every element of a bank of a core at one value. -/
def bankOf (c bank v : Nat) : List (Nat × Nat) :=
  (List.range (mxRows c)).flatMap fun i => (List.range (mxCols c)).map fun n => (accKey bank i n, v)

/-- The work of a command: the state after it, and the poison that ended it. -/
def State.runMatrix (s : State) (c : Nat) (m : MatrixCmd) : State × Option Nat :=
  let x := (s.core c).cx.mx
  let product (r : Computed) : State × Option Nat :=
    ((s.modCx c fun y => { y with mx := y.mx.setAcc m.bank (accInts m.sr m.af m.bf) r.1 }).matrixFlags c m r.2.1, r.2.2)
  match m.op with
  | .mma => product (s.runMma c m (x.bufBase (m.buf.getD 0)) x.acc)
  | .mmv => product (s.runMmv c m (x.bufBase (m.buf.getD 0)) x.acc)
  | .mst => (s.runMst c m, none)
  | .mrd vd row block narrow => (s.runMrd c m vd row block narrow, none)
  | .mzero =>
    let clear (y : Matrix) : Matrix := y.setAcc m.bank (accInts m.sr m.af m.bf) (bankOf c m.bank (ringZero m.sr))
    (s.modCx c fun y => { y with mx := clear y.mx }, none)

/-- The command's buffer is free once its hand-off, if any, has finished (R159, R166). -/
def Matrix.releaseBuf (x : Matrix) (b : Nat) : Matrix :=
  if x.hands.any (·.buf == b) then { x with hands := x.hands.map fun h => if h.buf = b then { h with cmdDone := true } else h }
  else x.setBuf b {}

/-- The running matrix command of a core completes: the bank is written, the flags merge, and the unit and the slot are
free; poison traps the slot (R163, R168, R174). The latch buffer is let go at the end of either kind, of which the spec says
nothing for POISON (DESIGN CHOICE, log entry 98). -/
def State.matrixDone (s : State) (c : Nat) : State :=
  match (s.core c).cx.mx.running with
  | none => s
  | some m =>
    let (s, bad) := s.runMatrix c m
    let s := s.modCx c fun x =>
      let y := match m.buf with | some b => x.mx.releaseBuf b | none => x.mx
      { x with mx := { y with running := none, held := if m.rel then FMap.del y.held m.bank else y.held } }
    match bad with
    | some g =>
      (s.modThread c m.slot fun t => { t with run := .ready }).takeTrap c m.slot causePoison
        (BitVec.ofNat 64 (0x10 * 2 ^ 56 + (g - sramLoc c 0)))
    | none => (s.modThread c m.slot fun t => t.retire (t.bank.pc + 4) false).retired c m.slot (s.thread c m.slot).words

/-- MATRIX_COMMAND_COMPLETE (R163). -/
def execMatrixCommandComplete (core : Nat) (s : State) : Out := event (isTile core) (fun s => s.matrixDone core) s

/-! Latch fills (R425). -/

/-- The EMPTY buffer a claimant takes: buffer 0 first (R159). -/
def Matrix.emptyBuf (x : Matrix) : Option Nat :=
  if x.buf0.st = .empty then some 0 else if x.buf1.st = .empty then some 1 else none

/-- A fill claims a buffer, and goes on without the thread, whose earlier stores perform first (R131, R425). -/
def State.claimFill (s : State) (src : FillSrc) (n : Nat) : Res :=
  let x := (s.core s.cur).cx.mx
  match x.emptyBuf with
  | none => .wait .latch s
  | some b =>
    let f : Fill := { buf := b, src := src, total := n, got := 0, slot := s.slot }
    let claim (y : Matrix) : Matrix := { y.setBuf b { st := .filling, count := n } with fills := y.fills ++ [f] }
    .retire (s.drain.modCx s.cur fun y => { y with mx := claim y.mx })

/-- The byte count of a fill is bad (R425). -/
def State.fillBad (s : State) (n : Nat) : Bool := n == 0 || n % 32 != 0 || decide ((s.core s.cur).cx.mx.bufSize < n)

/-- `mldb` (R425). -/
def execMldb (a : Reg) (t : Reg) (s : State) : Out :=
  issue (.mldb a t) (fun s =>
    let off := (s.x a).toNat
    let n := (s.x t).toNat
    if !s.latchOk s.cur then matrixTrap 6 s
    else if s.fillBad n then matrixTrap 4 s
    else if (s.core s.cur).l1pending.isSome then .wait .memory s
    else if !s.rawOk off n then s.rowTrap (encode (.mldb a t)) causeRange off
    else s.claimFill (.sram off) n) s

/-- `mldb.s` (R425). -/
def execMldbS (v : Reg) (t : Reg) (s : State) : Out :=
  issue (.mldbS v t) (fun s =>
    let n := (s.x t).toNat
    if !s.latchOk s.cur then matrixTrap 6 s
    else if s.fillBad n then matrixTrap 4 s
    else
      match s.boundOf v.toNat with
      | none => .trap causeMover 3 s
      | some b =>
        if s.fillingReg v.toNat || !b.isSource then .trap causeMover 3 s
        else
          match s.claimFill (.bound s.slot v.toNat) n with
          | .retire s => .retire (s.modBound s.cur s.slot v.toNat fun b => { b with filling := true })
          | r => r) s

/-- Copy bytes of a core's SRAM, poison included, to another place. -/
def State.copySram (s : State) (src dst n : Nat) : State :=
  let t := s.store dst (s.read src n)
  (s.poison.filter fun g => decide (src < g + 8) && decide (g < src + n)).foldl (fun t g => t.poisonAt (dst + (g - src))) t

/-- The entries of a bound register go to a fill, as they come (R425); `fuel` bounds them. -/
def State.fillFrom (s : State) (c : Nat) (f : Fill) (slot reg : Nat) : Nat → State
  | 0 => s
  | fuel + 1 =>
    let x := (s.core c).cx
    let swap (g : Fill) (y : Matrix) : Matrix := { y with fills := y.fills.map fun h => if h = f then g else h }
    let put (g : Fill) (s : State) : State := s.modCx c fun x => { x with mx := swap g x.mx }
    let finish (s : State) (g : Fill) : State :=
      (s.modCx c fun x => { x with mx := x.mx.endFill g }).modBound c slot reg fun b => { b with filling := false }
    if f.total ≤ f.got then finish s f
    else
      match (x.boundReg slot reg).map (·.fifo) with
      | some (some v :: _) =>
        let g := { f with got := f.got + 32 }
        let s := s.store (sramLoc c (x.mx.bufBase f.buf + f.got)) (leBytes 32 v.toNat)
        let s := s.modBound c slot reg fun b =>
          match b.kind with
          | .chanIn _ _ _ => { b with fifo := b.fifo.drop 1, readBufs := b.readBufs + 1 }
          | _ => Bound.settle { b with fifo := b.fifo.drop 1 } 6
        (put g s).fillFrom c g slot reg fuel
      | some (none :: _) =>
        let s := (s.zeroFill c x.mx f).modThread c slot fun t =>
          { t with csr := { t.csr with chst := t.csr.chst ||| BitVec.ofNat 8 (2 ^ (reg - 24)) } }
        finish s f
      | _ => s

/-- A latch fill goes on: from scratchpad it writes all its bytes, from a bound register those that are there (R425). -/
def State.fillStep (s : State) (c buf : Nat) : State :=
  let x := (s.core c).cx.mx
  match x.fills.find? (·.buf == buf) with
  | none => s
  | some f =>
    match f.src with
    | .sram off =>
      (s.copySram (sramLoc c off) (sramLoc c (x.bufBase buf)) f.total).modCx c fun y => { y with mx := y.mx.endFill f }
    | .bound slot reg => s.fillFrom c f slot reg 4097

/-- LATCH_FILL_COMPLETE (R425). -/
def execLatchFillComplete (core buf : Nat) (s : State) : Out :=
  event (isTile core && decide (buf < 2)) (fun s => if (s.core core).enginesRun then s.fillStep core buf else s) s

/-- A fill could move bytes now. -/
def Core.fillDue (k : Core) (buf : Nat) : Bool :=
  k.enginesRun &&
    k.cx.mx.fills.any fun f => f.buf == buf &&
      (match f.src with
        | .sram _ => true
        | .bound slot reg => (k.cx.boundReg slot reg).any fun b => !b.fifo.isEmpty)

/-! The ring and the hand-off (R165, R166). -/

/-- The place of a tile along the serpentine walk (R165). -/
def serpentine (t : Nat) : Nat := t / 16 * 16 + (if t / 16 % 2 = 0 then t % 16 else 15 - t % 16)

/-- Insert a member by the serpentine place of its tile. -/
def insertRing (e : Nat × Nat) : List (Nat × Nat) → List (Nat × Nat)
  | [] => [e]
  | f :: r => if serpentine e.2 < serpentine f.2 then e :: f :: r else f :: insertRing e r

/-- The logical ids of a ring in ring order before the rotation (R165). -/
def Gang.ringOrder (g : Gang) (first n : Nat) : List Nat :=
  let ids := (List.range n).filterMap fun j => (FMap.find g.members (first + j)).map fun m => (first + j, m.home)
  (ids.foldl (fun l e => insertRing e l) []).map (·.1)

/-- `mring` (R165). -/
def execMring (d : Reg) (a : Reg) (t : Reg) (s : State) : Out :=
  issue (.mring d a t) (fun s =>
    let first := (s.x a).toNat
    let n := (s.x t).toNat
    match s.act.gang.bind fun p => (s.gang p.1).map fun g => (g, p.2) with
    | none => matrixTrap 7 s
    | some (g, me) =>
      if n = 0 ∨ 16 < n ∨ g.n < first + n ∨ me < first ∨ first + n ≤ me then matrixTrap 7 s
      else
        let l := g.ringOrder first n
        let i := l.idxOf me
        let pos := (i + n - l.idxOf first) % n
        let succ := l.getD ((i + 1) % n) me
        let v := 2 ^ 63 + n * 2 ^ 32 + pos * 2 ^ 24 + succ * 2 ^ 16 + first * 2 ^ 8
        (s.modCx s.cur fun x => { x with mx := { x.mx with ring := BitVec.ofNat 64 v, ringSlot := some s.slot } }).retX d
          (BitVec.ofNat 32 pos)) s

/-- A hand-off ends: its buffer is free once its command has completed (R166). -/
def Matrix.endHandoff (x : Matrix) (h : Handoff) : Matrix :=
  let x := { x with hands := x.hands.filter fun g => !(g.buf == h.buf) }
  if h.cmdDone then x.setBuf h.buf {} else x

/-- The tile of a hand-off's successor, unless the member has ended (R166). -/
def State.handoffTile (s : State) (h : Handoff) : Option Nat :=
  match s.gang h.gang with
  | none => none
  | some g =>
    match FMap.find g.members h.succ with
    | none => none
    | some m => if m.st = .running then s.memberTile (some (h.gang, h.succ)) h.succ else none

/-- A pending hand-off claims an EMPTY buffer at the successor, or is given up with a record (R166, R173). A successor whose
buffers break R157 counts as one with no latch: no thread is there to trap (DEDUCED, log entry 75). -/
def State.handoffStart (s : State) (c : Nat) : State :=
  match (s.core c).cx.mx.hands.find? fun h => h.claimed.isNone with
  | none => s
  | some h =>
    let giveUp : State :=
      (s.record 0x07 2 h.asid.toNat (unitIndex c) h.slot (unitCode c)
        [(16, 4, h.serial.toNat), (20, 4, h.bytes), (24, 1, h.succ)]).modCx c fun x => { x with mx := x.mx.endHandoff h }
    match s.handoffTile h with
    | none => giveUp
    | some d =>
      let k := s.core d
      if isAway d || k.saved.isSome || !k.enginesRun then s
      else if k.cx.mx.bufSize = 0 ∨ k.cx.mx.bufSize < h.bytes ∨ !s.latchOk d then giveUp
      else
        match k.cx.mx.emptyBuf with
        | none => s
        | some b =>
          let s := s.modCx d fun x => { x with mx := x.mx.setBuf b { st := .filling, count := h.bytes } }
          s.modCx c fun x => { x with mx := { x.mx with
            hands := x.mx.hands.map fun g => if g.buf = h.buf then { g with claimed := some (d, b) } else g } }

/-- HANDOFF_CLAIM (R166). -/
def execHandoffClaim (core : Nat) (s : State) : Out :=
  event (isTile core) (fun s => if (s.core core).enginesRun then s.handoffStart core else s) s

/-- The last byte of a claimed hand-off arrives (R166). -/
def State.handoffEnd (s : State) (c : Nat) : State :=
  match (s.core c).cx.mx.hands.find? fun h => h.claimed.isSome with
  | none => s
  | some h =>
    let (d, b) := h.claimed.getD (c, 0)
    let k := s.core d
    if isAway d || k.saved.isSome || !k.enginesRun then s
    else
      let src := sramLoc c ((s.core c).cx.mx.bufBase h.buf)
      let s := s.copySram src (sramLoc d (k.cx.mx.bufBase b)) h.bytes
      let s := s.modCx d fun x => { x with mx := x.mx.fillUp b }
      s.modCx c fun x => { x with mx := x.mx.endHandoff h }

/-- HANDOFF_COMPLETE (R166). -/
def execHandoffComplete (core : Nat) (s : State) : Out :=
  event (isTile core) (fun s => if (s.core core).enginesRun then s.handoffEnd core else s) s

end Sys2Proof.Machine
end

