-- ==== Sys2Proof/Machine/Sampling.lean ====
section
/-! DEFINITION. The sampling queue and the histograms: `qclaim` (R251, R439), `hacc` (R246, R405) and the arrival of posts
(R250). -/

namespace Sys2Proof.Machine

/-- A class is among those of a claim (R251). -/
def inMask (cm cls : Nat) : Bool := decide (1 ≤ cls) && bit cm (cls - 1)

/-- A claimer placed in line before a slot waits for a class of its address-space id (R439). -/
def State.claimedBefore (s : State) (c n : Nat) (asid : BitVec 16) (cls : Nat) : Bool :=
  (s.claimers.takeWhile fun k => !(k.core == c && k.slot == n)).any fun k => k.asid == asid && inMask k.cm cls

/-- The place in the queue of the entry that a claim takes: the highest class first, in it the oldest post, and none that an
earlier claimer waits for (R251, R439). -/
def State.claimable (s : State) (c n : Nat) (asid : BitVec 16) (cm : Nat) : Option Nat :=
  [1, 2, 3].findSome? fun cls =>
    if inMask cm cls && !s.claimedBefore c n asid cls then
      (List.range s.queue.length).find? fun i =>
        match s.queue[i]? with
        | some e => e.asid == asid && e.cls == cls
        | none => false
    else none

/-- The entries of the sampling queue (R250). -/
def queueSize : Nat := 4096

/-- An entry as the queue holds it. -/
def Message.entry (m : Message) : QEntry := { asid := m.asid, cls := rowClass m.payload, words := m.payload }

/-- Posts that wait at the queue's port enter as entries free, the oldest first, and their credits go back (R28, R250). -/
def State.admitPosts (s : State) : State :=
  let room := queueSize - s.queue.length
  let go := s.queuePort.take room
  go.foldl (fun s m => ({ s with queue := s.queue ++ [m.entry] } : State).returnCredit m)
    { s with queuePort := s.queuePort.drop room }

/-- `qclaim` (R251, R425, R439). -/
def execQclaim (d : Reg) (a : Reg) (s : State) : Out :=
  issue (.qclaim d a) (fun s =>
    let v := (s.x a).toNat
    let cm := bits v 0 3
    let asid := s.act.asid
    if bits v 3 29 ≠ 0 ∨ cm = 0 then .trap causeQueue 1 s
    else if (s.boundOf d.toNat).isSome then .trap causeQueue 2 s
    else if s.fillingReg d.toNat then .trap causeMover 3 s
    else
      match s.claimable s.cur s.slot asid cm with
      | some i =>
        let e := s.queue.getD i { asid := asid, cls := 0, words := [] }
        let s := { s with
          queue := s.queue.eraseIdx i
          claimers := s.claimers.filter fun k => !(k.core == s.cur && k.slot == s.slot) }
        .retire (s.admitPosts.modTh fun t => t.setV d.toNat (ofLanes 4 (e.words.map (·.toNat))))
      | none =>
        let me : Claimer := { core := s.cur, slot := s.slot, asid := asid, cm := cm }
        let there := s.claimers.any fun k => k.core == me.core && k.slot == me.slot
        .wait .queueClaim (if there then s else { s with claimers := s.claimers ++ [me] })) s

/-- `hacc` (R246, R405): the bin of the open bank counts one more, saturating. -/
def execHacc (a : Reg) (t : Reg) (s : State) : Out :=
  issue (.hacc a t) (fun s =>
    let c := (s.x a).toNat
    let b := (s.x t).toNat
    if bits c 5 27 ≠ 0 ∨ bits b 4 28 ≠ 0 ∨ 8 < b then .trap causeQueue 1 s
    else if s.gen.owner ≠ some s.act.asid then .trap causeQueue 3 s
    else
      let s := s.drain
      let bank := if s.gen.hbank then 1 else 0
      let v := s.bin bank c b
      .retire { s with gen := { s.gen with
        hist := FMap.set s.gen.hist (bank * 1024 + c * 16 + b) (if v = BitVec.allOnes 32 then v else v + 1) 0 } }) s

/-- SAMPLING_QUEUE_POST (R250): a row descriptor reaches the queue; while it is full the post waits at the port,
and no post overtakes an earlier one of its slot (R30). -/
def execSamplingQueuePost (i : Nat) (s : State) : Out :=
  event true (fun s =>
    match s.flight.messages[i]? with
    | some (dst, m) =>
      if dst ≠ queueDest || s.overtakes i (dst, m) then s
      else
        ({ s with
          queuePort := s.queuePort ++ [m]
          flight := { s.flight with messages := s.flight.messages.eraseIdx i } } : State).admitPosts
    | none => s) s

end Sys2Proof.Machine
end

