-- ==== Sys2Proof/Machine/Squall.lean ====
section
/-! DEFINITION. Squall: the candidates of a scan, their edges, and the reports of cycles and chains (R194 to R197, R507). -/

namespace Sys2Proof.Machine

/-- The objects a candidate can wait on, with their codes (R196). A wait for the matrix unit or a FULL buffer counts as a
channel wait that has no object of R196 and no edge (R161, R195; DEDUCED, log entry 74). -/
inductive SquallObj where
  | chanRead | chanCredit | counter | future | barrier | unit
  deriving DecidableEq, Repr

/-- The code of an object (R196). -/
def SquallObj.code : SquallObj → Nat
  | .chanRead => 0 | .chanCredit => 1 | .counter => 2 | .future => 3 | .barrier => 4 | .unit => 5

/-- A party of a scan: a slot by core and number. -/
abbrev Party := Nat × Nat

/-- The object that a blocked slot waits on, if it is one of those of R195. -/
def State.squallObj (s : State) (p : Party) : Option SquallObj :=
  let k := s.core p.1
  let t := k.thread p.2
  match t.run with
  | .blocked .counter => some .counter
  | .blocked .future => some .future
  | .blocked .barrier => some .barrier
  | .blocked .unit => some .unit
  | .blocked .unitBuf => some .unit
  | .blocked .bound =>
    match k.cx.boundReg p.2 t.waitObj with
    | some b =>
      match b.kind with
      | .chanIn _ _ _ => some .chanRead
      | .chanOut _ _ => some .chanCredit
      | _ => none
    | none => none
  | _ => none

/-- A slot is a candidate: blocked longer than THRESH on an object of R195, on a tile that no seizure has (R195, R219). -/
def State.candidate (s : State) (p : Party) : Option SquallObj :=
  let k := s.core p.1
  let tile := coreType p.1 == .reasoning || coreType p.1 == .reflex
  if tile && k.gust.isNone && k.saved.isNone &&
      decide (1000 * s.squall.thresh.toNat < s.clock.now - (k.thread p.2).blockedSince) then s.squallObj p else none

/-- The candidates of a scan. -/
def State.candidates (s : State) : List Party :=
  (s.cores.flatMap fun e => (List.range 4).map fun n => (e.1, n)).filter fun p => (s.candidate p).isSome

/-- The bound end that a party waits at. -/
def State.squallEnd (s : State) (p : Party) : Option Bound :=
  (s.core p.1).cx.boundReg p.2 (s.thread p.1 p.2).waitObj

/-- A mover command counts to a counter of a core (R182, R195). -/
def State.countsTo (s : State) (m : MoverCmd) (c n : Nat) : Bool :=
  m.cnt == n &&
    (match m.ct with
      | 0 => m.issuer.core == c
      | 1 =>
        let a : Dword := BitVec.ofNat 64 (m.e 1)
        if pathByte a = 0x10 then m.issuer.core == c
        else if pathByte a = 0x18 then
          match s.remoteTarget m.issuer (bits a.toNat 0 56) with
          | .inl d => d == c
          | .inr _ => false
        else false
      | _ => false)

/-- The mover commands of a channel that are in flight and count bytes: none of a read stream, nor one whose pattern is
complete (R182, R195, R447). -/
def TileCtx.counting (x : TileCtx) (ch : Nat) : List MoverCmd :=
  if (x.streamOf ch).any fun b => b.stream.any fun p => !p.2 then []
  else
    let v := x.mover ch
    (v.run.toList ++ v.queued.toList).filter fun m => decide (m.idx < m.total)

/-- The issuers of the mover commands in flight that count to a counter of a core (R195). -/
def State.counterParties (s : State) (c n : Nat) : List Party :=
  (s.cores.flatMap fun e =>
    (List.range 4).flatMap fun ch =>
      ((e.2.ctx.counting ch).filter fun m => s.countsTo { m with issuer := { m.issuer with core := e.1 } } c n).map fun m =>
        (e.1, m.issuer.slot)).eraseDups

/-- The parties that have not arrived in the phase of a barrier that a party waits for: members of its gang, or itself at a
private barrier (R195, R377, R379). -/
def State.barrierParties (s : State) (p : Party) : List Party :=
  let t := s.thread p.1 p.2
  let scope := bits t.waitObj 0 2
  if scope = 0 then []
  else
    match (t.act.bind (·.gang)).bind fun q => s.gang q.1 with
    | none => [p]
    | some g =>
      let d := barExtent p.1 scope
      let missing := g.members.filter fun e =>
        e.2.st == .running && (d.isNone || d == some (domainOf e.2.tile)) &&
          !reached (BitVec.ofNat 32 (FMap.get g.bars (barKey (scopeKey scope) (bits t.waitObj 2 4) e.1) 0))
            (BitVec.ofNat 32 (bits t.waitObj 6 32) + 1)
      missing.map fun e => (e.2.tile, e.2.slot)

/-- Where the edges of a candidate lead: its parties, or the end of the chain (R195, R196): 2 binding gone, 3 no edge. -/
def State.squallEdges (s : State) (p : Party) (o : SquallObj) : List Party × Nat :=
  match o with
  | .chanRead => match (s.squallEnd p).bind (s.farEnd p.1) with | some (d, b) => ([(d, b.slot)], 0) | none => ([], 2)
  | .chanCredit => match (s.squallEnd p).bind (s.farEnd p.1) with | some (d, b) => ([(d, b.slot)], 0) | none => ([], 2)
  | .counter => (s.counterParties p.1 (s.thread p.1 p.2).waitObj, 3)
  | .future => ([], 3)
  | .unit => ([], 3)
  | .barrier => (s.barrierParties p, 3)

/-- What a scan finds: a cycle, or a chain with its end. -/
structure Finding where
  cycle : Bool
  ending : Nat
  parties : List Party
  deriving DecidableEq, Repr

/-- Follow the edges from a party, the path to it newest first; `fuel` bounds the length. -/
def State.squallWalk (s : State) : Nat → List Party → Party → List Finding
  | 0, _, _ => []
  | fuel + 1, path, p =>
    if path.contains p then [{ cycle := true, ending := 0, parties := (p :: path.takeWhile (· != p)).reverse }]
    else if (s.thread p.1 p.2).run = .idle ∧ (s.core p.1).saved.isNone ∧ (s.core p.1).gust.isNone then
      [{ cycle := false, ending := 1, parties := (p :: path).reverse }]
    else
      match s.candidate p with
      | none => []
      | some o =>
        let e := s.squallEdges p o
        if e.1.isEmpty then [{ cycle := false, ending := e.2, parties := (p :: path).reverse }]
        else e.1.flatMap fun q => s.squallWalk fuel (p :: path) q

/-- The set of a finding's parties, in ascending order. -/
def Finding.key (f : Finding) : List Nat :=
  ((f.parties.foldl (fun m p => FMap.put m (slotKey p.1 p.2) ()) ([] : FMap Unit)).map (·.1))

/-- A cycle starts with its lowest party. -/
def Finding.turned (f : Finding) : Finding :=
  if !f.cycle then f
  else
    let low := f.key.headD 0
    let i := f.parties.findIdx fun p => slotKey p.1 p.2 == low
    { f with parties := f.parties.drop i ++ f.parties.take i }

/-- The candidates with an edge to a party (R195). -/
def State.awaiters (s : State) (p : Party) : List Party :=
  s.candidates.filter fun q => match s.candidate q with | some o => (s.squallEdges q o).1.contains p | none => false

/-- The findings of a scan, each set once; a chain is given whole, from a candidate that no candidate outside the chain waits
for (R195, R507; DEDUCED, log entry 74). -/
def State.squallFindings (s : State) : List Finding :=
  let all := s.candidates
  let found := all.flatMap fun p =>
    (s.squallWalk (all.length + 2) [] p).filter fun f => f.cycle || (s.awaiters p).all f.parties.contains
  found.foldl (fun (l : List Finding) f => if l.any fun g => g.key == f.key then l else l ++ [f.turned]) []

/-- A party's eight bytes in a report (R196): all of them have a meaning there, and none is a serial (R326; DEDUCED, log
entry 74). -/
def State.squallParty (s : State) (f : Finding) (i : Nat) (p : Party) : Nat :=
  let t := s.thread p.1 p.2
  let obj := s.candidate p
  let last := !f.cycle && i + 1 == f.parties.length
  let place := match obj with
    | some .chanRead => match (s.squallEnd p).bind (·.chan) with | some (_, _, q) => q + 8 * (t.waitObj - 24) | none => 0
    | some .chanCredit => match (s.squallEnd p).bind (·.chan) with | some (_, _, q) => q + 8 * (t.waitObj - 24) | none => 0
    | some .counter => t.waitObj
    | some .barrier => bits t.waitObj 2 4
    | _ => 0
  let time := match obj with
    | some _ => min ((s.clock.now - t.blockedSince) / 100000) 65535
    | none => 0
  let wait := match t.run with | .blocked w => w.code | _ => 0
  unitIndex p.1 + (p.2 + flagBit (coreType p.1 == .reflex) 2 + flagBit last 3) * 2 ^ 8 + wait * 2 ^ 16
    + (match obj with | some o => o.code | none => 5) * 2 ^ 24 + place * 2 ^ 32 + time * 2 ^ 48

/-- A report (R196). -/
def State.squallReport (s : State) (f : Finding) : State :=
  let n := min f.parties.length 5
  let first := f.parties.headD (0, 0)
  let asid := ((s.thread first.1 first.2).act.getD {}).asid
  s.feRecord 0x0E 2 asid.toNat
    ([(16, 1, flagBit f.cycle 0 + 2 * f.ending + 16 * n), (18, 2, f.parties.length), (20, 4, s.squall.thresh.toNat)] ++
      (List.range n).map fun i => (24 + 8 * i, 8, s.squallParty f i (f.parties.getD i (0, 0))))

/-- A scan: new sets are reported, and sets that persist are not reported again (R195). -/
def State.squallScan (s : State) : State :=
  if !s.squall.en then s
  else
    let found := s.squallFindings
    let fresh := found.filter fun f => !s.squall.reported.contains f.key
    let s := fresh.foldl State.squallReport s
    { s with squall := { s.squall with reported := found.map Finding.key } }

/-- SQUALL_SCAN (R195). -/
def execSquallScan (s : State) : Out := event true (fun s => s.squallScan) s

end Sys2Proof.Machine
end

