-- ==== Sys2Proof/Machine/System.lean ====
section
/-! DEFINITION. The system instructions: CSRs and engine registers (R387, R392), calls, traps and returns (R390), `halt`
(R406), `tinv` (R113), `safe` (R441) and the prefixes (R73, R74). -/

namespace Sys2Proof.Machine

/-- A read of a CSR (R387). -/
def execCsrr (d : Reg) (c : BitVec 8) (s : State) : Out :=
  issue (.csrr d c) (fun s =>
    if s.csrRefuses c.toNat ≠ 0 then .trap (s.csrRefuses c.toNat) (wordValue (encode (.csrr d c))) s
    else s.retX d (s.csrRead s.cur s.slot c.toNat)) s

/-- A CSR that is cleared by writing ones (R63). -/
def isClearCsr (n : Nat) : Bool := n == 0x03

/-- A write of a CSR by an instruction (R387, R388): a change of `l1cfg` interlocks its writer, and a second one waits for
the first (R85). -/
def State.putCsr (s : State) (w : Word) (n : Nat) (v : Word) : Res :=
  if s.csrRefuses n ≠ 0 then .trap (s.csrRefuses n) (wordValue w) s
  else if n = 0x43 ∧ (s.core s.cur).l1pending.isSome then .wait .interlock s
  else
    let r := s.csrWrite s.cur s.slot n v
    if r.2 then .leave (.blocked .interlock) r.1 else .retire r.1

/-- `csrw` (R387). -/
def execCsrw (a : Reg) (c : BitVec 8) (s : State) : Out :=
  issue (.csrw a c) (fun s => s.putCsr (encode (.csrw a c)) c.toNat (s.x a)) s

/-- `csrs` (R387). -/
def execCsrs (a : Reg) (c : BitVec 8) (s : State) : Out :=
  issue (.csrs a c) (fun s => s.putCsr (encode (.csrs a c)) c.toNat
    (if isClearCsr c.toNat then s.x a else s.csrRead s.cur s.slot c.toNat ||| s.x a)) s

/-- `csrc` (R387). -/
def execCsrc (a : Reg) (c : BitVec 8) (s : State) : Out :=
  issue (.csrc a c) (fun s => s.putCsr (encode (.csrc a c)) c.toNat
    (if isClearCsr c.toNat then s.x a else s.csrRead s.cur s.slot c.toNat &&& ~~~(s.x a))) s

/-- `ewr` (R392). -/
def execEwr (p : Reg) (n : BitVec 6) (s : State) : Out :=
  issue (.ewr p n) (fun s =>
    if hasEngine (coreType s.cur) n.toNat then .retire (s.engineWrite s.cur s.slot n.toNat (s.p p))
    else .trap causeIllegal (wordValue (encode (.ewr p n))) s) s

/-- `erd` (R392). -/
def execErd (d : Reg) (n : BitVec 6) (s : State) : Out :=
  issue (.erd d n) (fun s =>
    if hasEngine (coreType s.cur) n.toNat then s.retP d (s.engineRead s.cur s.slot n.toNat)
    else .trap causeIllegal (wordValue (encode (.erd d n))) s) s

/-- `ecall` (R390). -/
def execEcall (s : State) : Out := issue .ecall (fun s => .trap causeEcall 0 s) s

/-- `ebreak`: a stop for the debugger that has claimed it, else a trap; released from the stop it has no effect
(R321, R390). -/
def execEbreak (s : State) : Out :=
  issue .ebreak (fun s =>
    if s.th.ebkStop then .retire s
    else if (s.core s.cur).dbg.ebkclm && !s.isGust then
      .done ((s.modTh fun t => { t with ebkStop := true }).debugStop s.cur s.slot 3)
    else .trap causeEbreak 0 s) s

/-- `eret` (R302). -/
def execEret (s : State) : Out := issue .eret (fun s => s.returnFromTrap) s

/-- `halt` (R406). -/
def execHalt (s : State) : Out :=
  issue .halt (fun s => .leave (.suspended .preempted) (s.modTh fun t => { t with saveKind := 9 })) s

/-- The TLB entries that a `tinv` drops (R113). -/
def tinvDrops (current : BitVec 16) (a : Dword) (m : Word) (t : TlbEntry) : Bool :=
  let asid : BitVec 16 := m.extractLsb' 16 16
  let root := pathRoot (bits a.toNat 56 8)
  match bits m.toNat 0 2 with
  | 0 => dropsVa root current (bits a.toNat 0 56) t
  | 1 => dropsAsid asid t
  | 2 => true
  | _ => dropsVa root asid (bits a.toNat 0 56) t

/-- `tinv` (R113). -/
def execTinv (p : Reg) (m : Reg) (s : State) : Out :=
  issue (.tinv p m) (fun s =>
    let a := s.p p
    let v := s.x m
    let byVa := bits v.toNat 0 2 == 0 || bits v.toNat 0 2 == 3
    if bits v.toNat 2 14 ≠ 0 then .trap causeIllegal (wordValue (encode (.tinv p m))) s
    else if byVa && !isTranslated (bits a.toNat 56 8) then .trap causePath a s
    else .retire (s.tlbDrop s.cur (tinvDrops s.act.asid a v))) s

/-- `safe` (R67, R441). -/
def execSafe (h : BitVec 4) (n : BitVec 8) (s : State) : Out :=
  issue (.safe h n) (fun s =>
    let i := 256 * h.toNat + n.toNat
    let c := s.th.csr
    if c.lmcnt.toNat ≤ i then .trap causeSafe 4 s
    else .marked (s.modTh fun t => { t with safePt := some (t.bank.pc, (c.lmbase.toNat + 16 * i) % 2 ^ 64) })) s

/-- `pfx` of KIND 00 (R73). -/
def execPfxExt (p : BitVec 24) (s : State) : Out :=
  issue (.pfxExt p) (fun s => .pending (encode (.pfxExt p)) s) s

/-- `pfx` of KIND 01 (R74). -/
def execPfxOpt (p : BitVec 24) (s : State) : Out :=
  issue (.pfxOpt p) (fun s => .pending (encode (.pfxOpt p)) s) s

/-- A word that encodes nothing (R300); a P-format word of a reserved KIND traps as a prefix (R75). -/
def execIllegalEncoding (w : BitVec 32) (s : State) : Out :=
  .next (if bits w.toNat 26 6 = 63 then s.pfxTrap (wordValue w) else s.finish (.trap causeIllegal (wordValue w) s))

end Sys2Proof.Machine
end

