-- ==== Sys2Proof/Machine/Vector.lean ====
section
/-! DEFINITION. The vector instructions that touch no memory (R466 to R493). -/

namespace Sys2Proof.Machine

/-! Shared forms. -/

/-- A lane-wise result in the active lanes of a destination, with its flags (R467). -/
def State.putLanes (s : State) (d : Reg) (k : Word) (w : Nat) (f : Nat → Nat × FlagSet) : Res :=
  .retire ((s.vput d.toNat (mapLanes k w (s.vold d.toNat) fun i => (f i).1)).flag (laneFlags k w fun i => (f i).2))

/-- The saturation that an entry marked sat uses (R469). -/
def State.saturates (s : State) : Bool := s.optSat == 1

/-- A lane-wise integer operation on two sources (R471). -/
def State.vecInt2 (s : State) (d a b : Reg) (k : BitVec 3) (y : BitVec 3) (u : BitVec 1)
    (op : IntFmt → Nat → Nat → Nat × FlagSet) : Res :=
  s.vector [a.toNat, b.toNat] [d.toNat] fun s =>
    let e := elemOf y u
    let va := s.vsrc a.toNat
    let vb := s.vsrc b.toNat
    s.putLanes d (s.k k) e.bytes fun i => op e.ifmt (lane va e.bytes i) (lane vb e.bytes i)

/-- A lane-wise integer operation on one source (R471). -/
def State.vecInt1 (s : State) (d a : Reg) (k : BitVec 3) (y : BitVec 3) (op : IntFmt → Nat → Nat × FlagSet) : Res :=
  s.vector [a.toNat] [d.toNat] fun s =>
    let e := elemOf y 0
    let va := s.vsrc a.toNat
    s.putLanes d (s.k k) e.bytes fun i => op e.ifmt (lane va e.bytes i)

/-- A lane-wise floating operation on two sources (R472). -/
def State.vecFlt2 (s : State) (d a b : Reg) (k : BitVec 3) (y : BitVec 3)
    (op : FloatFmt → Num → Num → Nat × FlagSet) : Res :=
  s.vector [a.toNat, b.toNat] [d.toNat] fun s =>
    let e := elemOf y 0
    let va := s.vsrc a.toNat
    let vb := s.vsrc b.toNat
    s.putLanes d (s.k k) e.bytes fun i => op e.ffmt (e.num (lane va e.bytes i)) (e.num (lane vb e.bytes i))

/-- A lane-wise floating operation on one source (R472, R484). -/
def State.vecFlt1 (s : State) (d a : Reg) (k : BitVec 3) (y : BitVec 3) (op : FloatFmt → Num → Nat × FlagSet) : Res :=
  s.vector [a.toNat] [d.toNat] fun s =>
    let e := elemOf y 0
    let va := s.vsrc a.toNat
    s.putLanes d (s.k k) e.bytes fun i => op e.ffmt (e.num (lane va e.bytes i))

/-- A lane-wise floating operation on two sources and the destination's old lanes (R472). -/
def State.vecFlt3 (s : State) (d a b : Reg) (k : BitVec 3) (y : BitVec 3)
    (op : FloatFmt → Num → Num → Num → Nat × FlagSet) : Res :=
  s.vector [a.toNat, b.toNat, d.toNat] [d.toNat] fun s =>
    let e := elemOf y 0
    let va := s.vsrc a.toNat
    let vb := s.vsrc b.toNat
    let vc := s.vsrc d.toNat
    s.putLanes d (s.k k) e.bytes fun i =>
      op e.ffmt (e.num (lane va e.bytes i)) (e.num (lane vb e.bytes i)) (e.num (lane vc e.bytes i))

/-- A sum of values, rounded once (R469). -/
def roundSum (f : FloatFmt) (mode : RoundMode) (l : List Num) : Nat × FlagSet :=
  let r := sumNums mode l
  let q := roundFloat f mode false r.1
  (q.1, r.2 ||| q.2)

/-- A product plus an addend, rounded once (R472). -/
def roundFma (f : FloatFmt) (mode : RoundMode) (a b c : Num) : Nat × FlagSet :=
  let p := mulNum a b
  let q := roundSum f mode [p.1, c]
  (q.1, p.2 ||| q.2)

/-- The bits of a value that its format represents. -/
def exactBits (f : FloatFmt) (n : Num) : Nat := (roundFloat f 0 false n).1

/-- A value without its sign. -/
def Num.abs : Num → Num
  | .nan => .nan
  | .inf _ => .inf false
  | .fin _ m e => .fin false m e

/-- A shift left of a lane by an unsigned amount (R471). -/
def laneSll (f : IntFmt) (a b : Nat) : Nat := if f.width ≤ b then 0 else a * 2 ^ b % 2 ^ f.width

/-- A logical shift right (R471). -/
def laneSrl (f : IntFmt) (a b : Nat) : Nat := if f.width ≤ b then 0 else a / 2 ^ b

/-- An arithmetic shift right (R471). -/
def laneSra (f : IntFmt) (a b : Nat) : Nat := wrapTo (signed a f.width / (2 : Int) ^ (min b (f.width - 1))) f.width

/-! Integer lanes (R471). -/

/-- `vadd` (R471). -/
def execVadd (d : Reg) (a : Reg) (b : Reg) (k : BitVec 3) (y : BitVec 3) (u : BitVec 1) (s : State) : Out :=
  issue (.vadd d a b k y u) (fun s => s.vecInt2 d a b k y u fun f p q => sealInt s.saturates f (f.decode p + f.decode q)) s

/-- `vsub` (R471). -/
def execVsub (d : Reg) (a : Reg) (b : Reg) (k : BitVec 3) (y : BitVec 3) (u : BitVec 1) (s : State) : Out :=
  issue (.vsub d a b k y u) (fun s => s.vecInt2 d a b k y u fun f p q => sealInt s.saturates f (f.decode p - f.decode q)) s

/-- `vmul` (R471). -/
def execVmul (d : Reg) (a : Reg) (b : Reg) (k : BitVec 3) (y : BitVec 3) (u : BitVec 1) (s : State) : Out :=
  issue (.vmul d a b k y u) (fun s => s.vecInt2 d a b k y u fun f p q => sealInt s.saturates f (f.decode p * f.decode q)) s

/-- `vmin` (R471). -/
def execVmin (d : Reg) (a : Reg) (b : Reg) (k : BitVec 3) (y : BitVec 3) (u : BitVec 1) (s : State) : Out :=
  issue (.vmin d a b k y u) (fun s => s.vecInt2 d a b k y u fun f p q => (if f.decode q < f.decode p then q else p, 0)) s

/-- `vmax` (R471). -/
def execVmax (d : Reg) (a : Reg) (b : Reg) (k : BitVec 3) (y : BitVec 3) (u : BitVec 1) (s : State) : Out :=
  issue (.vmax d a b k y u) (fun s => s.vecInt2 d a b k y u fun f p q => (if f.decode p < f.decode q then q else p, 0)) s

/-- `vabs` (R471). -/
def execVabs (d : Reg) (a : Reg) (k : BitVec 3) (y : BitVec 3) (s : State) : Out :=
  issue (.vabs d a k y) (fun s => s.vecInt1 d a k y fun f p => sealInt s.saturates f (f.decode p).natAbs) s

/-- `vneg` (R471). -/
def execVneg (d : Reg) (a : Reg) (k : BitVec 3) (y : BitVec 3) (s : State) : Out :=
  issue (.vneg d a k y) (fun s => s.vecInt1 d a k y fun f p => sealInt s.saturates f (-(f.decode p))) s

/-- `vand` (R471). -/
def execVand (d : Reg) (a : Reg) (b : Reg) (k : BitVec 3) (y : BitVec 3) (s : State) : Out :=
  issue (.vand d a b k y) (fun s => s.vecInt2 d a b k y 0 fun _ p q => (Nat.land p q, 0)) s

/-- `vor` (R471). -/
def execVor (d : Reg) (a : Reg) (b : Reg) (k : BitVec 3) (y : BitVec 3) (s : State) : Out :=
  issue (.vor d a b k y) (fun s => s.vecInt2 d a b k y 0 fun _ p q => (Nat.lor p q, 0)) s

/-- `vxor` (R471). -/
def execVxor (d : Reg) (a : Reg) (b : Reg) (k : BitVec 3) (y : BitVec 3) (s : State) : Out :=
  issue (.vxor d a b k y) (fun s => s.vecInt2 d a b k y 0 fun _ p q => (Nat.xor p q, 0)) s

/-- `vandn` (R471). -/
def execVandn (d : Reg) (a : Reg) (b : Reg) (k : BitVec 3) (y : BitVec 3) (s : State) : Out :=
  issue (.vandn d a b k y) (fun s => s.vecInt2 d a b k y 0 fun _ p q => (p - Nat.land p q, 0)) s

/-- `vsll` (R471). -/
def execVsll (d : Reg) (a : Reg) (b : Reg) (k : BitVec 3) (y : BitVec 3) (s : State) : Out :=
  issue (.vsll d a b k y) (fun s => s.vecInt2 d a b k y 0 fun f p q => (laneSll f p q, 0)) s

/-- `vsrl` (R471). -/
def execVsrl (d : Reg) (a : Reg) (b : Reg) (k : BitVec 3) (y : BitVec 3) (s : State) : Out :=
  issue (.vsrl d a b k y) (fun s => s.vecInt2 d a b k y 0 fun f p q => (laneSrl f p q, 0)) s

/-- `vsra` (R471). -/
def execVsra (d : Reg) (a : Reg) (b : Reg) (k : BitVec 3) (y : BitVec 3) (s : State) : Out :=
  issue (.vsra d a b k y) (fun s => s.vecInt2 d a b k y 0 fun f p q => (laneSra f p q, 0)) s

/-- `vclamp`: the old lane between a lower and an upper bound (R471). -/
def execVclamp (d : Reg) (a : Reg) (b : Reg) (k : BitVec 3) (y : BitVec 3) (u : BitVec 1) (s : State) : Out :=
  issue (.vclamp d a b k y u) (fun s => s.vector [a.toNat, b.toNat, d.toNat] [d.toNat] fun s =>
    let e := elemOf y u
    let w := e.bytes
    let va := s.vsrc a.toNat
    let vb := s.vsrc b.toNat
    let vc := s.vsrc d.toNat
    let n (x : Nat) : Int := e.ifmt.decode x
    s.putLanes d (s.k k) w fun i =>
      (wrapInt e.ifmt (min (max (n (lane vc w i)) (n (lane va w i))) (n (lane vb w i))), 0)) s

/-- The source elements in a 32-bit lane (R473). -/
def dotLanes (w j : Nat) : List Nat := (List.range (4 / w)).map fun t => 4 / w * j + t

/-- `vdot` on integers (R473). -/
def execVdot (d : Reg) (a : Reg) (b : Reg) (k : BitVec 3) (y : BitVec 3) (u : BitVec 1) (s : State) : Out :=
  issue (.vdot d a b k y u) (fun s => s.vector [a.toNat, b.toNat, d.toNat] [d.toNat] fun s =>
    let e := elemOf y u
    let acc : IntFmt := ⟨32, e.ifmt.isSigned⟩
    let va := s.vsrc a.toNat
    let vb := s.vsrc b.toNat
    let vc := s.vsrc d.toNat
    s.putLanes d (s.k k) 4 fun j =>
      sealInt s.saturates acc ((dotLanes e.bytes j).foldl (fun v t =>
        v + e.ifmt.decode (lane va e.bytes t) * e.ifmt.decode (lane vb e.bytes t)) (acc.decode (lane vc 4 j)))) s

/-! Floating lanes (R472). -/

/-- `vadd` on floats (R472). -/
def execVaddF (d : Reg) (a : Reg) (b : Reg) (k : BitVec 3) (y : BitVec 3) (s : State) : Out :=
  issue (.vaddF d a b k y) (fun s => s.vecFlt2 d a b k y fun f p q => roundSum f s.effMode [p, q]) s

/-- `vsub` on floats (R472). -/
def execVsubF (d : Reg) (a : Reg) (b : Reg) (k : BitVec 3) (y : BitVec 3) (s : State) : Out :=
  issue (.vsubF d a b k y) (fun s => s.vecFlt2 d a b k y fun f p q => roundSum f s.effMode [p, q.neg]) s

/-- `vmul` on floats (R472). -/
def execVmulF (d : Reg) (a : Reg) (b : Reg) (k : BitVec 3) (y : BitVec 3) (s : State) : Out :=
  issue (.vmulF d a b k y) (fun s => s.vecFlt2 d a b k y fun f p q =>
    let r := mulNum p q
    let t := roundFloat f s.effMode false r.1
    (t.1, r.2 ||| t.2)) s

/-- `vmin` on floats (R472). -/
def execVminF (d : Reg) (a : Reg) (b : Reg) (k : BitVec 3) (y : BitVec 3) (s : State) : Out :=
  issue (.vminF d a b k y) (fun s => s.vecFlt2 d a b k y fun f p q => (exactBits f (minNum p q), 0)) s

/-- `vmax` on floats (R472). -/
def execVmaxF (d : Reg) (a : Reg) (b : Reg) (k : BitVec 3) (y : BitVec 3) (s : State) : Out :=
  issue (.vmaxF d a b k y) (fun s => s.vecFlt2 d a b k y fun f p q => (exactBits f (maxNum p q), 0)) s

/-- `vabs` on floats (R472). -/
def execVabsF (d : Reg) (a : Reg) (k : BitVec 3) (y : BitVec 3) (s : State) : Out :=
  issue (.vabsF d a k y) (fun s => s.vecFlt1 d a k y fun f p => (exactBits f p.abs, 0)) s

/-- `vneg` on floats (R472). -/
def execVnegF (d : Reg) (a : Reg) (k : BitVec 3) (y : BitVec 3) (s : State) : Out :=
  issue (.vnegF d a k y) (fun s => s.vecFlt1 d a k y fun f p => (exactBits f p.neg, 0)) s

/-- `vfma` (R472). -/
def execVfma (d : Reg) (a : Reg) (b : Reg) (k : BitVec 3) (y : BitVec 3) (s : State) : Out :=
  issue (.vfma d a b k y) (fun s => s.vecFlt3 d a b k y fun f p q r => roundFma f s.effMode p q r) s

/-- `vfms` (R472). -/
def execVfms (d : Reg) (a : Reg) (b : Reg) (k : BitVec 3) (y : BitVec 3) (s : State) : Out :=
  issue (.vfms d a b k y) (fun s => s.vecFlt3 d a b k y fun f p q r => roundFma f s.effMode p q r.neg) s

/-- `vclamp` on floats (R472). -/
def execVclampF (d : Reg) (a : Reg) (b : Reg) (k : BitVec 3) (y : BitVec 3) (s : State) : Out :=
  issue (.vclampF d a b k y) (fun s => s.vecFlt3 d a b k y fun f p q r => (exactBits f (minNum (maxNum r p) q), 0)) s

/-- `vdot` on floats (R473). -/
def execVdotF (d : Reg) (a : Reg) (b : Reg) (k : BitVec 3) (y : BitVec 3) (s : State) : Out :=
  issue (.vdotF d a b k y) (fun s => s.vector [a.toNat, b.toNat, d.toNat] [d.toNat] fun s =>
    let e := elemOf y 0
    let va := s.vsrc a.toNat
    let vb := s.vsrc b.toNat
    let vc := s.vsrc d.toNat
    s.putLanes d (s.k k) 4 fun j =>
      let ps := (dotLanes e.bytes j).map fun t => mulNum (e.num (lane va e.bytes t)) (e.num (lane vb e.bytes t))
      let r := roundSum .fp32 s.effMode (decodeFloat .fp32 (lane vc 4 j) :: ps.map (·.1))
      (r.1, ps.foldl (fun f p => f ||| p.2) r.2)) s

/-! Comparison and selection (R479). -/

/-- Write the mask bits of the active lanes by a relation (R479). -/
def compareBits (k old : Word) (w : Nat) (rel : Nat → Bool) : Word :=
  BitVec.ofNat 32 ((List.range (lanes w)).foldl (fun m i =>
    if active k w i then setBits m (w * i) w (if rel i then 2 ^ w - 1 else 0) else m) old.toNat)

/-- A `vcmp` by its relations on integers and on floats (R479). -/
def State.compare (s : State) (d : BitVec 3) (a b : Reg) (k : BitVec 3) (y : BitVec 3) (u : BitVec 1)
    (ri : Int → Int → Bool) (rf : Num → Num → Bool) : Res :=
  s.vector [a.toNat, b.toNat] [] fun s =>
    let e := elemOf y u
    let va := s.vsrc a.toNat
    let vb := s.vsrc b.toNat
    .retire (s.setK d (compareBits (s.k k) (s.k d) e.bytes fun i =>
      let p := lane va e.bytes i
      let q := lane vb e.bytes i
      match e with
      | .int f => ri (f.decode p) (f.decode q)
      | .flt _ => rf (e.num p) (e.num q)))

/-- `vcmp.eq` (R479). -/
def execVcmpEq (d : BitVec 3) (a : Reg) (b : Reg) (k : BitVec 3) (y : BitVec 3) (u : BitVec 1) (s : State) : Out :=
  issue (.vcmpEq d a b k y u) (fun s => s.compare d a b k y u (fun p q => p == q) eqValue) s

/-- `vcmp.ne`: true with a NaN (R479). -/
def execVcmpNe (d : BitVec 3) (a : Reg) (b : Reg) (k : BitVec 3) (y : BitVec 3) (u : BitVec 1) (s : State) : Out :=
  issue (.vcmpNe d a b k y u) (fun s => s.compare d a b k y u (fun p q => p != q) fun p q => !eqValue p q) s

/-- `vcmp.lt` (R479). -/
def execVcmpLt (d : BitVec 3) (a : Reg) (b : Reg) (k : BitVec 3) (y : BitVec 3) (u : BitVec 1) (s : State) : Out :=
  issue (.vcmpLt d a b k y u) (fun s => s.compare d a b k y u (fun p q => decide (p < q)) ltValue) s

/-- `vcmp.le` (R479). -/
def execVcmpLe (d : BitVec 3) (a : Reg) (b : Reg) (k : BitVec 3) (y : BitVec 3) (u : BitVec 1) (s : State) : Out :=
  issue (.vcmpLe d a b k y u) (fun s => s.compare d a b k y u (fun p q => decide (p ≤ q))
    fun p q => ltValue p q || eqValue p q) s

/-- `vcmp.gt` (R479). -/
def execVcmpGt (d : BitVec 3) (a : Reg) (b : Reg) (k : BitVec 3) (y : BitVec 3) (u : BitVec 1) (s : State) : Out :=
  issue (.vcmpGt d a b k y u) (fun s => s.compare d a b k y u (fun p q => decide (q < p)) fun p q => ltValue q p) s

/-- `vcmp.ge` (R479). -/
def execVcmpGe (d : BitVec 3) (a : Reg) (b : Reg) (k : BitVec 3) (y : BitVec 3) (u : BitVec 1) (s : State) : Out :=
  issue (.vcmpGe d a b k y u) (fun s => s.compare d a b k y u (fun p q => decide (q ≤ p))
    fun p q => ltValue q p || eqValue p q) s

/-- `vsel`: the mask selects, and every lane is written (R479). -/
def execVsel (d : Reg) (a : Reg) (b : Reg) (k : BitVec 3) (y : BitVec 3) (s : State) : Out :=
  issue (.vsel d a b k y) (fun s => s.vector [a.toNat, b.toNat] [d.toNat] fun s =>
    let w := (elemOf y 0).bytes
    .retire (s.vput d.toNat (mapLanes (s.k k) w (s.vsrc b.toNat) fun i => lane (s.vsrc a.toNat) w i))) s

/-! Conversion and transcendentals (R481 to R484). -/

/-- One conversion (R482); `wrap` is saturation 10. -/
def convert (mode : RoundMode) (wrap : Bool) (src dst : Elem) (b : Nat) : Nat × FlagSet :=
  match dst with
  | .flt f => roundFloat f mode wrap (src.num b)
  | .int f =>
    match src with
    | .flt g => toInt f mode wrap (decodeFloat g b)
    | .int g => if wrap then (wrapInt f (g.decode b), 0) else satInt f (g.decode b)

/-- `vcvt` (R481, R482). -/
def execVcvt (d : Reg) (a : Reg) (q : BitVec 4) (k : BitVec 3) (e : BitVec 4) (s : State) : Out :=
  issue (.vcvt d a q k e) (fun s => s.vector [a.toNat] [d.toNat] fun s =>
    let src := elemOfCode q
    let dst := elemOfCode e
    let ws := src.bytes
    let wd := dst.bytes
    let n := 32 / max ws wd
    let m := s.k k
    let va := s.vsrc a.toNat
    let old := s.vold d.toNat
    let f (i : Nat) : Nat × FlagSet := convert s.effMode (s.optSat == 2) src dst (lane va ws i)
    let v := ofLanes wd ((List.range (32 / wd)).map fun i =>
      if n ≤ i then (if wd < ws then 0 else lane old wd i)
      else if active m wd i then (f i).1 else lane old wd i)
    let fl := (List.range n).foldl (fun x i => if active m wd i then x ||| (f i).2 else x) 0
    .retire ((s.vput d.toNat v).flag fl)) s

/-- `vexp2` (R484). -/
def execVexp2 (d : Reg) (a : Reg) (k : BitVec 3) (y : BitVec 3) (s : State) : Out :=
  issue (.vexp2 d a k y) (fun s => s.vecFlt1 d a k y fun f p => exp2Num f s.effMode p) s

/-- `vlog2` (R484). -/
def execVlog2 (d : Reg) (a : Reg) (k : BitVec 3) (y : BitVec 3) (s : State) : Out :=
  issue (.vlog2 d a k y) (fun s => s.vecFlt1 d a k y fun f p => log2Num f s.effMode p) s

/-- `vrcp` (R484). -/
def execVrcp (d : Reg) (a : Reg) (k : BitVec 3) (y : BitVec 3) (s : State) : Out :=
  issue (.vrcp d a k y) (fun s => s.vecFlt1 d a k y fun f p => rcpNum f s.effMode p) s

/-- `vrsqrt` (R484). -/
def execVrsqrt (d : Reg) (a : Reg) (k : BitVec 3) (y : BitVec 3) (s : State) : Out :=
  issue (.vrsqrt d a k y) (fun s => s.vecFlt1 d a k y fun f p => rsqrtNum f s.effMode p) s

/-- `vpopc` (R484). -/
def execVpopc (d : Reg) (a : Reg) (k : BitVec 3) (y : BitVec 3) (s : State) : Out :=
  issue (.vpopc d a k y) (fun s => s.vecInt1 d a k y fun f p => (onesCount p f.width, 0)) s

/-! Reductions and scans (R475, R476). -/

/-- The values of the active lanes, in ascending order, with their indices. -/
def activeLanes (k : Word) (w : Nat) (v : Vec) : List (Nat × Nat) :=
  ((List.range (lanes w)).filter (active k w)).map fun i => (i, lane v w i)

/-- Write a reduction: lane 0 takes the result and the other lanes are zero (R475). -/
def State.putReduced (s : State) (d : Reg) (w : Nat) (r : Nat × FlagSet) : Res :=
  .retire ((s.vput d.toNat (ofLanes w [r.1])).flag r.2)

/-- `vredsum` (R475). -/
def execVredsum (d : Reg) (a : Reg) (k : BitVec 3) (y : BitVec 3) (u : BitVec 1) (s : State) : Out :=
  issue (.vredsum d a k y u) (fun s => s.vector [a.toNat] [d.toNat] fun s =>
    let e := elemOf y u
    let l := (activeLanes (s.k k) e.bytes (s.vsrc a.toNat)).map (·.2)
    s.putReduced d e.bytes (match e with
      | .int f => sealInt s.saturates f (l.foldl (fun v p => v + f.decode p) 0)
      | .flt f => roundSum f s.effMode (l.map (decodeFloat f)))) s

/-- The largest or smallest of a list of lanes (R475). -/
def reduceBy (e : Elem) (max_ : Bool) (l : List Nat) : Nat :=
  match e, l with
  | .int f, [] => wrapInt f (if max_ then f.lo else f.hi)
  | .int f, p :: r => r.foldl (fun x q =>
      if (if max_ then decide (f.decode x < f.decode q) else decide (f.decode q < f.decode x)) then q else x) p
  | .flt f, [] => exactBits f (.inf max_)
  | .flt f, p :: r => exactBits f (r.foldl (fun x q =>
      if max_ then maxNum x (decodeFloat f q) else minNum x (decodeFloat f q)) (decodeFloat f p))

/-- `vredmax` (R475). -/
def execVredmax (d : Reg) (a : Reg) (k : BitVec 3) (y : BitVec 3) (u : BitVec 1) (s : State) : Out :=
  issue (.vredmax d a k y u) (fun s => s.vector [a.toNat] [d.toNat] fun s =>
    let e := elemOf y u
    s.putReduced d e.bytes (reduceBy e true ((activeLanes (s.k k) e.bytes (s.vsrc a.toNat)).map (·.2)), 0)) s

/-- `vredmin` (R475). -/
def execVredmin (d : Reg) (a : Reg) (k : BitVec 3) (y : BitVec 3) (u : BitVec 1) (s : State) : Out :=
  issue (.vredmin d a k y u) (fun s => s.vector [a.toNat] [d.toNat] fun s =>
    let e := elemOf y u
    s.putReduced d e.bytes (reduceBy e false ((activeLanes (s.k k) e.bytes (s.vsrc a.toNat)).map (·.2)), 0)) s

/-- One lane is larger than another: a number than a NaN too (R475). -/
def laneAbove (e : Elem) (a b : Nat) : Bool :=
  match e with
  | .int f => decide (f.decode b < f.decode a)
  | .flt f => ltNum (decodeFloat f b) (decodeFloat f a) || (!(decodeFloat f a).isNaN && (decodeFloat f b).isNaN)

/-- The lowest index of the largest lane (R475). -/
def argMax (e : Elem) (l : List (Nat × Nat)) : Word :=
  match l with
  | [] => BitVec.allOnes 32
  | p :: r => BitVec.ofNat 32 (r.foldl (fun x q => if laneAbove e q.2 x.2 then q else x) p).1

/-- `vargmax` (R475). -/
def execVargmax (d : Reg) (a : Reg) (k : BitVec 3) (y : BitVec 3) (u : BitVec 1) (s : State) : Out :=
  issue (.vargmax d a k y u) (fun s => s.vector [a.toNat] [] fun s =>
    let e := elemOf y u
    s.retX d (argMax e (activeLanes (s.k k) e.bytes (s.vsrc a.toNat)))) s

/-- The prefix of the active lanes up to a lane (R476). -/
def scanTerms (k : Word) (w : Nat) (v : Vec) (i : Nat) : List Nat :=
  ((activeLanes k w v).filter fun p => decide (p.1 ≤ i)).map (·.2)

/-- `vscan` (R476). -/
def execVscan (d : Reg) (a : Reg) (k : BitVec 3) (y : BitVec 3) (s : State) : Out :=
  issue (.vscan d a k y) (fun s => s.vector [a.toNat] [d.toNat] fun s =>
    let e := elemOf y 0
    let va := s.vsrc a.toNat
    s.putLanes d (s.k k) e.bytes fun i =>
      let l := scanTerms (s.k k) e.bytes va i
      match e with
      | .int f => sealInt s.saturates f (l.foldl (fun v p => v + f.decode p) 0)
      | .flt f => roundSum f s.effMode (l.map (decodeFloat f))) s

/-! Permutations and moves (R477, R491). -/

/-- `vperm` (R491). -/
def execVperm (d : Reg) (a : Reg) (b : Reg) (k : BitVec 3) (y : BitVec 3) (s : State) : Out :=
  issue (.vperm d a b k y) (fun s => s.vector [a.toNat, b.toNat] [d.toNat] fun s =>
    let w := (elemOf y 0).bytes
    let va := s.vsrc a.toNat
    let vb := s.vsrc b.toNat
    s.putLanes d (s.k k) w fun i => (if lane vb w i < lanes w then lane va w (lane vb w i) else 0, 0)) s

/-- `vslide` (R491). -/
def execVslide (d : Reg) (a : Reg) (t : Reg) (k : BitVec 3) (y : BitVec 3) (s : State) : Out :=
  issue (.vslide d a t k y) (fun s => s.vector [a.toNat] [d.toNat] fun s =>
    let w := (elemOf y 0).bytes
    let va := s.vsrc a.toNat
    s.putLanes d (s.k k) w fun i =>
      let j : Int := i + (s.x t).toInt
      (if 0 ≤ j ∧ j < lanes w then lane va w j.toNat else 0, 0)) s

/-- `vbcast` (R477). -/
def execVbcast (d : Reg) (a : Reg) (k : BitVec 3) (y : BitVec 3) (s : State) : Out :=
  issue (.vbcast d a k y) (fun s => s.vector [] [d.toNat] fun s =>
    let w := (elemOf y 0).bytes
    s.putLanes d (s.k k) w fun _ => (bits (s.x a).toNat 0 (8 * w), 0)) s

/-- The value that `vmvx` gives an x register (R477). -/
def moveLane (e : Elem) (b : Nat) : Word :=
  match e with
  | .int f => BitVec.ofInt 32 (f.decode b)
  | .flt _ => BitVec.ofNat 32 b

/-- `vmvx` (R477). -/
def execVmvx (d : Reg) (a : Reg) (t : Reg) (y : BitVec 3) (s : State) : Out :=
  issue (.vmvx d a t y) (fun s => s.vector [a.toNat] [] fun s =>
    let e := elemOf y 0
    let i := (s.x t).toNat
    s.retX d (if i < lanes e.bytes then moveLane e (lane (s.vsrc a.toNat) e.bytes i) else 0)) s

/-- `vins` (R477). -/
def execVins (d : Reg) (a : Reg) (t : Reg) (y : BitVec 3) (s : State) : Out :=
  issue (.vins d a t y) (fun s => s.vector [d.toNat] [d.toNat] fun s =>
    let w := (elemOf y 0).bytes
    let i := (s.x t).toNat
    if i < lanes w then
      .retire (s.vput d.toNat (ofLanes w ((List.range (lanes w)).map fun j =>
        if j = i then bits (s.x a).toNat 0 (8 * w) else lane (s.vsrc d.toNat) w j)))
    else .retire s) s

/-- `vmov` (R477). -/
def execVmov (d : Reg) (a : Reg) (k : BitVec 3) (y : BitVec 3) (s : State) : Out :=
  issue (.vmov d a k y) (fun s => s.vector [a.toNat] [d.toNat] fun s =>
    let w := (elemOf y 0).bytes
    let va := s.vsrc a.toNat
    s.putLanes d (s.k k) w fun i => (lane va w i, 0)) s

/-! The running top 8 (R492, R493). -/

/-- The format of the keys of `vtopk` (R492). -/
def keyElem : Elem → Elem
  | .flt _ => .flt .fp32
  | .int f => .int ⟨32, f.isSigned || f.width != 32⟩

/-- A source element as a key (R493). -/
def topKey (e : Elem) (b : Nat) : Nat :=
  match e with
  | .flt f => exactBits .fp32 (decodeFloat f b)
  | .int f => wrapTo (f.decode b) 32

/-- One entry stands before another: the larger key first, then the smaller index (R493). -/
def topBefore (e : Elem) (a b : Nat × Nat) : Bool :=
  if laneAbove e a.1 b.1 then true
  else if laneAbove e b.1 a.1 then false
  else decide (a.2 < b.2)

/-- Insert an entry in order. -/
def topInsert (e : Elem) (p : Nat × Nat) : List (Nat × Nat) → List (Nat × Nat)
  | [] => [p]
  | q :: r => if topBefore e p q then p :: q :: r else q :: topInsert e p r

/-- `vtopk` (R493). -/
def execVtopk (d : Reg) (a : Reg) (b : Reg) (k : BitVec 3) (y : BitVec 3) (u : BitVec 1) (s : State) : Out :=
  issue (.vtopk d a b k y u) (fun s =>
    let d2 := d.toNat + 1
    s.vector [a.toNat, b.toNat, d.toNat, d2] [d.toNat, d2] fun s =>
      let e := elemOf y u
      let ke := keyElem e
      let keys := s.vsrc d.toNat
      let idxs := s.vsrc d2
      let first := lane (s.vsrc b.toNat) 4 0
      let held := (List.range 8).map fun j => (lane keys 4 j, lane idxs 4 j)
      let new := ((activeLanes (s.k k) e.bytes (s.vsrc a.toNat)).filter fun p =>
        match e with
        | .flt f => !(decodeFloat f p.2).isNaN
        | .int _ => true).map fun p => (topKey e p.2, (first + p.1) % 2 ^ 32)
      let top := ((held ++ new).foldl (fun l p => topInsert ke p l) []).take 8
      .retire ((s.vput d.toNat (ofLanes 4 (top.map (·.1)))).vput d2 (ofLanes 4 (top.map (·.2))))) s

end Sys2Proof.Machine
end

