-- ==== Sys2Proof/Machine/Dispatch.lean ====
section
/-! DEFINITION. One arm for each instruction and event: the call of its meaning. -/

namespace Sys2Proof.Machine

def exec (i : Instr) (s : State) : Host.Outcome State Fault Refusal :=
  match i with
  | .add d qs t => Sys2Proof.Machine.execAdd d qs t s
  | .sub d qs t => Sys2Proof.Machine.execSub d qs t s
  | .and d qs t => Sys2Proof.Machine.execAnd d qs t s
  | .or d qs t => Sys2Proof.Machine.execOr d qs t s
  | .xor d qs t => Sys2Proof.Machine.execXor d qs t s
  | .andn d qs t => Sys2Proof.Machine.execAndn d qs t s
  | .sll d qs t => Sys2Proof.Machine.execSll d qs t s
  | .srl d qs t => Sys2Proof.Machine.execSrl d qs t s
  | .sra d qs t => Sys2Proof.Machine.execSra d qs t s
  | .rol d qs t => Sys2Proof.Machine.execRol d qs t s
  | .slt d qs t => Sys2Proof.Machine.execSlt d qs t s
  | .sltu d qs t => Sys2Proof.Machine.execSltu d qs t s
  | .min d qs t => Sys2Proof.Machine.execMin d qs t s
  | .max d qs t => Sys2Proof.Machine.execMax d qs t s
  | .minu d qs t => Sys2Proof.Machine.execMinu d qs t s
  | .maxu d qs t => Sys2Proof.Machine.execMaxu d qs t s
  | .mul d qs t => Sys2Proof.Machine.execMul d qs t s
  | .mulh d qs t => Sys2Proof.Machine.execMulh d qs t s
  | .mulhu d qs t => Sys2Proof.Machine.execMulhu d qs t s
  | .div d qs t => Sys2Proof.Machine.execDiv d qs t s
  | .divu d qs t => Sys2Proof.Machine.execDivu d qs t s
  | .rem d qs t => Sys2Proof.Machine.execRem d qs t s
  | .remu d qs t => Sys2Proof.Machine.execRemu d qs t s
  | .clz d qs => Sys2Proof.Machine.execClz d qs s
  | .ctz d qs => Sys2Proof.Machine.execCtz d qs s
  | .popc d qs => Sys2Proof.Machine.execPopc d qs s
  | .sextB d qs => Sys2Proof.Machine.execSextB d qs s
  | .sextH d qs => Sys2Proof.Machine.execSextH d qs s
  | .zextB d qs => Sys2Proof.Machine.execZextB d qs s
  | .zextH d qs => Sys2Proof.Machine.execZextH d qs s
  | .bfx d qs t => Sys2Proof.Machine.execBfx d qs t s
  | .bfi d qs t => Sys2Proof.Machine.execBfi d qs t s
  | .addi d qs qi => Sys2Proof.Machine.execAddi d qs qi s
  | .andi d qs qi => Sys2Proof.Machine.execAndi d qs qi s
  | .ori d qs qi => Sys2Proof.Machine.execOri d qs qi s
  | .xori d qs qi => Sys2Proof.Machine.execXori d qs qi s
  | .slti d qs qi => Sys2Proof.Machine.execSlti d qs qi s
  | .sltiu d qs qi => Sys2Proof.Machine.execSltiu d qs qi s
  | .lui d qi => Sys2Proof.Machine.execLui d qi s
  | .slli d qs h => Sys2Proof.Machine.execSlli d qs h s
  | .srli d qs h => Sys2Proof.Machine.execSrli d qs h s
  | .srai d qs h => Sys2Proof.Machine.execSrai d qs h s
  | .addpi d qs qi => Sys2Proof.Machine.execAddpi d qs qi s
  | .addp d qs t => Sys2Proof.Machine.execAddp d qs t s
  | .subp d qs t => Sys2Proof.Machine.execSubp d qs t s
  | .movp d qs => Sys2Proof.Machine.execMovp d qs s
  | .beq qs t o => Sys2Proof.Machine.execBeq qs t o s
  | .bne qs t o => Sys2Proof.Machine.execBne qs t o s
  | .blt qs t o => Sys2Proof.Machine.execBlt qs t o s
  | .bge qs t o => Sys2Proof.Machine.execBge qs t o s
  | .bltu qs t o => Sys2Proof.Machine.execBltu qs t o s
  | .bgeu qs t o => Sys2Proof.Machine.execBgeu qs t o s
  | .bkany k o => Sys2Proof.Machine.execBkany k o s
  | .bkall k o => Sys2Proof.Machine.execBkall k o s
  | .bknone k o => Sys2Proof.Machine.execBknone k o s
  | .bceos v o => Sys2Proof.Machine.execBceos v o s
  | .j o => Sys2Proof.Machine.execJ o s
  | .jal o => Sys2Proof.Machine.execJal o s
  | .jalr d qs o => Sys2Proof.Machine.execJalr d qs o s
  | .jalrFar d qs o => Sys2Proof.Machine.execJalrFar d qs o s
  | .dbnz qs o => Sys2Proof.Machine.execDbnz qs o s
  | .lb d b o => Sys2Proof.Machine.execLb d b o s
  | .lbu d b o => Sys2Proof.Machine.execLbu d b o s
  | .lh d b o => Sys2Proof.Machine.execLh d b o s
  | .lhu d b o => Sys2Proof.Machine.execLhu d b o s
  | .lw d b o => Sys2Proof.Machine.execLw d b o s
  | .ld d b o => Sys2Proof.Machine.execLd d b o s
  | .sb d b o => Sys2Proof.Machine.execSb d b o s
  | .sh d b o => Sys2Proof.Machine.execSh d b o s
  | .sw d b o => Sys2Proof.Machine.execSw d b o s
  | .sd d b o => Sys2Proof.Machine.execSd d b o s
  | .vld d b k o => Sys2Proof.Machine.execVld d b k o s
  | .vst d b k o => Sys2Proof.Machine.execVst d b k o s
  | .pf b h o => Sys2Proof.Machine.execPf b h o s
  | .amoaddW d qs t c a l => Sys2Proof.Machine.execAmoaddW d qs t c a l s
  | .amoaddD d qs t c a l => Sys2Proof.Machine.execAmoaddD d qs t c a l s
  | .amoandW d qs t c a l => Sys2Proof.Machine.execAmoandW d qs t c a l s
  | .amoandD d qs t c a l => Sys2Proof.Machine.execAmoandD d qs t c a l s
  | .amoorW d qs t c a l => Sys2Proof.Machine.execAmoorW d qs t c a l s
  | .amoorD d qs t c a l => Sys2Proof.Machine.execAmoorD d qs t c a l s
  | .amoxorW d qs t c a l => Sys2Proof.Machine.execAmoxorW d qs t c a l s
  | .amoxorD d qs t c a l => Sys2Proof.Machine.execAmoxorD d qs t c a l s
  | .amominW d qs t c a l => Sys2Proof.Machine.execAmominW d qs t c a l s
  | .amominD d qs t c a l => Sys2Proof.Machine.execAmominD d qs t c a l s
  | .amomaxW d qs t c a l => Sys2Proof.Machine.execAmomaxW d qs t c a l s
  | .amomaxD d qs t c a l => Sys2Proof.Machine.execAmomaxD d qs t c a l s
  | .amominuW d qs t c a l => Sys2Proof.Machine.execAmominuW d qs t c a l s
  | .amominuD d qs t c a l => Sys2Proof.Machine.execAmominuD d qs t c a l s
  | .amomaxuW d qs t c a l => Sys2Proof.Machine.execAmomaxuW d qs t c a l s
  | .amomaxuD d qs t c a l => Sys2Proof.Machine.execAmomaxuD d qs t c a l s
  | .amoswapW d qs t c a l => Sys2Proof.Machine.execAmoswapW d qs t c a l s
  | .amoswapD d qs t c a l => Sys2Proof.Machine.execAmoswapD d qs t c a l s
  | .amofadd d qs t c a l => Sys2Proof.Machine.execAmofadd d qs t c a l s
  | .casW d qs t c a l => Sys2Proof.Machine.execCasW d qs t c a l s
  | .casD d qs t c a l => Sys2Proof.Machine.execCasD d qs t c a l s
  | .lrW d qs c a l => Sys2Proof.Machine.execLrW d qs c a l s
  | .lrD d qs c a l => Sys2Proof.Machine.execLrD d qs c a l s
  | .scW d qs t c a l => Sys2Proof.Machine.execScW d qs t c a l s
  | .scD d qs t c a l => Sys2Proof.Machine.execScD d qs t c a l s
  | .fence p qs c => Sys2Proof.Machine.execFence p qs c s
  | .fencei => Sys2Proof.Machine.execFencei s
  | .barv d qs c => Sys2Proof.Machine.execBarv d qs c s
  | .barw qs t c => Sys2Proof.Machine.execBarw qs t c s
  | .trig => Sys2Proof.Machine.execTrig s
  | .waitdep d => Sys2Proof.Machine.execWaitdep d s
  | .wrs d qs => Sys2Proof.Machine.execWrs d qs s
  | .fput d qs t => Sys2Proof.Machine.execFput d qs t s
  | .fget d qs => Sys2Proof.Machine.execFget d qs s
  | .freset d qs => Sys2Proof.Machine.execFreset d qs s
  | .vadd d a b k y u => Sys2Proof.Machine.execVadd d a b k y u s
  | .vsub d a b k y u => Sys2Proof.Machine.execVsub d a b k y u s
  | .vmul d a b k y u => Sys2Proof.Machine.execVmul d a b k y u s
  | .vmin d a b k y u => Sys2Proof.Machine.execVmin d a b k y u s
  | .vmax d a b k y u => Sys2Proof.Machine.execVmax d a b k y u s
  | .vabs d a k y => Sys2Proof.Machine.execVabs d a k y s
  | .vneg d a k y => Sys2Proof.Machine.execVneg d a k y s
  | .vand d a b k y => Sys2Proof.Machine.execVand d a b k y s
  | .vor d a b k y => Sys2Proof.Machine.execVor d a b k y s
  | .vxor d a b k y => Sys2Proof.Machine.execVxor d a b k y s
  | .vandn d a b k y => Sys2Proof.Machine.execVandn d a b k y s
  | .vsll d a b k y => Sys2Proof.Machine.execVsll d a b k y s
  | .vsrl d a b k y => Sys2Proof.Machine.execVsrl d a b k y s
  | .vsra d a b k y => Sys2Proof.Machine.execVsra d a b k y s
  | .vclamp d a b k y u => Sys2Proof.Machine.execVclamp d a b k y u s
  | .vdot d a b k y u => Sys2Proof.Machine.execVdot d a b k y u s
  | .vaddF d a b k y => Sys2Proof.Machine.execVaddF d a b k y s
  | .vsubF d a b k y => Sys2Proof.Machine.execVsubF d a b k y s
  | .vmulF d a b k y => Sys2Proof.Machine.execVmulF d a b k y s
  | .vminF d a b k y => Sys2Proof.Machine.execVminF d a b k y s
  | .vmaxF d a b k y => Sys2Proof.Machine.execVmaxF d a b k y s
  | .vabsF d a k y => Sys2Proof.Machine.execVabsF d a k y s
  | .vnegF d a k y => Sys2Proof.Machine.execVnegF d a k y s
  | .vfma d a b k y => Sys2Proof.Machine.execVfma d a b k y s
  | .vfms d a b k y => Sys2Proof.Machine.execVfms d a b k y s
  | .vclampF d a b k y => Sys2Proof.Machine.execVclampF d a b k y s
  | .vdotF d a b k y => Sys2Proof.Machine.execVdotF d a b k y s
  | .vcmpEq d a b k y u => Sys2Proof.Machine.execVcmpEq d a b k y u s
  | .vcmpNe d a b k y u => Sys2Proof.Machine.execVcmpNe d a b k y u s
  | .vcmpLt d a b k y u => Sys2Proof.Machine.execVcmpLt d a b k y u s
  | .vcmpLe d a b k y u => Sys2Proof.Machine.execVcmpLe d a b k y u s
  | .vcmpGt d a b k y u => Sys2Proof.Machine.execVcmpGt d a b k y u s
  | .vcmpGe d a b k y u => Sys2Proof.Machine.execVcmpGe d a b k y u s
  | .vsel d a b k y => Sys2Proof.Machine.execVsel d a b k y s
  | .kmovX d a => Sys2Proof.Machine.execKmovX d a s
  | .kand d a b => Sys2Proof.Machine.execKand d a b s
  | .kor d a b => Sys2Proof.Machine.execKor d a b s
  | .kxor d a b => Sys2Proof.Machine.execKxor d a b s
  | .knot d a => Sys2Proof.Machine.execKnot d a s
  | .kmovK d a => Sys2Proof.Machine.execKmovK d a s
  | .kpopc d a => Sys2Proof.Machine.execKpopc d a s
  | .kfirst d a => Sys2Proof.Machine.execKfirst d a s
  | .kgen d qs => Sys2Proof.Machine.execKgen d qs s
  | .vcvt d a qs k e => Sys2Proof.Machine.execVcvt d a qs k e s
  | .vexp2 d a k y => Sys2Proof.Machine.execVexp2 d a k y s
  | .vlog2 d a k y => Sys2Proof.Machine.execVlog2 d a k y s
  | .vrcp d a k y => Sys2Proof.Machine.execVrcp d a k y s
  | .vrsqrt d a k y => Sys2Proof.Machine.execVrsqrt d a k y s
  | .vpopc d a k y => Sys2Proof.Machine.execVpopc d a k y s
  | .vredsum d a k y u => Sys2Proof.Machine.execVredsum d a k y u s
  | .vredmax d a k y u => Sys2Proof.Machine.execVredmax d a k y u s
  | .vredmin d a k y u => Sys2Proof.Machine.execVredmin d a k y u s
  | .vargmax d a k y u => Sys2Proof.Machine.execVargmax d a k y u s
  | .vscan d a k y => Sys2Proof.Machine.execVscan d a k y s
  | .vperm d a b k y => Sys2Proof.Machine.execVperm d a b k y s
  | .vslide d a t k y => Sys2Proof.Machine.execVslide d a t k y s
  | .vtopk d a b k y u => Sys2Proof.Machine.execVtopk d a b k y u s
  | .vbcast d qs k y => Sys2Proof.Machine.execVbcast d qs k y s
  | .vmvx d a t y => Sys2Proof.Machine.execVmvx d a t y s
  | .vins d qs t y => Sys2Proof.Machine.execVins d qs t y s
  | .vmov d a k y => Sys2Proof.Machine.execVmov d a k y s
  | .vldg d p b k y => Sys2Proof.Machine.execVldg d p b k y s
  | .vsts d p b k y => Sys2Proof.Machine.execVsts d p b k y s
  | .mma qs t => Sys2Proof.Machine.execMma qs t s
  | .mmv qs t => Sys2Proof.Machine.execMmv qs t s
  | .mldb qs t => Sys2Proof.Machine.execMldb qs t s
  | .mldbS v t => Sys2Proof.Machine.execMldbS v t s
  | .mst qs t => Sys2Proof.Machine.execMst qs t s
  | .mrd d qs t => Sys2Proof.Machine.execMrd d qs t s
  | .mzero t => Sys2Proof.Machine.execMzero t s
  | .mring d qs t => Sys2Proof.Machine.execMring d qs t s
  | .mvgo d qs => Sys2Proof.Machine.execMvgo d qs s
  | .mvred d qs => Sys2Proof.Machine.execMvred d qs s
  | .mvst d qs => Sys2Proof.Machine.execMvst d qs s
  | .mvkill qs => Sys2Proof.Machine.execMvkill qs s
  | .sbind d qs t => Sys2Proof.Machine.execSbind d qs t s
  | .cbind d qs t => Sys2Proof.Machine.execCbind d qs t s
  | .sunbind d => Sys2Proof.Machine.execSunbind d s
  | .cret d => Sys2Proof.Machine.execCret d s
  | .ceos d => Sys2Proof.Machine.execCeos d s
  | .cwait d qs t => Sys2Proof.Machine.execCwait d qs t s
  | .cadd qs t => Sys2Proof.Machine.execCadd qs t s
  | .cset qs t => Sys2Proof.Machine.execCset qs t s
  | .crd d qs => Sys2Proof.Machine.execCrd d qs s
  | .mw d qs => Sys2Proof.Machine.execMw d qs s
  | .send d qs t => Sys2Proof.Machine.execSend d qs t s
  | .sendw d qs t => Sys2Proof.Machine.execSendw d qs t s
  | .exit qs t => Sys2Proof.Machine.execExit qs t s
  | .bind d qs t => Sys2Proof.Machine.execBind d qs t s
  | .unbind d qs => Sys2Proof.Machine.execUnbind d qs s
  | .yield => Sys2Proof.Machine.execYield s
  | .mbopen d qs => Sys2Proof.Machine.execMbopen d qs s
  | .mbpub d qs t => Sys2Proof.Machine.execMbpub d qs t s
  | .mbld d qs t => Sys2Proof.Machine.execMbld d qs t s
  | .mbsnap d qs t => Sys2Proof.Machine.execMbsnap d qs t s
  | .mbver d qs => Sys2Proof.Machine.execMbver d qs s
  | .tnow d => Sys2Proof.Machine.execTnow d s
  | .tuntil d qs t => Sys2Proof.Machine.execTuntil d qs t s
  | .swget d qs t => Sys2Proof.Machine.execSwget d qs t s
  | .swadv d qs t => Sys2Proof.Machine.execSwadv d qs t s
  | .gust d qs => Sys2Proof.Machine.execGust d qs s
  | .gustrel qs => Sys2Proof.Machine.execGustrel qs s
  | .gustq d qs => Sys2Proof.Machine.execGustq d qs s
  | .qpost d => Sys2Proof.Machine.execQpost d s
  | .qclaim d qs => Sys2Proof.Machine.execQclaim d qs s
  | .hacc qs t => Sys2Proof.Machine.execHacc qs t s
  | .lpin d qs => Sys2Proof.Machine.execLpin d qs s
  | .lunpin d qs => Sys2Proof.Machine.execLunpin d qs s
  | .lfill d qs t => Sys2Proof.Machine.execLfill d qs t s
  | .ldrop d qs t => Sys2Proof.Machine.execLdrop d qs t s
  | .lprobe d qs => Sys2Proof.Machine.execLprobe d qs s
  | .glaunch d qs => Sys2Proof.Machine.execGlaunch d qs s
  | .gabort d qs t => Sys2Proof.Machine.execGabort d qs t s
  | .ecall => Sys2Proof.Machine.execEcall s
  | .ebreak => Sys2Proof.Machine.execEbreak s
  | .eret => Sys2Proof.Machine.execEret s
  | .halt => Sys2Proof.Machine.execHalt s
  | .tinv qs t => Sys2Proof.Machine.execTinv qs t s
  | .csrr d c => Sys2Proof.Machine.execCsrr d c s
  | .csrw qs c => Sys2Proof.Machine.execCsrw qs c s
  | .csrs qs c => Sys2Proof.Machine.execCsrs qs c s
  | .csrc qs c => Sys2Proof.Machine.execCsrc qs c s
  | .ewr qs n => Sys2Proof.Machine.execEwr qs n s
  | .erd d n => Sys2Proof.Machine.execErd d n s
  | .safe h n => Sys2Proof.Machine.execSafe h n s
  | .pfxExt p => Sys2Proof.Machine.execPfxExt p s
  | .pfxOpt p => Sys2Proof.Machine.execPfxOpt p s
  | .illegalEncoding w => Sys2Proof.Machine.execIllegalEncoding w s
  | .messageArrival qi => Sys2Proof.Machine.execMessageArrival qi s
  | .inboxPortAccept core => Sys2Proof.Machine.execInboxPortAccept core s
  | .messageDispatch core => Sys2Proof.Machine.execMessageDispatch core s
  | .creditReturn qi => Sys2Proof.Machine.execCreditReturn qi s
  | .successorSend core => Sys2Proof.Machine.execSuccessorSend core s
  | .unboundHoldExpiry core => Sys2Proof.Machine.execUnboundHoldExpiry core s
  | .gangRequestAccept => Sys2Proof.Machine.execGangRequestAccept s
  | .placementPass => Sys2Proof.Machine.execPlacementPass s
  | .gangMemberStart core slot => Sys2Proof.Machine.execGangMemberStart core slot s
  | .triggerNotice qi => Sys2Proof.Machine.execTriggerNotice qi s
  | .l1ResizeComplete core => Sys2Proof.Machine.execL1ResizeComplete core s
  | .pageWalkComplete core slot => Sys2Proof.Machine.execPageWalkComplete core slot s
  | .translationReplay t => Sys2Proof.Machine.execTranslationReplay t s
  | .translationAbort t => Sys2Proof.Machine.execTranslationAbort t s
  | .storeBufferPerform core slot => Sys2Proof.Machine.execStoreBufferPerform core slot s
  | .hostMemoryAccess a => Sys2Proof.Machine.execHostMemoryAccess a s
  | .matrixCommandComplete core => Sys2Proof.Machine.execMatrixCommandComplete core s
  | .latchFillComplete core buf => Sys2Proof.Machine.execLatchFillComplete core buf s
  | .handoffClaim core => Sys2Proof.Machine.execHandoffClaim core s
  | .handoffComplete core => Sys2Proof.Machine.execHandoffComplete core s
  | .moverElement core chan => Sys2Proof.Machine.execMoverElement core chan s
  | .channelBeatArrival qi => Sys2Proof.Machine.execChannelBeatArrival qi s
  | .channelCreditReturn qi => Sys2Proof.Machine.execChannelCreditReturn qi s
  | .remoteCaddArrival qi => Sys2Proof.Machine.execRemoteCaddArrival qi s
  | .squallScan => Sys2Proof.Machine.execSquallScan s
  | .tickDelivery e => Sys2Proof.Machine.execTickDelivery e s
  | .tickStart core slot => Sys2Proof.Machine.execTickStart core slot s
  | .budgetExpiry core slot => Sys2Proof.Machine.execBudgetExpiry core slot s
  | .budgetKill core slot => Sys2Proof.Machine.execBudgetKill core slot s
  | .mbsnapCopyComplete qi => Sys2Proof.Machine.execMbsnapCopyComplete qi s
  | .gustCodeStart core => Sys2Proof.Machine.execGustCodeStart core s
  | .gustHoldExpiry p => Sys2Proof.Machine.execGustHoldExpiry p s
  | .gustRelocation core => Sys2Proof.Machine.execGustRelocation core s
  | .heartbeatSend => Sys2Proof.Machine.execHeartbeatSend s
  | .heartbeatReceive => Sys2Proof.Machine.execHeartbeatReceive s
  | .heartbeatWindowExpiry => Sys2Proof.Machine.execHeartbeatWindowExpiry s
  | .fatalErrorMessage => Sys2Proof.Machine.execFatalErrorMessage s
  | .hsctlTake => Sys2Proof.Machine.execHsctlTake s
  | .mirrorPublishReceive p => Sys2Proof.Machine.execMirrorPublishReceive p s
  | .keepRegionMirrorReceive k => Sys2Proof.Machine.execKeepRegionMirrorReceive k s
  | .timeSourceCorrection ns => Sys2Proof.Machine.execTimeSourceCorrection ns s
  | .streamRecordArrival mac r => Sys2Proof.Machine.execStreamRecordArrival mac r s
  | .ingestRecordCommit stream => Sys2Proof.Machine.execIngestRecordCommit stream s
  | .decodeTick stream => Sys2Proof.Machine.execDecodeTick stream s
  | .decodeTickLate stream => Sys2Proof.Machine.execDecodeTickLate stream s
  | .tuntilTimerExpiry core qi => Sys2Proof.Machine.execTuntilTimerExpiry core qi s
  | .egressLaunch q => Sys2Proof.Machine.execEgressLaunch q s
  | .serviceStepScheduler r => Sys2Proof.Machine.execServiceStepScheduler r s
  | .stepBoundary => Sys2Proof.Machine.execStepBoundary s
  | .samplingQueuePost qi => Sys2Proof.Machine.execSamplingQueuePost qi s
  | .lineMissEvent e => Sys2Proof.Machine.execLineMissEvent e s
  | .lineFillEvent e => Sys2Proof.Machine.execLineFillEvent e s
  | .lineEvictionEvent e => Sys2Proof.Machine.execLineEvictionEvent e s
  | .agentBudgetExpiry core slot => Sys2Proof.Machine.execAgentBudgetExpiry core slot s
  | .loaderStart slice => Sys2Proof.Machine.execLoaderStart slice s
  | .loaderDescriptorComplete slice => Sys2Proof.Machine.execLoaderDescriptorComplete slice s
  | .fgetParkRetry core slot => Sys2Proof.Machine.execFgetParkRetry core slot s
  | .futureWake core slot => Sys2Proof.Machine.execFutureWake core slot s
  | .queuePacketStart core slot => Sys2Proof.Machine.execQueuePacketStart core slot s
  | .doorbellWrite q v => Sys2Proof.Machine.execDoorbellWrite q v s
  | .reconcilePass => Sys2Proof.Machine.execReconcilePass s
  | .serviceInstallContext r => Sys2Proof.Machine.execServiceInstallContext r s
  | .serviceShootdown r => Sys2Proof.Machine.execServiceShootdown r s
  | .shootdownComplete => Sys2Proof.Machine.execShootdownComplete s
  | .serviceCreateQueue r => Sys2Proof.Machine.execServiceCreateQueue r s
  | .serviceDestroyQueue r => Sys2Proof.Machine.execServiceDestroyQueue r s
  | .queueDestroyComplete q => Sys2Proof.Machine.execQueueDestroyComplete q s
  | .serviceLoadCodeObject r o => Sys2Proof.Machine.execServiceLoadCodeObject r o s
  | .serviceMigratePage r => Sys2Proof.Machine.execServiceMigratePage r s
  | .serviceSetFrameOwner r => Sys2Proof.Machine.execServiceSetFrameOwner r s
  | .serviceUnknown r => Sys2Proof.Machine.execServiceUnknown r s
  | .thermalControlTick temp power => Sys2Proof.Machine.execThermalControlTick temp power s
  | .partitionEntryWrite n v => Sys2Proof.Machine.execPartitionEntryWrite n v s
  | .partitionHalt n => Sys2Proof.Machine.execPartitionHalt n s
  | .partitionResume n => Sys2Proof.Machine.execPartitionResume n s
  | .partitionSave n => Sys2Proof.Machine.execPartitionSave n s
  | .partitionRestore n => Sys2Proof.Machine.execPartitionRestore n s
  | .partitionSpill n => Sys2Proof.Machine.execPartitionSpill n s
  | .partitionFill n => Sys2Proof.Machine.execPartitionFill n s
  | .partitionCommandComplete n => Sys2Proof.Machine.execPartitionCommandComplete n s
  | .correctableError u addr => Sys2Proof.Machine.execCorrectableError u addr s
  | .uncorrectableError u addr => Sys2Proof.Machine.execUncorrectableError u addr s
  | .fatalError u addr => Sys2Proof.Machine.execFatalError u addr s
  | .errqWrite v => Sys2Proof.Machine.execErrqWrite v s
  | .msixWindowExpiry vec => Sys2Proof.Machine.execMsixWindowExpiry vec s
  | .dbgHaltreq core => Sys2Proof.Machine.execDbgHaltreq core s
  | .dbgResume core => Sys2Proof.Machine.execDbgResume core s
  | .dbgStep core => Sys2Proof.Machine.execDbgStep core s
  | .dbgBksync core => Sys2Proof.Machine.execDbgBksync core s
  | .bksyncComplete core => Sys2Proof.Machine.execBksyncComplete core s
  | .dbgdatAccess core w => Sys2Proof.Machine.execDbgdatAccess core w s
  | .logDwellExpiry core slot => Sys2Proof.Machine.execLogDwellExpiry core slot s
  | .logctlWrite core v => Sys2Proof.Machine.execLogctlWrite core v s
  | .pmselWrite core v => Sys2Proof.Machine.execPmselWrite core v s
  | .tickEntryWrite e v => Sys2Proof.Machine.execTickEntryWrite e v s
  | .mailboxSlotWrite n v => Sys2Proof.Machine.execMailboxSlotWrite n v s
  | .gustPoolWrite v => Sys2Proof.Machine.execGustPoolWrite v s
  | .gustProfileWrite p v => Sys2Proof.Machine.execGustProfileWrite p v s
  | .tmctlWrite v => Sys2Proof.Machine.execTmctlWrite v s
  | .timedStreamWrite stream v => Sys2Proof.Machine.execTimedStreamWrite stream v s
  | .treeTemplateWrite j v => Sys2Proof.Machine.execTreeTemplateWrite j v s
  | .eventTableRowWrite slice r v => Sys2Proof.Machine.execEventTableRowWrite slice r v s
  | .sqcfgWrite v => Sys2Proof.Machine.execSqcfgWrite v s
  | .shedctlWrite v => Sys2Proof.Machine.execShedctlWrite v s
  | .feataccWrite v => Sys2Proof.Machine.execFeataccWrite v s
  | .perstRelease => Sys2Proof.Machine.execPerstRelease s
  | .bootGo => Sys2Proof.Machine.execBootGo s
  | .bootVerifyComplete r => Sys2Proof.Machine.execBootVerifyComplete r s
  | .attestRequest => Sys2Proof.Machine.execAttestRequest s
  | .attestComplete => Sys2Proof.Machine.execAttestComplete s
  | .registerWrite off size v => Sys2Proof.Machine.execRegisterWrite off size v s
  | .requestResponse core slot => Sys2Proof.Machine.execRequestResponse core slot s
  | .wrsTimeout core slot => Sys2Proof.Machine.execWrsTimeout core slot s
  | .barrierArrival qi => Sys2Proof.Machine.execBarrierArrival qi s
  | .perstAssert => Sys2Proof.Machine.execPerstAssert s
  | .sourceLockLoss => Sys2Proof.Machine.execSourceLockLoss s

end Sys2Proof.Machine
end

