-- ==== Sys2Proof/Machine/Due.lean ====
section
/-! DEFINITION. The events that the device's own units bring about while the schedule names no turn (log entry 2). Every one
of them is an event of the table, carried out by its own meaning; only the order in which they come is the model's. -/

namespace Sys2Proof.Machine

/-- One event of a unit that the device's own state can make due. -/
abbrev Chance := State → Out

/-- The events of one thread slot. -/
def slotChances (c n : Nat) : List Chance :=
  [execPageWalkComplete c n, execStoreBufferPerform c n, execWrsTimeout c n, execFgetParkRetry c n, execFutureWake c n,
    execGangMemberStart c n, execTickStart c n, execBudgetExpiry c n, execBudgetKill c n, execAgentBudgetExpiry c n,
    execQueuePacketStart c n, execLogDwellExpiry c n]

/-- The events of one core. -/
def State.coreChances (s : State) (c : Nat) : List Chance :=
  [execInboxPortAccept c, execMessageDispatch c, execSuccessorSend c, execUnboundHoldExpiry c, execL1ResizeComplete c,
    execMatrixCommandComplete c, execLatchFillComplete c 0, execLatchFillComplete c 1, execHandoffClaim c, execHandoffComplete c,
    execMoverElement c 0, execMoverElement c 1, execMoverElement c 2, execMoverElement c 3, execGustCodeStart c,
    execGustRelocation c, execBksyncComplete c] ++
    ((s.timerDue c).toList.map fun i => execTuntilTimerExpiry c i) ++ (List.range 4).flatMap (slotChances c)

/-- The line of a key as an event of its slice. -/
def lineOf (n key : Nat) (l : Line) : LineEvent :=
  { slice := n, pa := BitVec.ofNat 64 (2 ^ 37 + 128 * key), va := 0, way := l.way, requester := 0, asid := l.owner, dirty := l.dirty }

/-- The events of one slice: fills of lines under way, and where a set is full the eviction of its lines. -/
def State.sliceChances (s : State) (n : Nat) : List Chance :=
  let k := s.sliceAt n
  let going := k.lines.filter fun e => e.2.filling
  let full := going.filter fun e => (k.freeWay e.1).isNone
  let victims := k.lines.filter fun e => e.2.present && full.any fun f => lineSet f.1 == lineSet e.1
  execLoaderDescriptorComplete n :: (going.map fun e => execLineFillEvent (lineOf n e.1 e.2)) ++
    victims.map fun e => execLineEvictionEvent (lineOf n e.1 e.2)

/-- What is on its way between units. -/
def State.flightChances (s : State) : List Chance :=
  ((List.range s.flight.messages.length).flatMap fun i => [execMessageArrival i, execSamplingQueuePost i]) ++
    (List.range s.flight.credits.length).map execCreditReturn ++
    (List.range s.flight.beats.length).map execChannelBeatArrival ++
    (List.range s.flight.chanCredits.length).map execChannelCreditReturn ++
    (List.range s.flight.cadds.length).map execRemoteCaddArrival ++
    (List.range s.flight.notices.length).map execTriggerNotice ++
    (List.range s.flight.arrivals.length).map execBarrierArrival

/-- The events of the units outside the cores. -/
def State.unitChances (s : State) : List Chance :=
  [execGangRequestAccept, execPlacementPass, execShootdownComplete, execStepBoundary, execAttestComplete,
    (fun s => .next s.flushKeeps)] ++
    (List.range s.snaps.length).map execMbsnapCopyComplete ++
    (s.services.map fun r => fun s => .next (s.serve r)) ++
    (s.ticks.map fun e => execTickDelivery e.1) ++
    (s.streams.flatMap fun e => [execDecodeTick e.1, execDecodeTickLate e.1]) ++
    (s.egress.map fun e => execEgressLaunch e.1) ++
    (s.gusts.map fun e => execGustHoldExpiry e.1) ++
    (s.queues.map fun e => execQueueDestroyComplete e.1) ++
    ((s.parts.filter fun e => s.partDue e.1).map fun e => execPartitionCommandComplete e.1) ++
    (s.link.window.map fun e => execMsixWindowExpiry e.1) ++
    s.slices.flatMap fun e => s.sliceChances e.1

/-- Every event that the state might make due. -/
def State.chances (s : State) : List Chance :=
  s.flightChances ++ s.unitChances ++ s.cores.flatMap fun e => s.coreChances e.1

/-- A list read from a place on, around to that place. -/
def turned {α : Type} (l : List α) (n : Nat) : List α := l.drop (n % (l.length + 1)) ++ l.take (n % (l.length + 1))

/-- The first event that does something, beginning at another one at every turn. -/
def State.duty (s : State) : Option State :=
  (turned s.chances (s.clock.cc / 4)).findSome? fun f =>
    match f s with
    | .next t => if t = s then none else some t
    | _ => none

/-- The events that recur: Squall's scan and the heartbeats every 100 µs, a reconciliation every 50 µs, and the end of a window
for heartbeats (R195, R223, R224, R282). -/
def State.periodic (s : State) : Option Out :=
  let k := s.clock.cc
  if k % 160000 = 0 then some (execSquallScan s)
  else if k % 160000 = 2 then some (execHeartbeatSend s)
  else if k % 80000 = 6 then some (execReconcilePass s)
  else if s.windowOver then some (execHeartbeatWindowExpiry s)
  else none

end Sys2Proof.Machine
end

