-- ==== Sys2Proof/Machine/Schedule.lean ====
section
/-! DEFINITION. Whose turn it is when the schedule says nothing, what every step adds to time (R225) and to cycle counts
(R201, R266), and what stands before the fetch of an instruction (R299 step 1, R321). -/

namespace Sys2Proof.Machine

/-- A slot that issues when it gets a turn: READY, or blocked in an instruction that it tries again (R55). -/
def Thread.tries (t : Thread) : Bool :=
  match t.run with
  | .ready => true
  | .blocked _ => t.walk.isNone && !t.parked
  | _ => false

/-- Insert a slot by the cycle of its last retirement, the oldest first. -/
def Core.insertOldest (k : Core) (n : Nat) : List Nat → List Nat
  | [] => [n]
  | m :: r => if (k.thread n).retiredAt ≤ (k.thread m).retiredAt then n :: m :: r else m :: k.insertOldest n r

/-- The slots of a core in the order in which they come to issue: cyclic from the one behind the last (R54), or on a tile
whose seizure is pending the oldest retirement first (R216). -/
def Core.issueOrder (k : Core) : List Nat :=
  let l := (List.range 4).map fun i => (k.lastSlot + 1 + i) % 4
  if k.gust.isSome && !k.gustOn then l.foldr k.insertOldest [] else l

/-- A slot that is READY, or would be if its condition holds, has the issue slot of its core only when no READY slot comes
before it (R54, R216). -/
def Core.hasIssue (k : Core) (n : Nat) : Bool :=
  k.issueOrder.find? (fun m => m == n || (k.thread m).run == .ready) == some n

/-- A slot can have a turn: a READY one that has the issue slot, or one that tries its instruction again, which issues nothing
while its condition does not hold (R54, R55). -/
def Core.canTurn (k : Core) (n : Nat) : Bool :=
  (k.thread n).tries && ((k.thread n).run != .ready || k.hasIssue n)

/-- The next slot of a core that can have a turn, cyclic from the one behind the last that had one. -/
def Core.nextSlot (k : Core) : Option Nat := ((List.range 4).map fun i => (k.lastTry + 1 + i) % 4).find? k.canTurn

/-- The two cycles of a step, for every activation whose cycles count: running on a reflex tile or slice agent, and not stopped or suspended
for a save (R201, R266, R323, R406). -/
def Thread.countCycle (t : Thread) : Thread :=
  match t.run with
  | .stopped => t
  | .suspended .preempted => if t.saveKind = 9 then { t with act := t.act.map fun a => { a with cycles := a.cycles + 2 } } else t
  | .suspended _ => t
  | .idle => t
  | _ => { t with act := t.act.map fun a => { a with cycles := a.cycles + 2 } }

/-- Count the cycles of a step on a core, unless its context is saved (R201, R266, R318). -/
def Core.countCycle (c : Nat) (k : Core) : Core :=
  if (coreType c = .reflex || coreType c = .agent) && k.saved.isNone then
    { k with cx := { k.cx with threads := k.cx.threads.map fun e => (e.1, e.2.countCycle) } }
  else k

/-- Matrix cycles that end in the two core cycles after a cycle count: 800 MHz, and on reasoning tiles `mclk` (R3, R12). -/
def matrixCycles (mhz cc : Nat) : Nat := (cc + 2) * mhz / 1600 - cc * mhz / 1600

/-- A core has an L1 portion (R85). -/
def Core.hasL1 (k : Core) (c : Nat) : Bool := coreType c == .reasoning && k.l1cfg != 0

/-- The performance events that a step's two cycles after cycle `cc` are (R330): core cycles, cycles with no READY slot, the
matrix cycles of a busy unit and cycles with a full store buffer; what the banks and the L1 portion did in them, which the
spec's timing leaves open, is a free value (log entry 12). -/
def Core.tallyCycles (k : Core) (c mhz cc : Nat) : Core :=
  if k.pmsel = 0 then k
  else
    let slots := (List.range 4).map k.thread
    let k1 := k.tally 0x01 2
    let k2 := if slots.any fun t => t.run == .ready then k1 else k1.tally 0x03 2
    let k3 := if k.cx.mx.running.isSome then k2.tally 0x04 (matrixCycles (if coreType c = .reasoning then mhz else 800) cc) else k2
    let k4 := if slots.any fun t => decide (8 ≤ t.sbuf.length) then k3.tally 0x0F 2 else k3
    let open_ : List Nat := [5, 6] ++ if k.hasL1 c then [8, 9] else []
    open_.foldl (fun k code => k.tally code (Config.memoryEvents code c cc)) k4

/-- Two core cycles pass, of 625 ps each; a correction still to be slewed moves device time by one more or less in every
10 µs, which is 100 ppm (R3, R225). -/
def Clock.pass (k : Clock) : Clock :=
  let cc := k.cc + 2
  let ns := 5 * cc / 8 - 5 * k.cc / 8
  if k.slew = 0 ∨ cc % 16000 ≠ 0 then { k with cc := cc, now := (k.now + ns) % 2 ^ 64 }
  else if 0 < k.slew then { k with cc := cc, now := (k.now + ns + 1) % 2 ^ 64, slew := k.slew - 1 }
  else { k with cc := cc, now := (k.now + ns - 1) % 2 ^ 64, slew := k.slew + 1 }

/-- What every step adds: two core cycles and their device time (log entry 2). -/
def State.advance (s : State) : State :=
  { s with clock := s.clock.pass, cores := s.cores.map fun e => (e.1, ((e.2.watch s.clock).countCycle e.1).tallyCycles e.1 s.shed.mclk s.clock.cc) }

/-- A turn that the agenda is empty for: the first core, cyclically, with a slot that can issue. -/
def State.nextTurn (s : State) : Option Turn :=
  (s.cores.filter fun e => decide (s.cur < e.1)).findSome? (fun e => e.2.nextSlot.map fun n => Turn.thread e.1 n)
  <|> s.cores.findSome? (fun e => e.2.nextSlot.map fun n => Turn.thread e.1 n)

/-- What stops a slot before its instruction is fetched: a debug stop that is due, a vector still to be taken, a
budget. -/
inductive Before where
  | go (s : State)
  | settle (s : State)
  deriving DecidableEq, Repr

/-- What stands before the fetch (R201, R277, R299 step 1, R321). -/
def State.before (s : State) (c n : Nat) : Before :=
  let k := s.core c
  let t := k.thread n
  let a := t.act.getD {}
  if t.stopDue && t.pfx.isNone && t.run == .ready then .settle (s.debugStop c n t.stopWhy.toNat)
  else if t.vectorDue then .settle (s.settleTrap c n)
  else if coreType c = .reflex && a.kind == .task && (t.pfx.isNone || t.run != .ready) && !a.budgetTaken && decide (16 * a.budget ≤ a.cycles) then
    .settle (s.budgetTrap c n)
  else match a.queueOf with
    | some q => if (s.queueAt q).budget ≤ a.retired then .settle (s.faultQueue c n q 1) else .go s
    | none => .go s

end Sys2Proof.Machine
end

