-- ==== Sys2Proof/Machine/Step.lean ====
section
/-! DEFINITION. The step of the device: the next turn of the schedule, an event or an instruction of a thread. -/

namespace Sys2Proof.Machine

/-- Carry out a fetched word: the instruction it decodes to, or the trap of a word that is none (R300). -/
def execWord (w : Word) (s : State) : Host.Outcome State Fault Refusal :=
  match decode w with
  | some i => exec i s
  | none => exec (.illegalEncoding w) s

/-- A blocked slot has tried its instruction again, from the state `s` to the answer `r`. While its condition does not hold it
stays out of the rotation and nothing issues; when it holds the instruction issues, or, where another READY slot has the issue
slot, the slot is READY and the instruction has not run (R54, R55). -/
def State.retry (s : State) (c n : Nat) (r : Host.Outcome State Fault Refusal) : Host.Outcome State Fault Refusal :=
  match r with
  | .next t =>
    match (t.thread c n).run with
    | .blocked _ => r
    | .suspended _ => r
    | _ =>
      if (s.core c).hasIssue n then .next (t.modCore c fun k => { k with lastSlot := n })
      else .next (s.modThread c n fun h => { h with run := .ready })
  | _ => r

/-- The turn of a thread slot: what stands before the fetch, the fetch, the break bit that came with it, and the instruction. A
READY slot issues only when R54 gives it the issue slot of its core. -/
def runThread (c n : Nat) (s : State) : Host.Outcome State Fault Refusal :=
  if !isCore c || decide (4 ≤ n) then .fault .malformedEvent
  else if !(s.core c).canTurn n then .next s
  else
    let s := ({ s with cur := c, slot := n } : State).modCore c fun k => { k with lastTry := n }
    match s.before c n with
    | .settle s => .next s
    | .go s =>
      match s.fetch c n with
      | .trap code v => .next ((s.fetchRecord c n code v).trapped c n code v)
      | .walk w => .next (s.awaitWalk c n w)
      | .word w s =>
        if s.breakAt c n w then .next (s.debugStop c n 2)
        else if (s.thread c n).run = .ready then execWord w.word (s.modCore c fun k => { k with lastSlot := n })
        else s.retry c n (execWord w.word s)

/-- A turn of the schedule; only the events of the table come as events. -/
def runTurn (t : Turn) (s : State) : Host.Outcome State Fault Refusal :=
  match t with
  | .thread c n => runThread c n s
  | .event i => if groupOf i = .event then exec i s else .next s

/-- A step that the agenda leaves open: what recurs, else by turns an event of the device's units or a thread's
instruction (log entry 2). -/
def State.idleTurn (s : State) : Host.Outcome State Fault Refusal :=
  match s.periodic with
  | some r => r
  | none =>
    let thread := s.nextTurn
    if s.clock.cc % 4 = 0 ∨ thread.isNone then
      match s.duty, thread with
      | some t, _ => .next t
      | none, some t => runTurn t s
      | none, none => .next s
    else
      match thread with
      | some t => runTurn t s
      | none => .next s

/-- One step: time moves on, and the head of the agenda has its turn, or what the device does by itself. -/
def step (s : State) : Host.Outcome State Fault Refusal :=
  match s.agenda with
  | t :: rest => runTurn t ({ s with agenda := rest }).advance
  | [] => s.advance.idleTurn

/-- The core on which an instruction can run: the first type that has it (R357). -/
def homeCore (i : Instr) : Nat :=
  let has (t : CoreType) : Bool := availability (groupOf i) t != .no
  if has .reasoning then 0 else if has .reflex then 256 else if has .agent then 288 else 352

/-- The pc at which `State.withFetchWord` places an instruction. -/
def placePc : Dword := 0x1000

/-- The state with an instruction placed where the next step fetches it: slot 0 of a core whose type has the instruction is
READY with an activation whose pc names the word, in the mode the instruction needs, with every feature of the device accepted
as start-up leaves it, and has the next turn. -/
def State.withFetchWord (s : State) (nbits w : Nat) : State :=
  let i := decodeTableWord nbits w
  let c := match i with | some i => homeCore i | none => 0
  let sup := match i with | some i => availability (groupOf i) (coreType c) == .sup | none => false
  let loc := if c = 0 then dramLoc 0x1000 else sramLoc c 0x1000
  let t : Thread := { s.thread c 0 with
    run := .ready, pfx := none, sp := true, walk := none, parked := false, vectorDue := false, fetched := [],
    act := some { kind := if coreType c = .reasoning || coreType c = .reflex then .task else .firmware, budget := 4095 } }
  let t := (t.setPc placePc)
  let t := { t with csr := { t.csr with mode := sup } }
  let boot := { s.boot with featacc := s.boot.featacc ||| 0x3FF }
  let s := { s with mem := memWrite s.mem loc (leBytes 4 (w % 2 ^ 32)), agenda := [.thread c 0], boot := boot }
  let k := (s.core c).setThread 0 t
  let k := { k with icache := [], tlb := if c = 0 then
      [{ root := 0, asid := 0, level := 0, page := 1, leaf := 0x106F }] else k.tlb }
  s.setCore c k

end Sys2Proof.Machine
end

