-- ==== Sys2Proof/Safety.lean ====
section
/-! DEFINITION. The terms in which claims are stated: safe runs, an instruction that is admitted, how it leaves, where a
load, a store or an atomic leads, and what an instruction leaves unchanged. -/

namespace Sys2Proof

/-- The state reached by a number of steps, if none of them stops. -/
def run (s : Machine.State) : Nat → Option Machine.State
  | 0 => some s
  | n + 1 =>
    match Machine.step s with
    | .next t => run t n
    | _ => none

/-- Every step of a run of any length answers a next state. -/
def Safe (s : Machine.State) : Prop := ∀ n, (run s n).isSome = true

namespace Machine

/-! How an instruction leaves. -/

/-- The checks of R299 that stand before an instruction's own all pass: the core type has it and its feature is accepted, its
fields and prefix are legal, the mode allows it, and no rule of R71 refuses it. -/
abbrev Admitted (i : Instr) (s : State) : Prop := s.refuses i = none

/-- The instruction answers the next state in which its thread has retired it with the effect `t`: pc is behind its word and
its prefix is spent. -/
abbrev Retires (i : Instr) (s t : State) : Prop := exec i s = .next (s.finish (.retire t))

/-- The instruction answers the next state in which its thread has retired it with the effect `t` and goes on at `pc`. -/
abbrev Jumps (i : Instr) (s : State) (pc : Dword) (t : State) : Prop := exec i s = .next (s.finish (.jump pc t))

/-- The instruction answers the next state in which its thread has taken a trap (R301, R303). -/
abbrev Traps (i : Instr) (s : State) (code : Nat) (tval : Dword) (t : State) : Prop :=
  exec i s = .next (s.finish (.trap code tval t))

/-- The instruction answers the next state in which its slot has been settled: it runs a matrix command, or its activation has
ended. -/
abbrev Settles (i : Instr) (s t : State) : Prop := exec i s = .next (s.finish (.done t))

/-- The instruction answers the next state in which its slot waits. -/
abbrev Waits (i : Instr) (s : State) (w : Wait) (t : State) : Prop := exec i s = .next (s.finish (.wait w t))

/-- An event of the device's units or of the world outside has an effect where the units it names exist; no other event of its
kind exists, and a step on one stops. -/
abbrev Happens (i : Instr) (s : State) (ok : Prop) (t : State) : Prop :=
  (ok → exec i s = .next t) ∧ (¬ok → exec i s = .fault .malformedEvent)

/-- A result in an x register and one in a pair, each with the instruction that gives it. -/
abbrev WordResult := Instr × Word

/-- The effect of a lane-wise operation on the active lanes of a destination, its flags included (R467, R469). -/
def State.lanesInto (s : State) (d : Reg) (k : Word) (w : Nat) (f : Nat → Nat × FlagSet) : State :=
  (s.vput d.toNat (mapLanes k w (s.vold d.toNat) fun i => (f i).1)).flag (laneFlags k w fun i => (f i).2)

/-- A vector instruction retires with an effect when its bound operands are ready: each bound source then gives up one entry
(R468). -/
def VectorRetires (i : Instr) (srcs dsts : List Nat) (s t : State) : Prop :=
  Admitted i s → s.vecCheck srcs dsts = .go → Retires i s (t.popSources srcs)

/-- The bits of a comparison: all bits of an active lane say whether its relation holds, those of an inactive lane stay. -/
def CompareMask (k old m : Word) (w : Nat) (rel : Nat → Bool) : Prop :=
  ∀ j : Fin 32, m.getLsbD j = if active k w (j / w) then rel (j / w) else old.getLsbD j

/-! Where an access leads. -/

/-- A scalar load of `size` bytes passes its checks and reads the bytes `l`, leaving `t` (R412, R413). -/
def LoadReads (s : State) (b : BitVec 4) (o : BitVec 15) (size : Nat) (l : List Byte) (t : State) : Prop :=
  s.safeRule (loadBlocks (s.basePath b)) true (s.basePath b) = 0 ∧
    ∃ a p, s.mAddr b o size = some a ∧ s.windowAllows false a 0 size = true ∧
      s.reach s.issuer a size 0 size .load = .to p ∧ s.readPlace s.issuer a p (List.range size) = .bytes l t

/-- A scalar store of `size` bytes of `v` passes its checks and is taken at `p`, leaving `t` (R443, R444). -/
def StoreTakes (s : State) (b : BitVec 4) (o : BitVec 15) (size v : Nat) (p : Place) (t : State) : Prop :=
  s.safeRule (storeBlocks (s.basePath b)) false (s.basePath b) = 0 ∧
    ∃ a, s.mAddr b o size = some a ∧ s.windowAllows true a 0 size = true ∧
      s.reach s.issuer a size 0 size .store = .to p ∧
      s.writePlace s.issuer p ((List.range size).zip (leBytes size v)) = .ok t

/-- A vector access at `a` with some active bytes passes its checks and leads to `p` (R486). -/
def VectorLeads (s : State) (b : BitVec 4) (k : Word) (o : BitVec 15) (acc : Access) (blocks : Bool) (a : Dword) (p : Place) :
    Prop :=
  activeOffs k (pathLane (s.basePath b)) ≠ [] ∧ s.safeRule blocks (acc == .load) (s.basePath b) = 0 ∧
    s.mAddr b o 32 = some a ∧ a.toNat % 32 = 0 ∧ s.reachVec a k acc = .to p

/-- An atomic of `size` bytes at `a` passes its checks and performs at `loc`, leaving `t` before its effect (R373). -/
def AtomicAt (s : State) (a : Dword) (size scope : Nat) (rl : Bool) (loc : Nat) (t : State) : Prop :=
  ((rl || pathByte a == 0) = true → s.drained = true) ∧ t.poisoned loc (loc + size) = none ∧
    ((s.reach s.issuer a size 0 size (.atomic scope) = .to (.mem loc) ∧ t = s) ∨
      ∃ path va, s.reach s.issuer a size 0 size (.atomic scope) = .to (.virt path va) ∧
        s.translate s.cur s.act.asid path va .atomic = .hit loc ∧ t = s.touchTlb s.cur s.act.asid path va .atomic)

/-- An atomic that also reads: as `AtomicAt`, with the read allowed by R71 and counted by it. -/
def AtomicReads (s : State) (a : Dword) (size scope : Nat) (rl : Bool) (loc : Nat) (t : State) : Prop :=
  s.safeRule false true (pathByte a) = 0 ∧ ∃ u, AtomicAt s a size scope rl loc u ∧ t = u.countRead (pathByte a)

/-- An operation on a future's cell passes its checks and performs at `loc`, leaving `t` before its effect (R401). -/
def CellAt (s : State) (c : Dword) (loc : Nat) (t : State) : Prop :=
  pathByte c = 0 ∧ c.toNat % 16 = 0 ∧ s.drained = true ∧
    (∃ p, s.reach s.issuer c 16 0 16 (.atomic 2) = .to p) ∧
    s.translate s.cur s.act.asid 0 (bits c.toNat 0 56) .atomic = .hit loc ∧
    (s.touchTlb s.cur s.act.asid 0 (bits c.toNat 0 56) .atomic).poisoned loc (loc + 16) = none ∧
    t = (s.touchTlb s.cur s.act.asid 0 (bits c.toNat 0 56) .atomic).loseOthers s.issuer loc (loc + 16)

/-! What stays. -/

/-- A thread's vector, mask, message-build and engine registers and its CSRs are those of another. -/
def SideRegsKept (t u : Thread) : Prop :=
  (∀ r, u.getV r = t.getV r) ∧ (∀ r, u.getK r = t.getK r) ∧ (∀ r, u.getM r = t.getM r) ∧ (∀ r, u.getE r = t.getE r) ∧
    u.csr = t.csr ∧ u.other = t.other ∧ u.ctr = t.ctr

/-- Every register of a thread but pc is that of another. -/
def RegsKept (t u : Thread) : Prop := (∀ r, u.getX r = t.getX r) ∧ SideRegsKept t u

/-- Every register but pc of the slots whose turn it is not. -/
def OthersKept (s t : State) : Prop :=
  ∀ c n, ¬(c = s.cur ∧ n = s.slot) → RegsKept (s.thread c n) (t.thread c n)

/-- Storage, its poison and the reservations are as before. -/
def StorageKept (s t : State) : Prop := t.mem = s.mem ∧ t.poison = s.poison ∧ t.resvs = s.resvs

/-- Only x registers that `w` names have changed, of the registers but pc and of storage. -/
def OnlyXChanged (w : Nat → Prop) (s t : State) : Prop :=
  StorageKept s t ∧ OthersKept s t ∧ SideRegsKept s.th (t.thread s.cur s.slot) ∧
    ∀ r, ¬w r → (t.thread s.cur s.slot).getX r = s.th.getX r

/-! The end of an activation. -/

/-- From the state `v`, `u` has ended the activation of a slot as an `exit` does (R394): the slot is free, or stopped where a halt
is requested; its reservation is lost, and no other arises; no binding, ring or hold of a bank is its own; the banks' contents, the
running command, counters, timers and keep regions stay; a gang member has exited and triggered; a queue program's launches go to
placement and RIDX advances; Gust code has added to HCNT. -/
def ActivationEnds (v u : State) (c n : Nat) : Prop :=
  let a := (v.thread c n).act.getD {}
  let x := (v.core c).cx
  let y := (u.core c).cx
  let t := u.thread c n
  (t.act = none ∧ t.pfx = none ∧ t.staged = [] ∧
    t.run = if (v.core c).dbg.haltreq = true ∧ a.kind.isGust = false then .stopped else .idle) ∧
  (∀ e ∈ u.resvs, e ∈ FMap.del v.resvs (slotKey c n)) ∧
  ((∀ b ∈ y.bounds, b.slot ≠ n) ∧ (∀ e ∈ y.mx.held, e.2 ≠ n) ∧
    y.mx.ring = if x.mx.ringSlot = some n then 0 else x.mx.ring) ∧
  (y.mx.acc = x.mx.acc ∧ y.mx.running = x.mx.running ∧ (a.kind.isGust = false → y.ctr = x.ctr) ∧
    (coreType c ≠ .agent → y.timers = x.timers) ∧ (x.clearing = [] → y.binds = x.binds)) ∧
  (∀ p, a.gang = some p → ∀ g ∈ v.gangs, g.no = p.1 → ∀ m, FMap.find g.members p.2 = some m → m.st = .running →
    ∃ h ∈ u.gangs, h.no = g.no ∧ FMap.find h.members p.2 = some { m with st := .exited, trig := true }) ∧
  (∀ q, a.kind = .queueProgram q → (u.queueAt q).running = false ∧ (u.queueAt q).ridx = (v.queueAt q).ridx + 1 ∧
    u.gangPort = v.gangPort ++ (v.thread c n).staged.map fun d => { desc := d, asid := a.asid, queue := some q }) ∧
  ∀ p m, a.kind = .gust p m →
    let r := (FMap.get v.gusts p {}).reg.toNat
    let d := 256 + bits r 110 5
    let k := bits r 104 6
    d ≠ c → (v.core d).saved = none → (u.core d).cx.ctr = FMap.set (v.core d).cx.ctr k (FMap.get (v.core d).cx.ctr k 0 + 1) 0

end Machine

end Sys2Proof
end

