-- ==== Sys2Proof/Certificates/Slice0/Obligations.lean ====
section
/-! DEFINITION. The statements for the provers. Most of them give, for each instruction that they name, the whole next
state that it answers when its checks pass. -/

open Sys2Proof Sys2Proof.Machine

/-! Scalar instructions. -/

/-- The results of the register forms of the integer instructions, for every state and all registers, x0 among them. -/
def Obligations.IntegerRegisterResults : Prop :=
  ∀ (s : State) (d a b : Reg),
    let x := s.x a
    let y := s.x b
    let n := y.toNat % 32
    let width := min (y.toNat / 256 % 64) 32
    ∀ e ∈ ([
      (.add d a b, x + y), (.sub d a b, x - y), (.and d a b, x &&& y), (.or d a b, x ||| y), (.xor d a b, x ^^^ y),
      (.andn d a b, x &&& ~~~y), (.sll d a b, x <<< n), (.srl d a b, x >>> n), (.sra d a b, x.sshiftRight n),
      (.rol d a b, (x <<< n) ||| (x >>> (32 - n))),
      (.slt d a b, if x.toInt < y.toInt then 1 else 0), (.sltu d a b, if x.toNat < y.toNat then 1 else 0),
      (.min d a b, if x.toInt ≤ y.toInt then x else y), (.max d a b, if y.toInt ≤ x.toInt then x else y),
      (.minu d a b, if x.toNat ≤ y.toNat then x else y), (.maxu d a b, if y.toNat ≤ x.toNat then x else y),
      (.mul d a b, x * y), (.mulh d a b, (x.signExtend 64 * y.signExtend 64).extractLsb' 32 32),
      (.mulhu d a b, (x.setWidth 64 * y.setWidth 64).extractLsb' 32 32),
      (.bfx d a b, (x >>> n) &&& BitVec.ofNat 32 (2 ^ width - 1)),
      (.bfi d a b, (s.x d &&& ~~~BitVec.ofNat 32 ((2 ^ width - 1) * 2 ^ n)) |||
        ((x <<< n) &&& BitVec.ofNat 32 ((2 ^ width - 1) * 2 ^ n)))] : List WordResult),
      Admitted e.1 s → Retires e.1 s (s.setX d e.2)

/-- Division and remainder: a zero divisor gives all ones and the dividend, the one overflowing quotient wraps, and quotient
times divisor plus remainder is the dividend for every operand pair (R369, R434). -/
def Obligations.DivisionResults : Prop :=
  (∀ (s : State) (d a b : Reg),
    let x := s.x a
    let y := s.x b
    ∀ e ∈ ([
      (.div d a b, if y = 0 then BitVec.allOnes 32 else x.sdiv y), (.rem d a b, x.srem y),
      (.divu d a b, if y = 0 then BitVec.allOnes 32 else BitVec.ofNat 32 (x.toNat / y.toNat)),
      (.remu d a b, BitVec.ofNat 32 (x.toNat % y.toNat))] : List WordResult),
      Admitted e.1 s → Retires e.1 s (s.setX d e.2)) ∧
    ∀ x y : Word, divWord x y * y + remWord x y = x ∧ divuWord x y * y + remuWord x y = x

/-- The results of the forms with one source register and of the immediate forms: an immediate is sign- or zero-extended, or
widened to 32 bits by a prefix of KIND 00 whose payload gives the upper half (R73, R345). -/
def Obligations.UnaryAndImmediateResults : Prop :=
  ∀ (s : State) (d a h : Reg) (i : BitVec 16),
    let x := s.x a
    let wide (p : Word) : Word := p.extractLsb' 0 16 ++ i
    let prefixed := s.th.pfx.bind fun p => if p.extractLsb' 24 2 = 0 then some (wide p) else none
    let sx := prefixed.getD (i.signExtend 32)
    let zx := prefixed.getD (i.setWidth 32)
    ∀ e ∈ ([
      (.addi d a i, x + sx), (.andi d a i, x &&& zx), (.ori d a i, x ||| zx), (.xori d a i, x ^^^ zx),
      (.slti d a i, if x.toInt < sx.toInt then 1 else 0), (.sltiu d a i, if x.toNat < sx.toNat then 1 else 0),
      (.clz d a, x.clz), (.ctz d a, x.ctz), (.popc d a, x.cpop), (.sextB d a, (x.setWidth 8).signExtend 32),
      (.sextH d a, (x.setWidth 16).signExtend 32), (.zextB d a, x &&& 0xFF), (.zextH d a, x &&& 0xFFFF),
      (.lui d i, i.setWidth 32 <<< 16), (.slli d a h, x <<< h.toNat), (.srli d a h, x >>> h.toNat),
      (.srai d a h, x.sshiftRight h.toNat)] : List WordResult),
      Admitted e.1 s → Retires e.1 s (s.setX d e.2)

/-- The results of the pair instructions, all 64 bits, the path byte among them (R370, R428, R456). -/
def Obligations.PairResults : Prop :=
  ∀ (s : State) (d a b : Reg) (i : BitVec 16),
    ∀ e ∈ ([
      (.addp d a b, s.p a + (s.x b).signExtend 64), (.subp d a b, s.p a - s.p b), (.movp d a, s.p a),
      (.addpi d a i, s.p a + (s.immS i).signExtend 64)] : List (Instr × Dword)),
      Admitted e.1 s → Retires e.1 s (s.setP d e.2)

/-- A compare, mask or counting branch goes to its own address plus four times its offset when its condition holds, and
otherwise on (R60, R381, R382, R389). -/
def Obligations.BranchOutcomes : Prop :=
  ∀ (s : State) (a b : Reg) (k : BitVec 3) (o : BitVec 16),
    let x := s.x a
    let y := s.x b
    let target := s.pc + 4 * (s.immS o).signExtend 64
    let less := s.setX a (x - 1)
    ∀ e ∈ ([
      (.beq a b o, decide (x = y), s), (.bne a b o, decide (x ≠ y), s), (.blt a b o, decide (x.toInt < y.toInt), s),
      (.bge a b o, decide (y.toInt ≤ x.toInt), s), (.bltu a b o, decide (x.toNat < y.toNat), s),
      (.bgeu a b o, decide (y.toNat ≤ x.toNat), s), (.bkany k o, decide (s.k k ≠ 0), s),
      (.bkall k o, decide (s.k k = BitVec.allOnes 32), s), (.bknone k o, decide (s.k k = 0), s),
      (.dbnz a o, decide (x ≠ 1), less)] : List (Instr × Bool × State)),
      Admitted e.1 s → if e.2.1 then Jumps e.1 s target e.2.2 else Retires e.1 s e.2.2

/-- The mask branches test all 32 bits of their mask. -/
def Obligations.MaskBranchTests : Prop :=
  ∀ (s : State) (k : BitVec 3) (o : BitVec 16),
    (Admitted (.bkany k o) s → (∃ i : Fin 32, (s.k k).getLsbD i = true) → Jumps (.bkany k o) s (s.branchTo o) s) ∧
    (Admitted (.bkany k o) s → (∀ i : Fin 32, (s.k k).getLsbD i = false) → Retires (.bkany k o) s s) ∧
    (Admitted (.bkall k o) s → (∀ i : Fin 32, (s.k k).getLsbD i = true) → Jumps (.bkall k o) s (s.branchTo o) s) ∧
    (Admitted (.bkall k o) s → (∃ i : Fin 32, (s.k k).getLsbD i = false) → Retires (.bkall k o) s s) ∧
    (Admitted (.bknone k o) s → (∀ i : Fin 32, (s.k k).getLsbD i = false) → Jumps (.bknone k o) s (s.branchTo o) s) ∧
    (Admitted (.bknone k o) s → (∃ i : Fin 32, (s.k k).getLsbD i = true) → Retires (.bknone k o) s s)

/-- The jumps: their targets, taken from the registers before any write, and their links (R346, R407). -/
def Obligations.JumpOutcomes : Prop :=
  ∀ (s : State) (d a : Reg) (o : BitVec 25) (f : BitVec 10),
    let link := s.pc + 4
    let far := s.pc + 4 * o.signExtend 64
    (Admitted (.j o) s → Jumps (.j o) s far s) ∧
    (Admitted (.jal o) s → Jumps (.jal o) s far (s.setX 1 (link.setWidth 32))) ∧
    (Admitted (.jalr d a f) s →
      Jumps (.jalr d a f) s (s.pc.extractLsb' 32 32 ++ (s.x a + 4 * f.signExtend 32)) (s.setX d (link.setWidth 32))) ∧
    (Admitted (.jalrFar 0 a f) s → Jumps (.jalrFar 0 a f) s (s.p a + 4 * f.signExtend 64) s) ∧
    (d ≠ 0 → Admitted (.jalrFar d a f) s → Jumps (.jalrFar d a f) s (s.p a + 4 * f.signExtend 64) (s.setP d link))

/-- The mask instructions: k0 reads all ones and takes no write, by `State.k` and `State.setK` (R58, R410). -/
def Obligations.MaskResults : Prop :=
  ∀ (s : State) (d : Reg) (kd ka kb : BitVec 3) (a : Reg),
    (∀ e ∈ ([(.kand kd ka kb, s.k ka &&& s.k kb), (.kor kd ka kb, s.k ka ||| s.k kb), (.kxor kd ka kb, s.k ka ^^^ s.k kb),
        (.knot kd ka, ~~~s.k ka), (.kmovK kd ka, s.k ka), (.kgen kd a, s.x a)] : List WordResult),
        Admitted e.1 s → Retires e.1 s (s.setK kd e.2)) ∧
      ∀ e ∈ ([(.kmovX d ka, s.k ka), (.kpopc d ka, (s.k ka).cpop), (.kfirst d ka, (s.k ka).ctz)] : List WordResult),
        Admitted e.1 s → Retires e.1 s (s.setX d e.2)

/-- Hard-wired registers: a write to x0 or k0 changes nothing, x0 reads zero and k0 all ones, and any other register reads
what was written to it last, each of the rest what it read before (R58). -/
def Obligations.HardWiredRegisters : Prop :=
  ∀ (t : Thread) (r q : Nat) (v : Word),
    t.setX 0 v = t ∧ t.getX 0 = 0 ∧ t.setK 0 v = t ∧ t.getK 0 = BitVec.allOnes 32 ∧
    (r ≠ 0 → (t.setX r v).getX r = v ∧ (t.setK r v).getK r = v) ∧
    (q ≠ r → (t.setX r v).getX q = t.getX q ∧ (t.setK r v).getK q = t.getK q)

/-! Loads and stores. -/

/-- A load that passes its checks writes the bytes it reads, little-endian, sign- or zero-extended, through whichever path
(R412, R413). The location that a byte of storage has is the model's name for it (log entry 4). -/
def Obligations.LoadResults : Prop :=
  ∀ (s t : State) (d : Reg) (b : BitVec 4) (o : BitVec 15) (l : List Byte),
    let u := t.countRead (s.basePath b)
    let n := leNat l
    (∀ e ∈ ([(.lb d b o, 1, (BitVec.ofNat 8 n).signExtend 32), (.lbu d b o, 1, (BitVec.ofNat 8 n).setWidth 32),
        (.lh d b o, 2, (BitVec.ofNat 16 n).signExtend 32), (.lhu d b o, 2, (BitVec.ofNat 16 n).setWidth 32),
        (.lw d b o, 4, BitVec.ofNat 32 n)] : List (Instr × Nat × Word)),
        Admitted e.1 s → LoadReads s b o e.2.1 l t → l.length = e.2.1 → Retires e.1 s (u.setX d e.2.2)) ∧
      (Admitted (.ld d b o) s → LoadReads s b o 8 l t → Retires (.ld d b o) s (u.setP d (BitVec.ofNat 64 n)))

/-- A store that passes its checks retires with the low bytes of its register, little-endian, taken at the place its address
leads to, through whichever path (R443, R444). -/
def Obligations.StoreResults : Prop :=
  ∀ (s t : State) (d : Reg) (b : BitVec 4) (o : BitVec 15) (p : Place),
    (∀ e ∈ ([(.sb d b o, 1), (.sh d b o, 2), (.sw d b o, 4)] : List (Instr × Nat)),
        Admitted e.1 s → StoreTakes s b o e.2 (s.x d).toNat p t → Retires e.1 s t) ∧
      (Admitted (.sd d b o) s → StoreTakes s b o 8 (s.p d).toNat p t → Retires (.sd d b o) s t)

/-- On the core's own SRAM and on the other plain memories a store writes its bytes at once, and on path 0x00 it enters the
store buffer, from which it performs later (R119). Where R122 and R123 order nothing (a remote scratchpad, paths 0x01, 0x08 and
0x09, stores that another unit sees), that the bytes are written at once is the model's choice (log entry 13). -/
def Obligations.StorePlaces : Prop :=
  ∀ (s t : State) (i : Issuer) (l : List (Nat × Byte)),
    (∀ loc, s.writePlace i (.mem loc) l = .ok t → t.mem = memCells s.mem (l.map fun e => (loc + e.1, e.2))) ∧
    (∀ va loc, s.translate i.core i.asid 0 va .store = .hit loc → s.writePlace i (.virt 0 va) l = .ok t →
      t.mem = s.mem ∧
        (t.thread i.core i.slot).sbuf = (s.thread i.core i.slot).sbuf ++ [l.map fun e => (loc + e.1, e.2)]) ∧
    ∀ c n e rest, (s.thread c n).sbuf = e :: rest →
      (s.performStore c n).mem = memCells s.mem e ∧ ((s.performStore c n).thread c n).sbuf = rest

/-- A misaligned scalar load or store, through whichever path, and one narrower than an element of a decode view, traps with
cause ALIGN, its address in `tval` and an ACCESS record, and does nothing else, where no class that stands higher applies; on
path 0x10 that is wherever a raw access may reach, on the translated paths wherever [55:48] are zero (R83). -/
def Obligations.MisalignedAccessTraps : Prop :=
  ∀ (s : State) (d : Reg) (b : BitVec 4) (o : BitVec 15) (a : Dword),
    let i := s.issuer
    let lo := bits a.toNat 0 32
    let path := pathByte a
    let view := 0x11 ≤ path ∧ path ≤ 0x15
    let traps (i : Instr) : Prop := Traps i s causeAlign a
      (s.threadRecord s.cur s.slot 0x01 2 [(24, 8, a.toNat), (32, 1, causeAlign), (36, 4, (encode i).toNat)])
    let allowed (load : Bool) : Prop :=
      s.safeRule (if load then loadBlocks (s.basePath b) else storeBlocks (s.basePath b)) load (s.basePath b) = 0 ∧
        s.act.queueOf = none
    (∀ e ∈ ([(.lh d b o, 2), (.lhu d b o, 2), (.lw d b o, 4), (.ld d b o, 8), (.sh d b o, 2), (.sw d b o, 4), (.sd d b o, 8)] :
        List (Instr × Nat)),
      Admitted e.1 s → s.basePath b = 0x10 → s.mAddr b o e.2 = some a → path = 0x10 → bits a.toNat 32 24 = 0 →
        s.act.queueOf = none → s.ownClass i lo (lo + e.2) = 0 → s.l1Busy s.cur lo (lo + e.2) = false → a.toNat % e.2 ≠ 0 →
        traps e.1) ∧
    (∀ e ∈ ([(.lh d b o, 2, true), (.lhu d b o, 2, true), (.lw d b o, 4, true), (.ld d b o, 8, true), (.sh d b o, 2, false),
        (.sw d b o, 4, false), (.sd d b o, 8, false)] : List (Instr × Nat × Bool)),
      Admitted e.1 s → s.mAddr b o e.2.1 = some a → isTranslated path = true → s.pathCheck i path = 0 →
        bits a.toNat 48 8 = 0 → allowed e.2.2 → (e.2.2 = false → path ≠ 0x01) → a.toNat % e.2.1 ≠ 0 → traps e.1) ∧
    ∀ e ∈ ([(.lb d b o, 1, true), (.lbu d b o, 1, true), (.lh d b o, 2, true), (.lhu d b o, 2, true), (.lw d b o, 4, true),
        (.ld d b o, 8, true), (.sb d b o, 1, false), (.sh d b o, 2, false), (.sw d b o, 4, false), (.sd d b o, 8, false)] :
        List (Instr × Nat × Bool)),
      let n := e.2.1
      Admitted e.1 s → s.mAddr b o n = some a → allowed e.2.2 → s.pathCheck i path = 0 → (s.region i a 0 n).1 = 0 →
        s.l1Waits i a 0 n = false → (view → ∀ x ∈ viewElements lo 0 n, s.viewAllowed i (viewOf path) x = true) →
        s.dirClass path (if e.2.2 = true then .load else .store) = 0 → a.toNat % n ≠ 0 ∨ (view ∧ n = 1) → traps e.1

/-! Atomics, reservations, fences and futures. -/

/-- The integer atomics store the result of R372 at their location and give the old value, an x register for 4 bytes and a
pair for 8; at a port those that are not an add or a swap count as tried (R127, R372, R373). -/
def Obligations.AtomicResults : Prop :=
  ∀ (s u : State) (d p t : Reg) (c : BitVec 2) (a l : BitVec 1) (loc : Nat),
    let path := pathByte (s.p p)
    let less (n x y : Nat) : Bool := decide (signed x n < signed y n)
    ∀ e ∈ ([
      (.amoaddW d p t c a l, 4, false, fun o v => (o + v) % 2 ^ 32), (.amoaddD d p t c a l, 8, false, fun o v => (o + v) % 2 ^ 64),
      (.amoswapW d p t c a l, 4, false, fun _ v => v), (.amoswapD d p t c a l, 8, false, fun _ v => v),
      (.amoandW d p t c a l, 4, true, Nat.land), (.amoandD d p t c a l, 8, true, Nat.land),
      (.amoorW d p t c a l, 4, true, Nat.lor), (.amoorD d p t c a l, 8, true, Nat.lor),
      (.amoxorW d p t c a l, 4, true, Nat.xor), (.amoxorD d p t c a l, 8, true, Nat.xor),
      (.amominW d p t c a l, 4, true, fun o v => if less 32 v o then v else o),
      (.amominD d p t c a l, 8, true, fun o v => if less 64 v o then v else o),
      (.amomaxW d p t c a l, 4, true, fun o v => if less 32 o v then v else o),
      (.amomaxD d p t c a l, 8, true, fun o v => if less 64 o v then v else o),
      (.amominuW d p t c a l, 4, true, fun o v => min v o), (.amominuD d p t c a l, 8, true, fun o v => min v o),
      (.amomaxuW d p t c a l, 4, true, fun o v => max v o), (.amomaxuD d p t c a l, 8, true, fun o v => max v o)] :
      List (Instr × Nat × Bool × (Nat → Nat → Nat))),
      Admitted e.1 s → AtomicReads s (s.p p) e.2.1 c.toNat (l == 1) loc u → portRefuses (s.p p) = false →
        Retires e.1 s
          ((((if e.2.2.1 then u.countTry path else u).atomicStore path loc e.2.1
            (e.2.2.2 (u.readNat loc e.2.1) (if e.2.1 = 4 then (s.x t).toNat else (s.p t).toNat))).flag 0).setOld d e.2.1
              (u.readNat loc e.2.1))

/-- `amofadd` adds in FP32 with one rounding and raises the flags of the sum; `cas` stores its new value where the old one
equals the value compared, and otherwise stores nothing but takes the reservations of others (R129, R372, R373). -/
def Obligations.FloatAddAndSwapResults : Prop :=
  ∀ (s u : State) (d p t : Reg) (c : BitVec 2) (a l : BitVec 1) (loc : Nat),
    let path := pathByte (s.p p)
    let at_ (n : Nat) : Prop := AtomicReads s (s.p p) n c.toNat (l == 1) loc u ∧ portRefuses (s.p p) = false
    let swap (n want new : Nat) : State :=
      (if u.readNat loc n = want then u.atomicStore path loc n new else u.loseOthers u.issuer loc (loc + n)).setOld d n
        (u.readNat loc n)
    let sum := sumNums u.effMode [decodeFloat .fp32 (u.readNat loc 4), decodeFloat .fp32 (s.x t).toNat]
    let r := roundFloat .fp32 u.effMode false sum.1
    (Admitted (.amofadd d p t c a l) s → at_ 4 → Retires (.amofadd d p t c a l) s
      ((((u.countTry path).atomicStore path loc 4 r.1).flag (sum.2 ||| r.2)).setOld d 4 (u.readNat loc 4))) ∧
    (Admitted (.casW d p t c a l) s → at_ 4 → Retires (.casW d p t c a l) s (swap 4 (s.x d).toNat (s.x t).toNat)) ∧
    (Admitted (.casD d p t c a l) s → at_ 8 → Retires (.casD d p t c a l) s (swap 8 (s.p d).toNat (s.p t).toNat))

/-- `lr` reads and takes a reservation; an `sc` off the ports that finds its reservation on the same granule stores and
gives 1, and one that holds none stores nothing and gives 0; either way it holds none afterwards (R129, R418, R451). -/
def Obligations.ReservationPairs : Prop :=
  ∀ (s u : State) (d p t : Reg) (c : BitVec 2) (a l : BitVec 1) (loc : Nat),
    let path := pathByte (s.p p)
    let at_ (n : Nat) : Prop := AtomicAt s (s.p p) n c.toNat (l == 1) loc u
    let resv (n : Nat) : Reservation := ⟨path, resvGranule path loc n, n, u.readNat loc n⟩
    let held (n : Nat) : State :=
      ({ u with resvs := FMap.put u.resvs (slotKey s.cur s.slot) (resv n) } : State).setOld d n (u.readNat loc n)
    let stored (n v : Nat) : State := ((u.storeNat loc n v).dropResv s.cur s.slot).setOld d n 1
    let failed (n : Nat) : State := ((u.loseOthers u.issuer loc (loc + n)).dropResv s.cur s.slot).setOld d n 0
    (∀ e ∈ ([(.lrW d p c a l, 4), (.lrD d p c a l, 8)] : List (Instr × Nat)),
      Admitted e.1 s → AtomicReads s (s.p p) e.2 c.toNat (l == 1) loc u → Retires e.1 s (held e.2)) ∧
    ∀ e ∈ ([(.scW d p t c a l, 4, (s.x t).toNat), (.scD d p t c a l, 8, (s.p t).toNat)] : List (Instr × Nat × Nat)),
      Admitted e.1 s → at_ e.2.1 → path ≠ 0x08 → path ≠ 0x09 →
        ((u.holdsResv path loc e.2.1).isSome = true → Retires e.1 s (stored e.2.1 e.2.2)) ∧
        (u.holdsResv path loc e.2.1 = none → Retires e.1 s (failed e.2.1))

/-- A fence or `fencei` waits for the thread's own stores and then retires; `fencei` forgets the words fetched before. A
`wrs` without a reservation answers 0, and one whose time limit has run out answers 2. `pf` writes no register, and off the
translated paths, as `yield` anywhere, it has no effect (R398, R399, R435, R496, R498). That accesses beside the store buffer
have performed when they issue is the model's choice (log entry 13). -/
def Obligations.OrderingAndWaiting : Prop :=
  ∀ (s : State) (d a : Reg) (b : BitVec 4) (p q c h : BitVec 2) (o : BitVec 15) (r : Reservation) (e : Nat),
    let mine := FMap.find s.resvs (slotKey s.cur s.slot)
    (Admitted (.fence p q c) s → (p.getLsbD 1 = true → s.drained = true) → Retires (.fence p q c) s s) ∧
    (Admitted (.fence p q c) s → p.getLsbD 1 = true → s.drained = false →
      exec (.fence p q c) s = .next (s.finish (.wait .memory s))) ∧
    (Admitted .fencei s → s.drained = true → Retires .fencei s
      ((s.modTh fun t => { t with fetched := [] }).modCore s.cur fun k => { k with icache := [] })) ∧
    (Admitted (.wrs d a) s → mine = none → s.th.timer = none → Retires (.wrs d a) s (s.setX d 0)) ∧
    (Admitted (.wrs d a) s → mine = none → s.th.timer = some e → Retires (.wrs d a) s (s.setX d 1)) ∧
    (Admitted (.wrs d a) s → mine = some r → s.th.timer = some e → e ≠ 0 → e ≤ s.clock.now →
      Retires (.wrs d a) s (s.setX d 2)) ∧
    (Admitted (.pf b h o) s → ∃ t, OthersKept s t ∧ RegsKept s.th (t.thread s.cur s.slot) ∧ Retires (.pf b h o) s t) ∧
    (Admitted (.pf b h o) s → (∀ a, s.mAddr b o 128 = some a → isTranslated (pathByte a) = false) →
      Retires (.pf b h o) s s) ∧
    (Admitted .yield s → Retires .yield s s)

/-- `fput` fills an empty cell with its value, wakes the waiters and answers 1, and on a full cell only counts and answers
0; `fget` returns the value of a full cell, or the value that woke it, and on an empty cell parks with WAIT 3: in the home
slice's wait table while it has room, else in its overflow list, and where that is full or off the park is refused and the
`fget` is sent again 1 µs later; `freset` empties a cell and answers whether it was full (R270 to R273, R401). -/
def Obligations.FutureOperations : Prop :=
  ∀ (s u : State) (d p t : Reg) (loc : Nat) (v : Dword),
    let full := u.readNat (loc + 8) 1 % 2 = 1
    let n := sliceOfLoc loc
    let k := u.sliceAt n
    let pa := u.cellPa (bits (s.p p).toNat 0 56)
    let me : Waiter := { core := s.cur, slot := s.slot, asid := s.act.asid, cell := loc }
    let free := if k.wtovf.getLsbD 63 = true then k.freeEntry n (bucketOf pa) else none
    let room := (k.waiters.filter fun w => w.image.isNone).length < 256
    let listed (w : Waiter) (r : State) : State :=
      (r.modSlice n fun k => { k with waiters := k.waiters ++ [w] }).modTh fun t => { t with parked := true, timer := none }
    let more := min (bits k.wtovf.toNat 16 32 + 1) (2 ^ 32 - 1)
    let refused : State :=
      (u.modSlice n fun k => { k with wtovf := BitVec.ofNat 64 (setBits k.wtovf.toNat 16 32 more) }).modTh
        fun t => { t with parked := true, timer := some (u.clock.now + 1000) }
    let parks (r : State) : Prop := Waits (.fget d p) s .future r
    CellAt s (s.p p) loc u →
    (Admitted (.fput d p t) s → ¬full → Retires (.fput d p t) s
      ((((u.storeNat loc 8 (s.p t).toNat).storeNat (loc + 8) 4 1).wakeCell loc (s.p t)).setX d 1)) ∧
    (Admitted (.fput d p t) s → full → Retires (.fput d p t) s
      ((((u.storeNat (loc + 8) 4 1).storeNat (loc + 12) 4 (min (u.readNat (loc + 12) 4 + 1) (2 ^ 32 - 1)))).setX d 0)) ∧
    (Admitted (.fget d p) s → s.th.wake = none → s.safeRule false true 0 = 0 → full →
      Retires (.fget d p) s ((u.countRead 0).setP d (BitVec.ofNat 64 (u.readNat loc 8)))) ∧
    (Admitted (.fget d p) s → s.th.wake = none → s.safeRule false true 0 = 0 → ¬full →
      (room → parks (listed me u)) ∧ (¬room → free = none → parks refused) ∧
      ∀ z, ¬room → free = some z →
        parks (listed { me with image := some z } (u.storeNat z 16 (waiterImage s.cur s.slot s.act.asid pa)))) ∧
    (Admitted (.fget d p) s → s.th.wake = some v → Retires (.fget d p) s ((s.countRead 0).setP d v)) ∧
    (Admitted (.freset d p) s → Retires (.freset d p) s ((u.storeNat (loc + 8) 4 0).setX d (if full then 1 else 0)))

/-! Vector instructions. -/

/-- The lanes of a result: an active lane takes its new value, cut to its width, and an inactive one keeps what it had
(R467). -/
def Obligations.LanesOfAResult : Prop :=
  ∀ (k : Word) (w : Nat) (old : Vec) (f : Nat → Nat) (i : Nat), w = 1 ∨ w = 2 ∨ w = 4 → i < 32 / w →
    lane (mapLanes k w old f) w i = if k.getLsbD (w * i) then f i % 2 ^ (8 * w) else lane old w i

/-- The lane results of the integer vector instructions, with SAT where a saturating one clamps (R469, R471, R473, R484). -/
def Obligations.VectorIntegerResults : Prop :=
  ∀ (s : State) (d a b : Reg) (k y : BitVec 3) (u : BitVec 1),
    let e := elemOf y u
    let f := e.ifmt
    let n := 2 ^ f.width
    let bitsOf (v : Vec) (i : Nat) : Nat := lane v e.bytes i
    let p (i : Nat) : Nat := bitsOf (s.vsrc a.toNat) i
    let q (i : Nat) : Nat := bitsOf (s.vsrc b.toNat) i
    let r (i : Nat) : Nat := bitsOf (s.vsrc d.toNat) i
    let dec (v : Nat) : Int := f.decode v
    let sealed (g : IntFmt) (z : Int) : Nat × FlagSet :=
      if s.optSat = 1 then (wrapTo (max g.lo (min g.hi z)) g.width, if g.lo ≤ z ∧ z ≤ g.hi then 0 else flagSAT)
      else (wrapTo z g.width, 0)
    let acc : IntFmt := ⟨32, f.isSigned⟩
    let dot (j : Nat) : Int := (acc.decode (lane (s.vsrc d.toNat) 4 j)) +
      (((List.range (4 / e.bytes)).map fun t => dec (p (4 / e.bytes * j + t)) * dec (q (4 / e.bytes * j + t))).sum)
    let two (i : Instr) (g : Nat → Nat × FlagSet) : Prop :=
      VectorRetires i [a.toNat, b.toNat] [d.toNat] s (s.lanesInto d (s.k k) e.bytes g)
    let one (i : Instr) (g : Nat → Nat × FlagSet) : Prop :=
      VectorRetires i [a.toNat] [d.toNat] s (s.lanesInto d (s.k k) e.bytes g)
    two (.vadd d a b k y u) (fun i => sealed f (dec (p i) + dec (q i))) ∧
    two (.vsub d a b k y u) (fun i => sealed f (dec (p i) - dec (q i))) ∧
    two (.vmul d a b k y u) (fun i => sealed f (dec (p i) * dec (q i))) ∧
    two (.vmin d a b k y u) (fun i => (if dec (q i) < dec (p i) then q i else p i, 0)) ∧
    two (.vmax d a b k y u) (fun i => (if dec (p i) < dec (q i) then q i else p i, 0)) ∧
    (u = 0 → two (.vand d a b k y) (fun i => (p i &&& q i, 0)) ∧ two (.vor d a b k y) (fun i => (p i ||| q i, 0)) ∧
      two (.vxor d a b k y) (fun i => (p i ^^^ q i, 0)) ∧ two (.vandn d a b k y) (fun i => (p i - (p i &&& q i), 0)) ∧
      two (.vsll d a b k y) (fun i => (if f.width ≤ q i then 0 else p i * 2 ^ q i % n, 0)) ∧
      two (.vsrl d a b k y) (fun i => (if f.width ≤ q i then 0 else p i / 2 ^ q i, 0)) ∧
      two (.vsra d a b k y) (fun i => (wrapTo (signed (p i) f.width / 2 ^ min (q i) (f.width - 1)) f.width, 0)) ∧
      one (.vabs d a k y) (fun i => sealed f (dec (p i)).natAbs) ∧ one (.vneg d a k y) (fun i => sealed f (-dec (p i))) ∧
      one (.vpopc d a k y) (fun i => (onesCount (p i) f.width, 0))) ∧
    VectorRetires (.vclamp d a b k y u) [a.toNat, b.toNat, d.toNat] [d.toNat] s
      (s.lanesInto d (s.k k) e.bytes fun i => (wrapTo (min (max (dec (r i)) (dec (p i))) (dec (q i))) f.width, 0)) ∧
    VectorRetires (.vdot d a b k y u) [a.toNat, b.toNat, d.toNat] [d.toNat] s
      (s.lanesInto d (s.k k) 4 fun j => sealed acc (dot j))

/-- The lane results of the floating vector instructions: each sum, difference, product, fused result and dot product is
rounded once from its exact value under the effective mode, with the flags of the exact operation and of the rounding; the
extremes, magnitudes and negations are exact. `vexp2`, `vlog2`, `vrcp` and `vrsqrt` give each lane the model's function of that
name, of which this states the results of the special inputs, an infinity only ever with no flag, and the reciprocals of powers
of two, rounded once (R469, R472, R473, R484). -/
def Obligations.VectorFloatResults : Prop :=
  ∀ (s : State) (d a b : Reg) (k y : BitVec 3),
    let e := elemOf y 0
    let f := e.ffmt
    let mode := s.effMode
    let p (i : Nat) : Machine.Num := e.num (lane (s.vsrc a.toNat) e.bytes i)
    let q (i : Nat) : Machine.Num := e.num (lane (s.vsrc b.toNat) e.bytes i)
    let r (i : Nat) : Machine.Num := e.num (lane (s.vsrc d.toNat) e.bytes i)
    let round (g : FloatFmt) (v : Machine.Num × FlagSet) : Nat × FlagSet :=
      ((roundFloat g mode false v.1).1, v.2 ||| (roundFloat g mode false v.1).2)
    let exact (v : Machine.Num) : Nat × FlagSet := ((roundFloat f 0 false v).1, 0)
    let fused (x z w : Machine.Num) : Nat × FlagSet :=
      let t := round f (sumNums mode [(mulNum x z).1, w])
      (t.1, (mulNum x z).2 ||| t.2)
    let pairs (j : Nat) : List (Machine.Num × FlagSet) :=
      (List.range (4 / e.bytes)).map fun t => mulNum (p (4 / e.bytes * j + t)) (q (4 / e.bytes * j + t))
    let dot (j : Nat) : Nat × FlagSet :=
      let t := round .fp32 (sumNums mode (decodeFloat .fp32 (lane (s.vsrc d.toNat) 4 j) :: (pairs j).map (·.1)))
      (t.1, (pairs j).foldl (fun x z => x ||| z.2) t.2)
    let three (i : Instr) (w : Nat) (g : Nat → Nat × FlagSet) : Prop :=
      VectorRetires i [a.toNat, b.toNat, d.toNat] [d.toNat] s (s.lanesInto d (s.k k) w g)
    let two (i : Instr) (g : Nat → Nat × FlagSet) : Prop :=
      VectorRetires i [a.toNat, b.toNat] [d.toNat] s (s.lanesInto d (s.k k) e.bytes g)
    let one (i : Instr) (g : Nat → Nat × FlagSet) : Prop :=
      VectorRetires i [a.toNat] [d.toNat] s (s.lanesInto d (s.k k) e.bytes g)
    two (.vaddF d a b k y) (fun i => round f (sumNums mode [p i, q i])) ∧
    two (.vsubF d a b k y) (fun i => round f (sumNums mode [p i, (q i).neg])) ∧
    two (.vmulF d a b k y) (fun i => round f (mulNum (p i) (q i))) ∧
    two (.vminF d a b k y) (fun i => exact (minNum (p i) (q i))) ∧
    two (.vmaxF d a b k y) (fun i => exact (maxNum (p i) (q i))) ∧
    one (.vabsF d a k y) (fun i => exact (p i).abs) ∧ one (.vnegF d a k y) (fun i => exact (p i).neg) ∧
    three (.vfma d a b k y) e.bytes (fun i => fused (p i) (q i) (r i)) ∧
    three (.vfms d a b k y) e.bytes (fun i => fused (p i) (q i) (r i).neg) ∧
    three (.vclampF d a b k y) e.bytes (fun i => exact (minNum (maxNum (r i) (p i)) (q i))) ∧
    three (.vdotF d a b k y) 4 dot ∧
    one (.vexp2 d a k y) (fun i => exp2Num f mode (p i)) ∧ one (.vlog2 d a k y) (fun i => log2Num f mode (p i)) ∧
    one (.vrcp d a k y) (fun i => rcpNum f mode (p i)) ∧ one (.vrsqrt d a k y) (fun i => rsqrtNum f mode (p i)) ∧
    (∀ (g : FloatFmt) (neg : Bool) (m j : Nat) (z : Int),
      let nan : Nat × FlagSet := (g.canonNaN, 0)
      let invalid : Nat × FlagSet := (g.canonNaN, flagNV)
      let infinite (neg : Bool) : Nat × FlagSet := (signCode g neg g.topCode, 0)
      let zero (neg : Bool) : Nat × FlagSet := (signCode g neg 0, 0)
      exp2Num g mode .nan = nan ∧ log2Num g mode .nan = nan ∧ rcpNum g mode .nan = nan ∧ rsqrtNum g mode .nan = nan ∧
      exp2Num g mode (.inf false) = infinite false ∧ log2Num g mode (.inf false) = infinite false ∧
      rcpNum g mode (.inf false) = zero false ∧ rsqrtNum g mode (.inf false) = zero false ∧
      exp2Num g mode (.inf true) = zero false ∧ log2Num g mode (.inf true) = invalid ∧ rcpNum g mode (.inf true) = zero true ∧
      rsqrtNum g mode (.inf true) = invalid ∧
      exp2Num g mode (.fin neg 0 z) = roundFloat g mode false (.fin false 1 0) ∧
      log2Num g mode (.fin neg 0 z) = infinite true ∧ rcpNum g mode (.fin neg 0 z) = infinite neg ∧
      rsqrtNum g mode (.fin neg 0 z) = infinite neg ∧
      (m ≠ 0 → log2Num g mode (.fin true m z) = invalid ∧ rsqrtNum g mode (.fin true m z) = invalid) ∧
      (j ≤ 128 → rcpNum g mode (.fin neg (2 ^ j) z) = roundFloat g mode false (.fin neg (2 ^ (128 - j)) (-128 - z))))

/-- A comparison writes all bits of each active lane by its relation and keeps those of the others; −0 equals +0, and a
NaN makes every relation false but "not equal" (R479). -/
def Obligations.VectorComparisons : Prop :=
  ∀ (s : State) (d : BitVec 3) (a b : Reg) (k y : BitVec 3) (u : BitVec 1),
    let e := elemOf y u
    let p (i : Nat) : Nat := lane (s.vsrc a.toNat) e.bytes i
    let q (i : Nat) : Nat := lane (s.vsrc b.toNat) e.bytes i
    let relation (ints : Int → Int → Prop) (nums : Machine.Num → Machine.Num → Prop) (i : Nat) : Prop :=
      match e with
      | .int f => ints (f.decode (p i)) (f.decode (q i))
      | .flt f => nums (decodeFloat f (p i)) (decodeFloat f (q i))
    let gives (i : Instr) (rel : Nat → Prop) : Prop :=
      Admitted i s → s.vecCheck [a.toNat, b.toNat] [] = .go → ∃ (m : Word) (h : Nat → Bool),
        (∀ j, h j = true ↔ rel j) ∧ CompareMask (s.k k) (s.k d) m e.bytes h ∧
          Retires i s ((s.setK d m).popSources [a.toNat, b.toNat])
    gives (.vcmpEq d a b k y u) (relation (· = ·) fun x z => eqValue x z = true) ∧
    gives (.vcmpNe d a b k y u) (relation (· ≠ ·) fun x z => eqValue x z = false) ∧
    gives (.vcmpLt d a b k y u) (relation (· < ·) fun x z => ltValue x z = true) ∧
    gives (.vcmpLe d a b k y u) (relation (· ≤ ·) fun x z => ltValue x z = true ∨ eqValue x z = true) ∧
    gives (.vcmpGt d a b k y u) (relation (· > ·) fun x z => ltValue z x = true) ∧
    gives (.vcmpGe d a b k y u) (relation (· ≥ ·) fun x z => ltValue z x = true ∨ eqValue x z = true) ∧
    ∀ z : Machine.Num, ltValue .nan z = false ∧ ltValue z .nan = false ∧ eqValue .nan z = false ∧ eqValue z .nan = false ∧
      ∀ m n : Int, eqValue (.fin true 0 m) (.fin false 0 n) = true

/-- `vsel`, the permutations and the moves between lanes and x registers (R477, R479, R491). -/
def Obligations.VectorMoves : Prop :=
  ∀ (s : State) (d a b t : Reg) (k y : BitVec 3),
    let e := elemOf y 0
    let w := e.bytes
    let n := 32 / w
    let p (i : Nat) : Nat := lane (s.vsrc a.toNat) w i
    let q (i : Nat) : Nat := lane (s.vsrc b.toNat) w i
    let r (i : Nat) : Nat := lane (s.vsrc d.toNat) w i
    let into (g : Nat → Nat) : State := s.lanesInto d (s.k k) w fun i => (g i, 0)
    let low (v : Word) : Nat := v.toNat % 2 ^ (8 * w)
    let widened (v : Nat) : Word :=
      if y = 0 then (BitVec.ofNat 8 v).signExtend 32 else if y = 1 then (BitVec.ofNat 16 v).signExtend 32 else BitVec.ofNat 32 v
    let i := (s.x t).toNat
    VectorRetires (.vsel d a b k y) [a.toNat, b.toNat] [d.toNat] s
      (s.vput d.toNat (ofLanes w ((List.range n).map fun i => if (s.k k).getLsbD (w * i) then p i else q i))) ∧
    VectorRetires (.vperm d a b k y) [a.toNat, b.toNat] [d.toNat] s (into fun i => if q i < n then p (q i) else 0) ∧
    VectorRetires (.vslide d a t k y) [a.toNat] [d.toNat] s
      (into fun i => if 0 ≤ (i : Int) + (s.x t).toInt ∧ (i : Int) + (s.x t).toInt < n then p ((i : Int) + (s.x t).toInt).toNat
        else 0) ∧
    VectorRetires (.vbcast d a k y) [] [d.toNat] s (into fun _ => low (s.x a)) ∧
    VectorRetires (.vmov d a k y) [a.toNat] [d.toNat] s (into p) ∧
    VectorRetires (.vmvx d a t y) [a.toNat] [] s (s.setX d (if i < n then widened (p i) else 0)) ∧
    (i < n → VectorRetires (.vins d a t y) [d.toNat] [d.toNat] s
      (s.vput d.toNat (ofLanes w ((List.range n).map fun j => if j = i then low (s.x a) else r j)))) ∧
    (n ≤ i → VectorRetires (.vins d a t y) [d.toNat] [d.toNat] s s)

/-- `vcvt` converts the elements in its low lanes one by one; where it narrows, the rest of the register is zero, and where
it does not, lanes that are not active stay (R481, R482). -/
def Obligations.VectorConversion : Prop :=
  ∀ (s : State) (d a : Reg) (q e : BitVec 4) (k : BitVec 3),
    let src := elemOfCode q
    let dst := elemOfCode e
    let n := 32 / max src.bytes dst.bytes
    let wrap := s.optSat == 2
    let num (i : Nat) : Machine.Num := src.num (lane (s.vsrc a.toNat) src.bytes i)
    let res (i : Nat) : Nat × FlagSet :=
      match dst, src with
      | .flt f, _ => roundFloat f s.effMode wrap (num i)
      | .int f, .flt _ => toInt f s.effMode wrap (num i)
      | .int f, .int g =>
        let v := g.decode (lane (s.vsrc a.toNat) src.bytes i)
        if wrap then (wrapTo v f.width, 0)
        else (wrapTo (max f.lo (min f.hi v)) f.width, if f.lo ≤ v ∧ v ≤ f.hi then 0 else flagSAT)
    let on (i : Nat) : Bool := (s.k k).getLsbD (dst.bytes * i)
    let v := ofLanes dst.bytes ((List.range (32 / dst.bytes)).map fun i =>
      if i < n then (if on i then (res i).1 else lane (s.vold d.toNat) dst.bytes i)
      else if dst.bytes < src.bytes then 0 else lane (s.vold d.toNat) dst.bytes i)
    VectorRetires (.vcvt d a q k e) [a.toNat] [d.toNat] s
      ((s.vput d.toNat v).flag (((List.range n).map fun i => if on i then (res i).2 else 0).foldl (· ||| ·) 0))

/-- The reductions: lane 0 takes the exact sum, rounded or wrapped once, or the extreme, and the other lanes are zero;
`vargmax` gives the lowest index of the largest lane, NaN below every number, and all ones with no lane active; an extreme is
one of the active values that none exceeds, numbers before NaN, and with no lane active the type's end or an infinity; `vscan` gives every prefix sum, each rounded once from its exact value;
`vtopk` keeps the eight largest of the entries it holds and the active lanes that are numbers, by key and then by index, keys
and indices each in a register of 32-bit lanes (R475, R476, R492, R493). -/
def Obligations.VectorReductions : Prop :=
  (∀ (s : State) (d a : Reg) (k y : BitVec 3) (u : BitVec 1),
    let e := elemOf y u
    let g := elemOf y 0
    let on (e : Elem) : List Nat := (List.range (32 / e.bytes)).filter fun i => (s.k k).getLsbD (e.bytes * i)
    let val (e : Elem) (i : Nat) : Nat := lane (s.vsrc a.toNat) e.bytes i
    let sum (e : Elem) (l : List Nat) : Nat × FlagSet :=
      match e with
      | .int f => sealInt (s.optSat == 1) f ((l.map fun i => f.decode (val e i)).sum)
      | .flt f => roundSum f s.effMode (l.map fun i => decodeFloat f (val e i))
    let lane0 (v : Nat) (fl : FlagSet) : State :=
      (s.vput d.toNat (BitVec.ofNat 256 (v % 2 ^ (8 * e.bytes)))).flag fl
    let values := (on e).map (val e)
    VectorRetires (.vredsum d a k y u) [a.toNat] [d.toNat] s (lane0 (sum e (on e)).1 (sum e (on e)).2) ∧
    VectorRetires (.vredmax d a k y u) [a.toNat] [d.toNat] s (lane0 (reduceBy e true values) 0) ∧
    VectorRetires (.vredmin d a k y u) [a.toNat] [d.toNat] s (lane0 (reduceBy e false values) 0) ∧
    VectorRetires (.vargmax d a k y u) [a.toNat] [] s (s.setX d (argMax e ((on e).map fun i => (i, val e i)))) ∧
    VectorRetires (.vscan d a k y) [a.toNat] [d.toNat] s
      (s.lanesInto d (s.k k) g.bytes fun i => sum g ((on g).filter fun j => decide (j ≤ i))) ∧
    ∀ (f : IntFmt) (x : Nat) (l : List Nat),
      reduceBy (.int f) true (x :: l) ∈ x :: l ∧ (∀ z ∈ x :: l, f.decode z ≤ f.decode (reduceBy (.int f) true (x :: l))) ∧
      reduceBy (.int f) false (x :: l) ∈ x :: l ∧ (∀ z ∈ x :: l, f.decode (reduceBy (.int f) false (x :: l)) ≤ f.decode z)) ∧
  (∀ (e : Elem) (l : List (Nat × Nat)),
    let above (a b : Nat) : Prop :=
      match e with
      | .int f => f.decode b < f.decode a
      | .flt f => ltNum (decodeFloat f b) (decodeFloat f a) = true ∨
          ((decodeFloat f a).isNaN = false ∧ (decodeFloat f b).isNaN = true)
    argMax e [] = BitVec.allOnes 32 ∧
    (l ≠ [] → (l.map (·.1)).Pairwise (· < ·) → ∃ p ∈ l, argMax e l = BitVec.ofNat 32 p.1 ∧
      ∀ q ∈ l, ¬above q.2 p.2 ∧ (q.1 < p.1 → above p.2 q.2))) ∧
  (∀ (f : FloatFmt) (g : IntFmt) (l : List Nat) (largest : Bool),
    let num (z : Nat) : Machine.Num := decodeFloat f z
    let beats (x z : Machine.Num) : Bool := if largest = true then ltNum z x else ltNum x z
    reduceBy (.flt f) largest [] = (roundFloat f 0 false (.inf largest)).1 ∧
    reduceBy (.int g) largest [] = wrapTo (if largest = true then g.lo else g.hi) g.width ∧
    (l ≠ [] → (∀ z ∈ l, (num z).isNaN = true) → reduceBy (.flt f) largest l = f.canonNaN) ∧
    ((∃ z ∈ l, (num z).isNaN = false) → ∃ x ∈ l, (num x).isNaN = false ∧
      reduceBy (.flt f) largest l = (roundFloat f 0 false (num x)).1 ∧ ∀ z ∈ l, beats (num z) (num x) = false)) ∧
  ∀ (s : State) (d a b : Reg) (k y : BitVec 3) (u : BitVec 1),
    let e := elemOf y u
    let on := (List.range (32 / e.bytes)).filter fun i => (s.k k).getLsbD (e.bytes * i)
    let held := (List.range 8).map fun j => (lane (s.vsrc d.toNat) 4 j, lane (s.vsrc (d.toNat + 1)) 4 j)
    let number (i : Nat) : Bool :=
      match e with
      | .flt f => !(decodeFloat f (lane (s.vsrc a.toNat) e.bytes i)).isNaN
      | .int _ => true
    let fresh := (on.filter number).map fun i =>
      (topKey e (lane (s.vsrc a.toNat) e.bytes i), (lane (s.vsrc b.toNat) 4 0 + i) % 2 ^ 32)
    let regs := [d.toNat, d.toNat + 1]
    (Admitted (.vtopk d a b k y u) s → s.vecCheck ([a.toNat, b.toNat] ++ regs) regs = .go →
      ∃ l : List (Nat × Nat), l.Perm (held ++ fresh) ∧ l.Pairwise (fun p q => topBefore (keyElem e) q p = false) ∧
        Retires (.vtopk d a b k y u) s
          (((s.vput d.toNat (ofLanes 4 ((l.take 8).map (·.1)))).vput (d.toNat + 1)
            (ofLanes 4 ((l.take 8).map (·.2)))).popSources ([a.toNat, b.toNat] ++ regs)))

/-- Vector loads and stores: the bytes of the active lanes only, which are also the only ones checked; with no lane active
nothing is accessed and nothing traps. Gathers and scatters: each active lane at the base plus its index times the lane width,
in ascending order; every lane is checked and translated before any byte moves (R486 to R490). -/
def Obligations.VectorMemoryResults : Prop :=
  (∀ (s t : State) (d : Reg) (b : BitVec 4) (m : BitVec 2) (o : BitVec 15) (a : Dword) (p : Place) (l : List Byte),
    let k := s.k (m.setWidth 3)
    let path := s.basePath b
    let offs := activeOffs k (pathLane path)
    let loaded (r : State) : State := (r.countRead path).vput d.toNat
      (ofLanes 1 ((List.range 32).map fun j =>
        match FMap.find (offs.zip l) j with
        | some v => v.toNat
        | none => lane (r.vold d.toNat) 1 j))
    let stored : List (Nat × Byte) := offs.map fun j => (j, BitVec.ofNat 8 (lane (s.vsrc d.toNat) 1 j))
    (offs = [] → VectorRetires (.vld d b m o) [] [d.toNat] s (s.vput d.toNat (s.vold d.toNat))) ∧
    (VectorLeads s b k o .load (loadBlocks path) a p → s.readPlace s.issuer a p offs = .bytes l t →
      VectorRetires (.vld d b m o) [] [d.toNat] s (loaded t)) ∧
    (s.opt = 0 ∨ path = 0x14 ∨ path = 0x15 →
      (offs = [] → VectorRetires (.vst d b m o) [d.toNat] [] s s) ∧
      (VectorLeads s b k o .store (storeBlocks path) a p → s.writePlace s.issuer p stored false = .ok t →
        VectorRetires (.vst d b m o) [d.toNat] [] s t))) ∧
  ∀ (s t : State) (d p b : Reg) (k y : BitVec 3) (l : List LanePlace) (r : List Byte),
    let e := elemOf y 0
    let w := e.bytes
    let path := pathByte (s.p p)
    let on := (List.range (32 / w)).filter fun i => (s.k k).getLsbD (w * i)
    let idx (i : Nat) : Int := e.ifmt.decode (lane (s.vsrc b.toNat) w i)
    let lanesOf : FMap Nat := (List.range on.length).map fun j => (on.getD j 0, leNat ((r.drop (w * j)).take w))
    (on = [] → VectorRetires (.vldg d p b k y) [b.toNat] [d.toNat] s (s.vput d.toNat (s.vold d.toNat))) ∧
    (on ≠ [] → s.safeRule (loadBlocks path) true path = 0 → s.checkLanes (s.p p) w idx .load on = .ok l →
      s.laneWalk .load l = none → s.readLanes w l = .bytes r t →
        VectorRetires (.vldg d p b k y) [b.toNat] [d.toNat] s
          ((t.countRead path).vput d.toNat (mapLanes (s.k k) w (s.vold d.toNat) fun i => FMap.get lanesOf i 0))) ∧
    (on = [] → VectorRetires (.vsts d p b k y) [d.toNat, b.toNat] [] s s) ∧
    (on ≠ [] → s.safeRule (storeBlocks path) false path = 0 → s.checkLanes (s.p p) w idx .store on = .ok l →
      s.laneWalk .store l = none → (path = 0 → s.drained = true) → s.writeLanes w (s.vsrc d.toNat) l = .ok t →
        VectorRetires (.vsts d p b k y) [d.toNat, b.toNat] [] s t)

/-! Counters, barriers, messages and bindings. -/

/-- Arrival counters: `cwait` retires with the counter's value once it has reached the threshold in serial order, and blocks
before; `cset`, `crd` and the local `cadd` write and read it; a remote `cadd` is sent to the member's tile (R192, R385). That
a release such as `cadd` performs the buffered stores in the same step is the model's reading (log entry 9). -/
def Obligations.CounterOperations : Prop :=
  ∀ (s : State) (d a t : Reg) (c : Nat),
    let v := (s.x a).toNat
    let n := v % 64
    let u := s.drain
    (v < 64 → s.hasCounter n = true →
      (Admitted (.cwait d a t) s → 0 ≤ (s.counter n - s.x t).toInt → Retires (.cwait d a t) s (s.setX d (s.counter n))) ∧
      (Admitted (.cwait d a t) s → (s.counter n - s.x t).toInt < 0 → Waits (.cwait d a t) s .counter (s.waitsOn n)) ∧
      (Admitted (.cset a t) s → Retires (.cset a t) s (s.setCounter n (s.x t))) ∧
      (Admitted (.crd d a) s → Retires (.crd d a) s (s.setX d (s.counter n))) ∧
      (Admitted (.cadd a t) s → Retires (.cadd a t) s (u.setCounter n (u.counter n + u.x t)))) ∧
    (bit v 17 = true → bits v 6 2 = 0 → bits v 18 14 = 0 → s.hasCounter n = true → s.caddTarget (encode (.cadd a t)) v = .inl c →
      Admitted (.cadd a t) s →
      Retires (.cadd a t) s { u with flight := { u.flight with cadds := u.flight.cadds ++ [(c, n, u.x t)] } })

/-- Barriers: an arrival is a release and answers the phase it arrives in; at a tile barrier it completes the phase when the
count is full, exactly with the last participant, at a gang's it is sent on, and outside a gang each slot has its own; `barw`
retires once its phase has completed, and blocks before. `trig` is a release and tells a gang's dependents; `waitdep` answers 1
once every producer has triggered, 0 when one was aborted; without a gang the one does nothing and the other answers 1
(R47, R377 to R379, R463, R495). That a release performs the buffered stores in the same step is the model's reading (log
entry 9), and that a `trig` is sent and counts whatever dependents there are its choice (log entry 69). -/
def Obligations.BarriersAndDependences : Prop :=
  (∀ (s : State) (d a t : Reg) (c : BitVec 2) (g : Gang) (m : Nat),
      let v := (s.x a).toNat
      let u := s.drain
      let b := FMap.get (u.core u.cur).cx.bars (bits v 0 2) {}
      let arrived (n : Nat) : State := u.modCore u.cur fun k =>
        { k with cx := { k.cx with bars := FMap.put k.cx.bars (bits v 0 2) (b.arrive n) } }
      let z := scopeKey c.toNat
      let key := privKey c.toNat (bits v 0 4)
      let own := FMap.get u.th.privBar key 0
      (Admitted (.barv d a 0) s → Retires (.barv d a 0) s ((arrived (bits v 8 2 + 1)).setX d (BitVec.ofNat 32 b.phase))) ∧
      (c ≠ 0 → Admitted (.barv d a c) s → u.myGang = some (g, m) → Retires (.barv d a c) s
        (({ u with flight := { u.flight with arrivals := u.flight.arrivals ++ [(g.no, z, bits v 0 4, m)] } } : State).setX d
          (BitVec.ofNat 32 (u.barArrivals g z (bits v 0 4) m)))) ∧
      (c ≠ 0 → Admitted (.barv d a c) s → u.myGang = none → Retires (.barv d a c) s
        ((u.modTh fun h => { h with privBar := FMap.put h.privBar key (own + 1) }).setX d (BitVec.ofNat 32 own))) ∧
      (Admitted (.barw a t c) s → 0 ≤ (BitVec.ofNat 32 (s.barPhase c.toNat v) - (s.x t + 1)).toInt →
        Retires (.barw a t c) s s) ∧
      (Admitted (.barw a t c) s → (BitVec.ofNat 32 (s.barPhase c.toNat v) - (s.x t + 1)).toInt < 0 →
        Waits (.barw a t c) s .barrier (s.waitsOn (barWait c.toNat v (s.x t).toNat)))) ∧
  (∀ (b : TileBar) (n : Nat), 1 ≤ n → b.arrived = 0 →
      (∀ i < n, ((fun x => x.arrive n)^[i] b).phase = b.phase ∧ ((fun x => x.arrive n)^[i] b).arrived = i) ∧
      ((fun x => x.arrive n)^[n] b).phase = b.phase + 1 ∧ ((fun x => x.arrive n)^[n] b).arrived = 0) ∧
  ∀ (s : State) (d : Reg) (g : Gang) (m : Nat) (p : Nat × Nat),
    let u := s.drain
    (Admitted .trig s → s.act.gang = none → Retires .trig s s) ∧
    (Admitted .trig s → s.act.gang = some p →
      Retires .trig s { u with flight := { u.flight with notices := u.flight.notices ++ [p] } }) ∧
    (Admitted (.waitdep d) s → s.myGang = none → Retires (.waitdep d) s (s.setX d 1)) ∧
    (Admitted (.waitdep d) s → s.myGang = some (g, m) → s.allTriggered g = true →
      Retires (.waitdep d) s (s.setX d (if s.prodAborted g = true then 0 else 1))) ∧
    (Admitted (.waitdep d) s → s.myGang = some (g, m) → s.allTriggered g = false → Waits (.waitdep d) s .dependence s)

/-- Messages: `mw` writes a build register; a `send`, `sendw` or `qpost` that passes its checks takes a credit, performs the
thread's stores, sends the build registers and answers 1; without a credit `send` and `qpost` answer 0 and `sendw` blocks
(R250, R431, R454). That a release performs the buffered stores at once is the model's reading (log entry 9). -/
def Obligations.MessageSends : Prop :=
  ∀ (s : State) (d a t : Reg) (k : BitVec 3),
    let words := s.th.build
    let free (dest : Word) : Bool := (s.core s.cur).creditFree s.isGust (creditClass (destKind dest))
    let sent (dest ctl : Word) : State :=
      (s.drain.launch s.drain.cur (s.drain.route s.drain.act.gang dest) (s.drain.compose dest ctl words false)).setX d 1
    let post := BitVec.ofNat 32 (rowClass words * 2 ^ 16)
    let ok (dest ctl : Word) : Prop := s.sendRefuses dest ctl words = 0
    (Admitted (.mw k a) s → Retires (.mw k a) s (s.modTh fun h => h.setM k.toNat (s.x a))) ∧
    (Admitted (.send d a t) s → ok (s.x a) (s.x t) → free (s.x a) = true → Retires (.send d a t) s (sent (s.x a) (s.x t))) ∧
    (Admitted (.send d a t) s → ok (s.x a) (s.x t) → free (s.x a) = false → Retires (.send d a t) s (s.setX d 0)) ∧
    (Admitted (.sendw d a t) s → ok (s.x a) (s.x t) → free (s.x a) = true → Retires (.sendw d a t) s (sent (s.x a) (s.x t))) ∧
    (Admitted (.sendw d a t) s → ok (s.x a) (s.x t) → free (s.x a) = false → Waits (.sendw d a t) s .credit s) ∧
    (Admitted (.qpost d) s → rowBad words = false → ok 0x40000000 post →
      (free 0x40000000 = true → Retires (.qpost d) s (sent 0x40000000 post)) ∧
      (free 0x40000000 = false → Retires (.qpost d) s (s.setX d 0)))

/-- `bind` answers 1 + i where it writes entry i, and 0, changing nothing else, where the entry is refused, no place is free,
or its keep region does not lie in scratchpad, overlaps the spill ring, or overlaps that of another valid entry with a
different start; `unbind` answers 1 + i and clears, or marks as clearing, and 0 for a tag that is not
bound (R38, R52, R383, R464). -/
def Obligations.BindingTableOperations : Prop :=
  ∀ (s : State) (d p t : Reg) (i : Nat) (e : BitVec 128),
    let w : BitVec 128 := s.p t ++ s.p p
    let k := s.core s.cur
    let refused := entryRefuses (coreType s.cur) w = true ∨ k.cx.bindIndex (bindTag w) = none
    let tag := bits (s.x p).toNat 0 16
    let busy := k.busySlots s.cur tag
    let put (c : Core) : Core := { c with cx := { c.cx with binds := FMap.put c.cx.binds i w } }
    let clear (c : Core) : Core :=
      if busy = [] then { c with cx := { c.cx with binds := FMap.del c.cx.binds i } }
      else { c with cx := { c.cx with clearing := FMap.put c.cx.clearing i busy } }
    let lo := 64 * bindKeepOff w
    let hi := lo + 64 * bindKeepSize w
    let outside := s.scratchEnd s.cur < hi
    let inRing := k.spbase.toNat < hi ∧ lo < k.spbase.toNat + k.spsize.toNat
    let inOther := ∃ f ∈ k.cx.binds, f.1 ≠ i ∧ bindValid f.2 = true ∧ bindKeepSize f.2 ≠ 0 ∧ bindKeepOff f.2 ≠ bindKeepOff w ∧
      64 * bindKeepOff f.2 < hi ∧ lo < 64 * bindKeepOff f.2 + 64 * bindKeepSize f.2
    let barred := bindKeepSize w ≠ 0 ∧ (outside ∨ inRing ∨ inOther)
    (Admitted (.bind d p t) s → refused → Retires (.bind d p t) s (s.setX d 0)) ∧
    (Admitted (.bind d p t) s → k.cx.bindIndex (bindTag w) = some i → barred → Retires (.bind d p t) s (s.setX d 0)) ∧
    (Admitted (.bind d p t) s → ¬refused → k.cx.bindIndex (bindTag w) = some i → ¬barred →
      Retires (.bind d p t) s (((s.modCore s.cur put).releaseHeld s.cur (bindTag w)).setX d (BitVec.ofNat 32 (1 + i)))) ∧
    (Admitted (.unbind d p) s → bits (s.x p).toNat 16 16 ≠ 0 ∨ k.cx.bound tag = none → Retires (.unbind d p) s (s.setX d 0)) ∧
    (Admitted (.unbind d p) s → bits (s.x p).toNat 16 16 = 0 → k.cx.bound tag = some (i, e) →
      Retires (.unbind d p) s (((s.modCore s.cur clear).unpend s.cur tag).setX d (BitVec.ofNat 32 (1 + i))))

/-- An `exit` completes: without successors it ends the activation, and with up to four that pass their checks and find room
it also queues them, in order, behind those that wait; without room it waits. What the end of an activation does is R394: the
slot is free, or stopped where a halt is requested; its reservation is lost; its bindings, its ring and its holds of banks end,
the banks' contents, counters, timers, keep regions and running engine work stay; a gang member triggers; a queue program's
launches go on and RIDX advances; Gust code adds to HCNT (R40, R393, R394). That a release performs the buffered stores in the
same step is the model's reading (log entry 9). -/
def Obligations.ExitOutcomes : Prop :=
  ∀ (s : State) (a t : Reg),
    let base := (s.x a).toNat
    let n := (s.x t).toNat
    let loc := sramLoc s.cur base
    let ds := (List.range n).map fun i => s.read (loc + 64 * i) 64
    let begun (l : List Successor) : State := if l = [] ∧ s.act.gang = none then s else s.drain
    let ends (l : List Successor) : Prop :=
      Settles (.exit a t) s (s.leaveWith l) ∧
      (s.th.act.isSome = true → s.th.stopWhy = 0 → s.th.shadow = none →
        ActivationEnds (begun l) (s.leaveWith l) s.cur s.slot ∧
          ((s.leaveWith l).core s.cur).succQ = (s.core s.cur).succQ ++ l)
    (Admitted (.exit a t) s → n = 0 → ends []) ∧
    (Admitted (.exit a t) s → 1 ≤ n → n ≤ 4 → base % 64 = 0 → s.ownAllowed s.issuer base (64 * n) = true →
      s.badSuccessor loc ds = none →
      (16 < (s.core s.cur).succQ.length + n → Waits (.exit a t) s .successors s) ∧
      ((s.core s.cur).succQ.length + n ≤ 16 → ends (ds.map s.successor))) ∧
    (Admitted (.exit a t) s → 4 < n ∨ (1 ≤ n ∧ (base % 64 ≠ 0 ∨ s.ownAllowed s.issuer base (64 * n) = false)) →
      Traps (.exit a t) s causeMsg (wordValue (s.x a)) s)

/-! The matrix engine, the movers, streams and channels. -/

/-- Matrix commands that pass the checks of R164 start: the command runs with all that it sampled, its bank is held by its
slot and the slot enters MATRIX; `mma` and `mmv` take the oldest FULL buffer, behind the thread's own stores. The checks of an
`mma` and an `mmv` trap in the order of R164, with cause MATRIX and each its own code, of which code 2 covers K, the multiples
of R158, the base, and for `mmv` N (R157, R161, R164, R168). That a product performs the buffered stores in the same step is
the model's reading (log entry 9). -/
def Obligations.MatrixCommands : Prop :=
  (∀ (s : State) (a t : Reg) (d : Reg) (b : Nat),
      let x := (s.core s.cur).cx.mx
      let rt := (s.x t).toNat
      let rs := (s.x a).toNat
      let started (u : State) (m : MatrixCmd) : State :=
        (u.modCx u.cur fun y => { y with mx := { y.mx with running := some m, held := FMap.put y.mx.held m.bank m.slot } }).modTh
          fun h => { h with run := .matrix }
      let busy := s.drain.modCx s.cur fun y => { y with mx := y.mx.setBuf b { y.mx.buf b with st := .busy } }
      let product (m : MatrixCmd) : State :=
        started (if bit rt 2 = true then busy.queueHandoff m b else busy) { m with rel := false, buf := some b }
      let ma := s.matrixCmd .mma rs rt s.semiring
      let mv := s.matrixCmd .mmv rs rt s.semiring
      let st := s.matrixCmd .mst rs rt 0
      let block := bits rs 5 3
      let narrow := bit rt 3
      let settled := (s.core s.cur).l1pending = none
      let ze := s.matrixCmd .mzero 0 rt (bits (s.th.getE 2).toNat 0 3)
      s.unitFree = true →
        (Admitted (.mma a t) s → x.headFull = some b → s.mmaRefuses ma rt (x.buf b).count = 0 → settled →
          s.aBadRow ma (mxRows s.cur) = none → Settles (.mma a t) s (product ma)) ∧
        (Admitted (.mmv a t) s → x.headFull = some b → s.mmvRefuses mv rt (x.buf b).count = 0 → settled →
          s.aBadRow mv mv.nout = none → Settles (.mmv a t) s (product mv)) ∧
        (Admitted (.mst a t) s → st.ofmt ≤ 6 → rt < 8 → settled → s.mstBad st = none → Settles (.mst a t) s (started s st)) ∧
        (Admitted (.mrd d a t) s → s.fillingReg d.toNat = false → s.boundOf d.toNat = none → rs < 256 → rt < 16 →
          bits rs 0 5 < mxRows s.cur → block < mxCols s.cur / (if narrow = true then 16 else 8) →
          Settles (.mrd d a t) s (started s (s.matrixCmd (.mrd d.toNat (bits rs 0 5) block narrow) 0 rt 0))) ∧
        (Admitted (.mzero t) s → ze.sr ≤ 4 → rt < 4 → Settles (.mzero t) s (started s { ze with rel := false }))) ∧
  ∀ (s : State) (a t : Reg) (b : Nat),
    let x := (s.core s.cur).cx.mx
    let rt := (s.x t).toNat
    let ma := s.matrixCmd .mma (s.x a).toNat rt s.semiring
    let mv := s.matrixCmd .mmv (s.x a).toNat rt s.semiring
    let count := (x.buf b).count
    let odd (m : MatrixCmd) : Prop := m.k = 0 ∨ 4096 < m.k ∨ m.k % aMultiple m.af ≠ 0 ∨ baseBad m.af m.base = true ∨
      firstElem m.af m.base % aMultiple m.af ≠ 0 ∨ m.astr % aMultiple m.af ≠ 0
    let outs := if coreType s.cur = .reflex then 512 else 2048
    let traps (i : Instr) (c : Nat) : Prop := Traps i s causeMatrix (BitVec.ofNat 64 c) s
    let later (i : Instr) (bytes : Nat) : Prop :=
      (count ≠ bytes → traps i 4) ∧
      (count = bytes → bit rt 2 = true → bit x.ring.toNat 63 = false → traps i 5) ∧
      (count = bytes → (bit rt 2 = true → bit x.ring.toNat 63 = true) → s.latchOk s.cur = false → traps i 6) ∧
      (count = bytes → (bit rt 2 = true → bit x.ring.toNat 63 = true) → s.latchOk s.cur = true → bits rt 3 29 ≠ 0 → traps i 8)
    x.headFull = some b → s.unitFree = true →
      (Admitted (.mma a t) s →
        (mmaPairing ma.sr ma.af ma.bf = none → traps (.mma a t) 1) ∧
        ∀ p, mmaPairing ma.sr ma.af ma.bf = some p →
          let len := p.passes * ceilDiv ma.k p.per * p.len
          (odd ma → traps (.mma a t) 2) ∧ (¬odd ma → s.lengthMax < len → traps (.mma a t) 3) ∧
          (¬odd ma → len ≤ s.lengthMax → later (.mma a t) (ma.k * rowBytes s.cur ma.bf))) ∧
      (Admitted (.mmv a t) s →
        (mv.sr ≠ 0 ∨ mmvStep s.cur mv.af mv.bf = none → traps (.mmv a t) 1) ∧
        ∀ p, mv.sr = 0 → mmvStep s.cur mv.af mv.bf = some p →
          let len := ceilDiv mv.nout (mxCols s.cur) * ceilDiv mv.k p
          let bad := odd mv ∨ mv.nout = 0 ∨ outs < mv.nout
          (bad → traps (.mmv a t) 2) ∧ (¬bad → s.lengthMax < len → traps (.mmv a t) 3) ∧
          (¬bad → len ≤ s.lengthMax → later (.mmv a t) (mv.k * bSize mv.bf)))

/-- A latch fill claims an empty buffer and goes on without the thread, blocking while none is empty; `mring` answers the
member's place in the ring and writes it to the ring register (R165, R425). That a fill performs the buffered stores in the
same step is the model's reading (log entry 9). -/
def Obligations.LatchFillsAndRing : Prop :=
  ∀ (s : State) (a t v d : Reg) (b : Nat) (g : Gang) (me : Nat) (w : Bound),
    let x := (s.core s.cur).cx.mx
    let n := (s.x t).toNat
    let fill (src : FillSrc) : Fill := ⟨b, src, n, 0, s.slot⟩
    let claimed (src : FillSrc) : State := s.drain.modCx s.cur fun y =>
      { y with mx := { y.mx.setBuf b { st := .filling, count := n } with fills := y.mx.fills ++ [fill src] } }
    let ok := s.latchOk s.cur = true ∧ 1 ≤ n ∧ n % 32 = 0 ∧ n ≤ x.bufSize
    let first := (s.x a).toNat
    let l := g.ringOrder first n
    let pos := (l.idxOf me + n - l.idxOf first) % n
    let succ := l.getD ((l.idxOf me + 1) % n) me
    let value := BitVec.ofNat 64 (2 ^ 63 + n * 2 ^ 32 + pos * 2 ^ 24 + succ * 2 ^ 16 + first * 2 ^ 8)
    (Admitted (.mldb a t) s → ok → (s.core s.cur).l1pending = none → s.rawOk first n = true →
      (x.emptyBuf = some b → Retires (.mldb a t) s (claimed (.sram first))) ∧
      (x.emptyBuf = none → Waits (.mldb a t) s .latch s)) ∧
    (Admitted (.mldbS v t) s → ok → s.boundOf v.toNat = some w → w.isSource = true → s.fillingReg v.toNat = false →
      (x.emptyBuf = some b → Retires (.mldbS v t) s
        ((claimed (.bound s.slot v.toNat)).modBound s.cur s.slot v.toNat fun e => { e with filling := true })) ∧
      (x.emptyBuf = none → Waits (.mldbS v t) s .latch s)) ∧
    (Admitted (.mring d a t) s → s.myGang = some (g, me) → 1 ≤ n → n ≤ 16 → first + n ≤ g.n → first ≤ me → me < first + n →
      Retires (.mring d a t) s
        ((s.modCx s.cur fun y => { y with mx := { y.mx with ring := value, ringSlot := some s.slot } }).setX d
          (BitVec.ofNat 32 pos)))

/-- A mover command that passes its checks starts or queues, answers 1, and the thread's stores perform before it; with both
places taken, or on the channel of a stream, it answers 0; `mvst` reads the status and `mvkill` stops the channel (R176,
R181, R183, R430). That a command performs the buffered stores at once is the model's reading (log entry 9). -/
def Obligations.MoverCommands : Prop :=
  ∀ (s : State) (d a : Reg),
    let c := (s.x a).toNat
    let x := (s.core s.cur).cx
    let m := x.mover c
    let ok (cmd : MoverCmd) : Prop :=
      s.basePathClass (cmd.e 0) .load = 0 ∧ s.basePathClass (cmd.e 1) .store = 0 ∧ s.noCounter cmd = false ∧ cmd.refuses = 0
    let full := (m.run.isSome = true ∧ m.queued.isSome = true) ∨ x.isStream c = true
    let taken (cmd : MoverCmd) : State := (s.drain.modCx s.cur fun y => y.setMover c (m.take cmd)).setX d 1
    c < 4 →
      (Admitted (.mvgo d a) s → ok (s.moverCmd c false) →
        (full → Retires (.mvgo d a) s (s.setX d 0)) ∧
        (¬full → Retires (.mvgo d a) s (taken (s.moverCmd c false)))) ∧
      (Admitted (.mvred d a) s → ok (s.moverCmd c true) →
        (full → Retires (.mvred d a) s (s.setX d 0)) ∧
        (¬full → Retires (.mvred d a) s (taken (s.moverCmd c true)))) ∧
      (Admitted (.mvst d a) s → Retires (.mvst d a) s (s.setX d m.status)) ∧
      (Admitted (.mvkill a) s → Retires (.mvkill a) s (s.modCx s.cur fun y => y.kill c))

/-- `sbind` starts a channel's command with one side at the register; `sunbind` frees the register, at once, or, for a write
stream that still holds bytes, by letting the channel finish first (R447, R449). That `sbind` performs the buffered stores in the
same step, and that only the base of its own direction is checked, are the model's choices (log entries 9, 31). -/
def Obligations.StreamBindings : Prop :=
  ∀ (s : State) (d a t : Reg) (w : Bound) (chan : Nat),
    let c := (s.x a).toNat
    let dir := bit (s.x t).toNat 0
    let cmd := s.moverCmd c false
    let x := (s.core s.cur).cx
    let st := (x.mover c).st
    let reg := d.toNat
    let kind : BoundKind := if dir = true then .writeStream c else .readStream c
    let bound (b : Bound) : Bound := { b with gang := s.act.gang, gust := s.isGust }
    let idle (m : Mover) : Mover := { m with st := .idle, run := none, err := 0, killed := false, walk := none }
    let still (m : Mover) : Mover := { idle m with killing := false }
    let later (e : Bound) : Bound := if e.slot == s.slot && e.reg == reg then { e with slot := 4 + s.slot } else e
    let mov := x.mover chan
    (Admitted (.sbind d a t) s → s.fillingReg reg = false → c < 4 → (s.x t).toNat < 2 → s.boundOf reg = none →
      st = .idle ∨ st = .stopped → x.streamOf c = none →
      s.basePathClass (if dir = true then cmd.e 1 else cmd.e 0) (if dir = true then .store else .load) = 0 →
      (dir = true → s.noCounter cmd = false) → cmd.bad = 0 → (if dir = true then cmd.e 0 = 0 ∧ cmd.shape ≠ 1 else cmd.e 1 = 0 ∧ cmd.shape ≠ 2) →
      Retires (.sbind d a t) s (s.drain.modCx s.cur fun y =>
        { (y.setMover c ((y.mover c).take cmd)) with bounds := y.bounds ++ [bound { slot := s.slot, reg := reg, kind := kind }] })) ∧
    (Admitted (.sunbind d) s → s.boundOf reg = some w → s.fillingReg reg = false →
      (w.kind = .readStream chan → Retires (.sunbind d) s
        ((s.unboundReg reg).modCx s.cur fun y => y.setMover chan (idle (y.mover chan)))) ∧
      (w.kind = .writeStream chan → mov.st = .stopped ∨ (w.fifo = [] ∧ w.part = []) → Retires (.sunbind d) s
        ((s.unboundReg reg).modCx s.cur fun y => y.setMover chan (still mov))) ∧
      (w.kind = .writeStream chan → mov.st ≠ .stopped → w.fifo ≠ [] ∨ w.part ≠ [] → Retires (.sunbind d) s
        ((s.modCx s.cur fun y => { (y.setMover chan { mov with killing := true }) with bounds := y.bounds.map later }).modTh
          (·.setV reg 0))) ∧
      ((∀ n, w.kind ≠ .readStream n ∧ w.kind ≠ .writeStream n) → Retires (.sunbind d) s
        ((s.unlinkEnd s.cur w).unboundReg reg)))

/-- Mesh channels: `cbind` makes an end and joins it to its opposite; `cret` gives one read buffer back; `ceos` sends an
end-of-stream beat with a credit and blocks without one; `bceos` branches exactly when such a beat stands at the head
(R187 to R189, R380, R386). -/
def Obligations.ChannelOperations : Prop :=
  ∀ (s : State) (d a t : Reg) (o : BitVec 16) (p q : Peer) (w : Bound) (port bufs : Nat) (e : Nat × Nat × Bool),
    let v := (s.x a).toNat
    let u := (s.x t).toNat
    let out := bit u 0
    let reg := d.toNat
    let kind : BoundKind := if out = true then .chanOut p (bits u 1 3) else .chanIn p (bits u 1 3) (bits u 4 3)
    let fresh (b : Bound) : Bound := { b with gang := s.act.gang, gust := s.isGust }
    let new := fresh { slot := s.slot, reg := reg, kind := kind }
    let fewer := s.modBound s.cur s.slot reg fun b => { b with readBufs := b.readBufs - 1 }
    (Admitted (.cbind d a t) s → s.fillingReg reg = false → s.boundOf reg = none → cbindReserved v u = false →
      out = true ∨ (1 ≤ bits u 4 3 ∧ bits u 4 3 ≤ 4) → s.peerOf v = some p →
      ((s.core s.cur).cx.bounds.any fun b => b.isEnd out (bits u 1 3)) = false →
      Retires (.cbind d a t) s ((s.modCx s.cur fun x => { x with bounds := x.bounds ++ [new] }).linkEnds s.cur new)) ∧
    (s.boundOf reg = some w → s.fillingReg reg = false →
      (Admitted (.cret d) s → w.kind = .chanIn q port bufs → 1 ≤ w.readBufs →
        (w.linked = true → s.creditTo w = some e → Retires (.cret d) s
          { fewer with flight := { fewer.flight with chanCredits := fewer.flight.chanCredits ++ [e] } }) ∧
        (w.linked = false ∨ s.creditTo w = none → Retires (.cret d) s fewer)) ∧
      (Admitted (.ceos d) s → w.kind = .chanOut q port → w.linked = true → 1 ≤ w.credits →
        Retires (.ceos d) s (s.sendBeat w none)) ∧
      (Admitted (.ceos d) s → w.kind = .chanOut q port → w.linked = false ∨ w.credits = 0 →
        Waits (.ceos d) s .bound (s.waitsOn reg)) ∧
      (Admitted (.bceos d o) s → w.isSource = true →
        if w.fifo.head? = some none then Jumps (.bceos d o) s (s.branchTo o) s else Retires (.bceos d o) s s))

/-! Mailbox, Gust, time, lines, queues and launches. -/

/-- The mailbox instructions: `mbopen` opens the buffer R204 chooses, or answers 2 while one is open; `mbpub` performs the
thread's stores, writes the header and makes the open buffer the latest with the next version; `mbld` and `mbver` read the
latest version into vector registers, or the newest clean one where the latest is BAD; `mbsnap` starts a copy with its buffer
pinned, or answers 0 while four are under way (R203 to R208, R210). That a release performs the buffered stores at once, and
the location of a byte of the mailbox, are the model's (log entries 4, 9). -/
def Obligations.MailboxOperations : Prop :=
  (∀ k : MbSlot,
    let can := (List.range 4).filter fun b => (k.buf b).st != .latest && (k.buf b).pins == 0
    let bad (b : Nat) : Prop := (k.buf b).bad = true
    can ≠ [] → k.choose ∈ can ∧ ((∃ b ∈ can, bad b) → bad k.choose ∧ ∀ b ∈ can, b < k.choose → ¬bad b) ∧
      ((∀ b ∈ can, ¬bad b) → ∀ b ∈ can, (k.buf k.choose).ver ≤ (k.buf b).ver ∧
        (b < k.choose → (k.buf k.choose).ver < (k.buf b).ver))) ∧
  (∀ (s : State) (n m b : Nat) (stale : Bool),
    let k := s.mbSlot n
    let clean (c : Nat) : Prop := s.mbClean n c (min m k.size) = true
    (k.latest = none → s.mbRead n m = (s.mbImage n none false false m, s)) ∧
    (k.latest = some b → (k.buf b).bad = false → clean b → s.mbRead n m = (s.mbImage n (some b) false false m, s)) ∧
    (∀ c, k.latest = some c → (k.buf c).bad = true → k.newestClean = some b → clean b →
      s.mbRead n m = (s.mbImage n (some b) false true m, s)) ∧
    (32 ≤ k.size → ∀ j, 32 ≤ j → j < m → (s.mbImage n (some b) false stale m).getD j 0 =
      if j < k.size then memByte s.mem (mbLoc (k.base b) + j) else 0)) ∧
  ∀ (s : State) (d a t : Reg) (b : Nat),
    let v := (s.x a).toNat
    let n := v % 4096
    let k := s.mbSlot n
    let u := (s.x t).toNat
    let len := bits u 0 20
    let r := s.drain
    let kr := r.mbSlot n
    let head := r.storeUnder (mbLoc (kr.base b))
      (leBytes 32 (mbStored (kr.ver + 1) r.clock.now r.writerField (bits u 20 8) n len false))
    let published := (head.setMb n (kr.publish b (kr.ver + 1))).mirrorOut n b (kr.ver + 1) head.clock.now head.writerField
      (bits u 20 8) len
    let got (m : Nat) : List Byte × State := s.mbRead n m
    let block (m : Nat) (j : Nat) : Vec := BitVec.ofNat 256 (leNat (((got m).1.drop (32 * j)).take 32))
    let snap (c : Snap) : State := { (s.drain.snapPin c false).2 with
      snaps := (s.drain.snapPin c false).2.snaps ++ [(s.drain.snapPin c false).1] }
    let copy : Snap := ⟨n, 0, false, false, u, s.cur, bits v 12 6, s.slot, s.isGust, s.cur, s.act.asid, s.th.csr.ser, none⟩
    (v < 4096 → k.valid = true →
      (Admitted (.mbopen d a) s → s.mbDenied k = false →
        (k.openBuf ≠ none → Retires (.mbopen d a) s (s.setX d 2)) ∧
        (k.openBuf = none → Retires (.mbopen d a) s ((s.setMb n (k.setBuf k.choose { st := .opened })).setX d 1))) ∧
      (Admitted (.mbpub d a t) s → u < 2 ^ 28 → s.mbDenied k = false → k.openBuf = some b → len + 32 ≤ k.size →
        Retires (.mbpub d a t) s (published.setX d (BitVec.ofNat 32 (kr.ver + 1)))) ∧
      (Admitted (.mbld d a t) s → 1 ≤ u → u ≤ 8 → d.toNat + u ≤ 32 → s.anyBound d.toNat u = false →
        s.anyFilling d.toNat u = false → Retires (.mbld d a t) s
          ((got (32 * u)).2.modTh fun h => (List.range u).foldl (fun h j => h.setV (d.toNat + j) (block (32 * u) j)) h)) ∧
      (Admitted (.mbver d a) s → s.anyBound d.toNat 1 = false → s.anyFilling d.toNat 1 = false → Retires (.mbver d a) s
        ((got 32).2.modTh (·.setV d.toNat (BitVec.ofNat 256 (leNat (got 32).1)))))) ∧
    (v < 2 ^ 18 → k.valid = true → Admitted (.mbsnap d a t) s → u % 32 = 0 → s.ownAllowed s.issuer u k.size = true →
      (4 ≤ (s.snaps.filter fun c => c.core == s.cur).length →
        Retires (.mbsnap d a t) s (s.setX d 0)) ∧
      ((s.snaps.filter fun c => c.core == s.cur).length < 4 →
        Retires (.mbsnap d a t) s ((snap copy).setX d 1)))

/-- `gust` begins a seizure and answers 1, or 0 while one is held; `gustrel` ends a held one; `gustq` reads the state word of
a profile or of the pool; a profile operand that fails its check traps with cause GUST and the code of the first check that
fails. A seizure holds its profile with the payload from `m0` to `m7`, claims every tile of its set that none had claimed and
asks its slots to stop (R213 to R215, R404). That `gust` performs the buffered stores in the same step is the model's reading (log entry 9). -/
def Obligations.GustOperations : Prop :=
  ∀ (s : State) (d a : Reg),
    let v := (s.x a).toNat
    let p := v % 16
    let g := s.gustAt p
    let traps (i : Instr) (code : Nat) : Prop := Traps i s causeGust (BitVec.ofNat 64 code) s
    let checked (i : Instr) : Prop := Admitted i s →
      (16 ≤ v → traps i 1) ∧ (v < 16 → g.valid = false → traps i 2) ∧
      (v < 16 → g.valid = true → s.isHolder s.issuer p = false → traps i 3)
    let r := s.drain
    let held : State := { r with gusts := FMap.put r.gusts p { r.gustAt p with
      held := true, expired := false, accepted := r.clock.now, payload := s.th.build, started := [] } }
    let seized : State := (r.gustAt p).tiles.foldl
      (fun u t => if (u.core t).gust.isSome = true then u else (u.modCore t fun k => { k with gust := some p }).askStop t) held
    (v < 16 → g.valid = true → s.isHolder s.issuer p = true →
      (Admitted (.gust d a) s → g.held = true → Retires (.gust d a) s (s.setX d 0)) ∧
      (Admitted (.gust d a) s → g.held = false → Retires (.gust d a) s (seized.setX d 1)) ∧
      (Admitted (.gustrel a) s → Retires (.gustrel a) s (if g.held = true then s.releaseGust p else s))) ∧
    checked (.gust d a) ∧ checked (.gustrel a) ∧
    (Admitted (.gustq d a) s → v < 32 → Retires (.gustq d a) s
      (s.setX d (BitVec.ofNat 32 (if bit v 4 = true then s.poolWord else g.stateWord)))) ∧
    (Admitted (.gustq d a) s → 32 ≤ v → traps (.gustq d a) 1)

/-- `tnow` reads device time; `tuntil` arms a timer and answers 1, or 0 with eight armed; `swget` answers where a record
stands, and `swadv` moves the window's start and answers how many records it consumed (R231, R232, R458 to R462). The line
instructions perform the thread's stores, run the checks of R268 in order and answer the code of the first that fails, else do
their operation and answer its result (R268, R416). That they perform the buffered stores in the same step is the model's
reading (log entry 9); behind what `swget` and `swadv` answer stand its log entries 37 and 41. -/
def Obligations.TimeStreamsAndLines : Prop :=
  (∀ (s : State) (d p t : Reg),
      let v := (s.x t).toNat
      let timers := (s.core s.cur).cx.timers
      let timer : Timer := ⟨(s.p p).toNat, v, s.slot⟩
      let armed := s.modCore s.cur fun k => { k with cx := { k.cx with timers := k.cx.timers ++ [timer] } }
      let k := s.streamAt (bits v 0 7)
      let r := k.advance (s.p p).toNat
      (Admitted (.tnow d) s → Retires (.tnow d) s (s.setP d (BitVec.ofNat 64 s.clock.now))) ∧
      (Admitted (.tuntil d p t) s → v < 64 → s.hasCounter v = true →
        (8 ≤ timers.length → Retires (.tuntil d p t) s (s.setX d 0)) ∧
        (timers.length < 8 → Retires (.tuntil d p t) s (armed.setX d 1))) ∧
      (Admitted (.swget d p t) s → k.valid = true → v < 256 → Retires (.swget d p t) s
        (s.setX d (if v < 128 then k.getSeq ((s.p p).setWidth 32) else k.getTime (s.p p).toNat))) ∧
      (Admitted (.swadv d p t) s → k.valid = true → v < 128 → Retires (.swadv d p t) s
        (({ s with streams := FMap.put s.streams v r.1 } : State).setX d (BitVec.ofNat 32 r.2)))) ∧
  ∀ (s : State) (d p t : Reg),
    let r := s.drain
    let pa := (r.p p).toNat / 128 * 128
    let n := unitIndex r.cur
    let key := lineKey pa
    let v := (s.x t).toNat
    let off := bits v 0 17
    let loc := sramLoc s.cur off
    let answers (i : Instr) (owned frames : Bool) (res : State × Word) : Prop :=
      (r.lineRefuses pa owned frames ≠ 0 → Retires i s (r.setX d (BitVec.ofNat 32 (r.lineRefuses pa owned frames)))) ∧
      (r.lineRefuses pa owned frames = 0 → Retires i s (res.1.setX d res.2))
    (Admitted (.lpin d p) s → answers (.lpin d p) true false (r.pinLine n key)) ∧
    (Admitted (.lunpin d p) s → answers (.lunpin d p) true false (r.unpinLine n key)) ∧
    (Admitted (.lprobe d p) s → answers (.lprobe d p) false false (r, r.probeLine n key)) ∧
    (Admitted (.ldrop d p t) s → v < 2 → answers (.ldrop d p t) true true (r.discardLine n key (bit v 0))) ∧
    (Admitted (.lfill d p t) s → bits v 17 13 = 0 → off % 128 = 0 →
      (bit v 31 = true → answers (.lfill d p t) true true (r.fillLine n key none false)) ∧
      (bit v 31 = false → s.ownAllowed s.issuer off 128 = true → s.poisoned loc (loc + 128) = none →
        answers (.lfill d p t) true true (r.fillLine n key (some (r.read loc 128)) (bit v 30))))

/-- `qclaim` takes the entry that R251 orders first into a vector register and lets a waiting post in, and waits, once listed
as a claimer, while there is none; `hacc` adds 1 to a bin, which stays at its largest value. `glaunch` reads its 60 bytes and
stages the launch, answering 1, or 0 when four are staged; `gabort` aborts the live gang of a name and answers 1, or 0 when
there is none (R246, R251, R277, R284, R285, R403, R405, R439). That `hacc` performs the buffered stores in the same step is
the model's reading (log entry 9). -/
def Obligations.QueuesAndLaunches : Prop :=
  (∀ (s : State) (d a t : Reg) (i : Nat) (e : QEntry),
      let v := (s.x a).toNat
      let cm := bits v 0 3
      let me : Claimer := ⟨s.cur, s.slot, s.act.asid, cm⟩
      let mine (k : Claimer) : Bool := k.core == s.cur && k.slot == s.slot
      let taken : State := { s with queue := s.queue.eraseIdx i, claimers := s.claimers.filter (!mine ·) }
      let b := (s.x t).toNat
      let r := s.drain
      let bank := if r.gen.hbank = true then 1 else 0
      let old := r.bin bank v b
      let bump := if old = BitVec.allOnes 32 then old else old + 1
      (Admitted (.qclaim d a) s → v < 8 → v ≠ 0 → s.boundOf d.toNat = none → s.fillingReg d.toNat = false →
        (s.claimable s.cur s.slot s.act.asid cm = some i → s.queue[i]? = some e → Retires (.qclaim d a) s
          (taken.admitPosts.modTh (·.setV d.toNat (ofLanes 4 (e.words.map (·.toNat)))))) ∧
        (s.claimable s.cur s.slot s.act.asid cm = none → Waits (.qclaim d a) s .queueClaim
          (if s.claimers.any mine then s else { s with claimers := s.claimers ++ [me] }))) ∧
      (Admitted (.hacc a t) s → v < 32 → b ≤ 8 → s.gen.owner = some s.act.asid → Retires (.hacc a t) s
        { r with gen := { r.gen with hist := FMap.set r.gen.hist (bank * 1024 + v * 16 + b) bump 0 } })) ∧
  ∀ (s u : State) (d p a t : Reg) (l : List LanePlace) (bs : List Byte) (g : Gang),
    let ea := s.p p
    let v := s.x t
    let asid := if s.sup = true then v.setWidth 16 else s.act.asid
    (Admitted (.glaunch d p) s → s.safeRule true true (pathByte ea) = 0 → ea.toNat % 4 = 0 →
      s.windowAllows false ea 0 60 = true → s.checkLanes ea 4 (fun i => (i : Int)) .load (List.range 15) = .ok l →
      s.laneWalk .load l = none → s.readLanes 4 l = .bytes bs u →
        (4 ≤ u.th.staged.length → Retires (.glaunch d p) s (u.setX d 0)) ∧
        (u.th.staged.length < 4 → Retires (.glaunch d p) s
          ((u.modTh fun h => { h with staged := h.staged ++ [bs] }).setX d 1))) ∧
    (Admitted (.gabort d a t) s → v.toNat < 2 ^ 16 → s.sup = true ∨ v = 0 →
      (s.liveGang (s.x a).toNat asid = some g → Retires (.gabort d a t) s ((s.abortGang g.no).setX d 1)) ∧
      (s.liveGang (s.x a).toNat asid = none → Retires (.gabort d a t) s (s.setX d 0)))

/-! System instructions. -/

/-- CSR and engine-register accesses: `csrs` and `csrc` set and clear the bits of their operand, except on a register that is
cleared by writing ones; after a write a CSR reads the bits of R63 that it has, and its old value where the write is refused or
the CSR is read-only; a write of `l1cfg` that fits starts the change and interlocks its writer, one that does not is ignored;
a write of an engine register keeps the bits it does not have (R63, R64, R85, R387, R388, R392). -/
def Obligations.ControlRegisterAccesses : Prop :=
  ∀ (s : State) (d a : Reg) (c : BitVec 8) (n : BitVec 6),
    let num := c.toNat
    let old := s.csrRead s.cur s.slot num
    let set := if num = 3 then s.x a else old ||| s.x a
    let clear := if num = 3 then s.x a else old &&& ~~~(s.x a)
    let w (v : Word) : State × Bool := s.csrWrite s.cur s.slot num v
    let eng := n.toNat
    let k := s.core s.cur
    (s.csrRefuses num = 0 →
      (Admitted (.csrr d c) s → Retires (.csrr d c) s (s.setX d old)) ∧
      (¬(num = 0x43 ∧ (s.core s.cur).l1pending.isSome = true) →
        ∀ e ∈ ([(.csrw a c, s.x a), (.csrs a c, set), (.csrc a c, clear)] : List WordResult), Admitted e.1 s →
          ((w e.2).2 = false → Retires e.1 s (w e.2).1) ∧
          ((w e.2).2 = true → exec e.1 s = .next (s.finish (.leave (.blocked .interlock) (w e.2).1))))) ∧
    (s.csrRefuses num ≠ 0 →
      ∀ i ∈ ([.csrr d c, .csrw a c, .csrs a c, .csrc a c] : List Instr), Admitted i s →
        Traps i s (s.csrRefuses num) ((encode i).setWidth 64) s) ∧
    (∀ v : Word,
      let now := (w v).1.csrRead s.cur s.slot num
      let fits := coreType s.cur = .reasoning ∧ s.l1Fits s.cur (v.setWidth 2) = true ∧ k.l1pending = none
      let ring (base size : Word) : Prop := base.toNat + size.toNat ≤ s.ringLimit s.cur ∧ k.pending = []
      (num ∈ [0x00, 0x01] → now = v &&& 0xF) ∧ (num = 0x02 → now = v &&& 3) ∧ (num = 0x03 → now = old &&& ~~~v) ∧
      (num ∈ [0x18, 0x19, 0x21, 0x22, 0x24, 0x25, 0x27, 0x28, 0x48, 0x49, 0x4A] → now = v) ∧
      (num = 0x1A → now = if v.toNat ≤ 4096 then v else old) ∧ (num = 0x20 → now = (v &&& 3) ||| (old &&& ~~~3)) ∧
      (num = 0x23 → now = v &&& 0x800000FF) ∧ (num = 0x26 → now = v &&& ~~~3) ∧ (num = 0x40 → now = v &&& 0xFF) ∧
      (num = 0x41 → now = if v.toNat % 64 = 0 ∧ ring v k.spsize then v else old) ∧
      (num = 0x42 → now = if v.toNat % 0x1000 = 0 ∧ 0x1000 ≤ v.toNat ∧ v.toNat ≤ 0x10000 ∧ ring k.spbase v then v else old) ∧
      (num ∈ [0x10, 0x11, 0x12, 0x13, 0x14, 0x30, 0x31, 0x43, 0x50, 0x51, 0x60, 0x61] → now = old) ∧
      ((w v).2 = true ↔ num = 0x43 ∧ fits) ∧
      (num = 0x43 → ((w v).1.core s.cur).l1pending = if fits then some (v.setWidth 2) else k.l1pending)) ∧
    (hasEngine (coreType s.cur) eng = true →
      (Admitted (.erd d n) s → Retires (.erd d n) s (s.setP d (s.engineRead s.cur s.slot eng))) ∧
      (Admitted (.ewr a n) s → Retires (.ewr a n) s (s.engineWrite s.cur s.slot eng (s.p a)))) ∧
    (16 ≤ eng → ∀ r v, ((s.engineWrite s.cur s.slot eng v).engineRead s.cur s.slot r) =
      if r = eng then (v &&& BitVec.ofNat 64 (engineMask eng)) ||| (s.engineRead s.cur s.slot eng &&&
        ~~~BitVec.ofNat 64 (engineMask eng)) else s.engineRead s.cur s.slot r)

/-- Calls and returns: `ecall` and `ebreak` take their traps; with the debugger's claim `ebreak` stops the slot, and released
from that stop it has no effect; `eret` restores the mode and the pc that the trap saved; `halt` leaves the slot preempted.
`tinv` drops the entries its operand selects and no other; `safe` marks a point that its thread may stop behind, within the
live map; a prefix waits for the word it governs; a word that encodes nothing traps ILLEGAL (R67, R72, R113, R300, R302, R321,
R390, R406, R441). -/
def Obligations.SystemInstructions : Prop :=
  (∀ (s : State),
      let claimed := (s.core s.cur).dbg.ebkclm
      let back := (s.modCsr fun c => { c with mode := c.pmode }).dropResv s.cur s.slot
      (Admitted .ecall s → Traps .ecall s causeEcall 0 s) ∧
      (Admitted .ebreak s → s.th.ebkStop = true → Retires .ebreak s s) ∧
      (Admitted .ebreak s → s.th.ebkStop = false → claimed = true → s.isGust = false → Settles .ebreak s
        ((s.modTh fun t => { t with ebkStop := true }).debugStop s.cur s.slot 3)) ∧
      (Admitted .ebreak s → s.th.ebkStop = false → claimed = false ∨ s.isGust = true → Traps .ebreak s causeEbreak 0 s) ∧
      (Admitted .eret s → exec .eret s = .next (s.finish (.resume s.th.csr.epc back))) ∧
      (Admitted .halt s → exec .halt s =
        .next (s.finish (.leave (.suspended .preempted) (s.modTh fun t => { t with saveKind := 9 }))))) ∧
  ∀ (s : State) (p m : Reg) (h : BitVec 4) (n : BitVec 8) (z : BitVec 24) (w : Word),
    let a := s.p p
    let v := (s.x m).toNat
    let sel := v % 4
    let i := 256 * h.toNat + n.toNat
    let c := s.th.csr
    let drops (t : TlbEntry) : Bool :=
      if sel = 2 then true
      else if sel = 1 then t.asid == (s.x m).extractLsb' 16 16 && !t.leaf.getLsbD 4
      else t.maps (pathRoot (pathByte a)) (if sel = 0 then s.act.asid else (s.x m).extractLsb' 16 16) (bits a.toNat 0 56)
    (Admitted (.tinv p m) s → bits v 2 14 = 0 → sel = 1 ∨ sel = 2 ∨ isTranslated (pathByte a) = true →
      Retires (.tinv p m) s (s.modCore s.cur fun k => { k with tlb := k.tlb.filter fun t => !drops t })) ∧
    (Admitted (.safe h n) s → i < c.lmcnt.toNat → exec (.safe h n) s = .next (s.finish (.marked
      (s.modTh fun t => { t with safePt := some (t.bank.pc, (c.lmbase.toNat + 16 * i) % 2 ^ 64) })))) ∧
    (Admitted (.safe h n) s → c.lmcnt.toNat ≤ i → Traps (.safe h n) s causeSafe 4 s) ∧
    (Admitted (.pfxExt z) s → exec (.pfxExt z) s = .next (s.finish (.pending (0xFC000000 ||| z.setWidth 32) s))) ∧
    (Admitted (.pfxOpt z) s → exec (.pfxOpt z) s = .next (s.finish (.pending (0xFD000000 ||| z.setWidth 32) s))) ∧
    (decode w = none → w.extractLsb' 26 6 ≠ 63 → Traps (.illegalEncoding w) s causeIllegal (w.setWidth 64) s) ∧
    (decode w = none → w.extractLsb' 26 6 = 63 →
      exec (.illegalEncoding w) s = .next (s.pfxTrap (w.setWidth 64)))



/-! Events: what the device's units and the world outside do between instructions. -/

/-- Messages, credits, successors, gangs, notices and channel traffic arrive. A message lands in the inbox port of its tile,
with the time, or is accepted behind it, unless an earlier one of its sender and class is still on its way; the port hands on
its oldest; a tile releases a held binding first, then swaps a bank, then starts a message, then loads one; a request becomes a
gang or a rejection with the reason of the first check that fails; placement goes through the classes that shedding leaves, in
order; a scan reports what it has not reported. The operations these steps go through (`acceptAt`, `dispatchWork`, `place`,
`placeClass`, `squallFindings`, `startMessage`) are named and not characterised (R28 to R30, R34, R41, R46, R66, R188, R192,
R195, R286, R288, R378, R463). That a notice counts for a dependent accepted later, and that a tile in no partition has no
address-space id, are the model's choices (log entries 69 and 70). -/
def Obligations.ArrivalEvents : Prop :=
  ∀ (s : State) (c n j : Nat),
    let k := s.core c
    let fl := s.flight
    let fewer {α : Type} (l : List α) : List α := l.take j ++ l.drop (j + 1)
    let happens (i : Instr) (t : State) : Prop := Happens i s True t
    let credit (e : Nat × Nat × Bool) : State :=
      if isAway e.1 = true then s
      else ({ s with flight := { fl with credits := fewer fl.credits } } : State).modCore e.1 (·.freeCredit e.2.2 e.2.1)
    let notice (p : Nat × Nat) : State :=
      ({ s with flight := { fl with notices := fewer fl.notices } } : State).modGang p.1 fun g =>
        match FMap.find g.members p.2 with
        | some m => { g with members := FMap.put g.members p.2 { m with trig := true } }
        | none => g
    let arrival (e : Nat × Nat × Nat × Nat) : State :=
      let key := barKey e.2.1 e.2.2.1 e.2.2.2
      ({ s with flight := { fl with arrivals := fewer fl.arrivals } } : State).modGang e.1 fun g =>
        { g with bars := FMap.put g.bars key (FMap.get g.bars key 0 + 1) }
    let add (e : Nat × Nat × Word) : State :=
      if isAway e.1 = true then s
      else ({ s with flight := { fl with cadds := fewer fl.cadds } } : State).addTileCounter e.1 e.2.1 e.2.2
    let beat (e : Nat × Nat × Bool × Option Vec) : State :=
      ({ s with flight := { fl with beats := fewer fl.beats } } : State).modEnd e.1 false e.2.1 e.2.2.1 fun b =>
        { b with fifo := b.fifo ++ [e.2.2.2] }
    let early (e : Nat × Nat × Bool × Option Vec) : Bool := (fl.beats.take j).any fun f =>
      f.1 == e.1 && f.2.1 == e.2.1 && f.2.2.1 == e.2.2.1
    let back (e : Nat × Nat × Bool) : State :=
      ({ s with flight := { fl with chanCredits := fewer fl.chanCredits } } : State).modEnd e.1 true e.2.1 e.2.2 fun b =>
        { b with credits := b.credits + 1 }
    let left (rest : List Successor) : State := s.setCore c { k with succQ := rest }
    let sent : State :=
      match k.succQ with
      | [] => s
      | .gang d asid :: rest => { left rest with gangPort := s.gangPort ++ [{ desc := d, asid := asid }] }
      | .message dst m :: rest => if k.successorDue = true then (left rest).launch c dst m else s
    let loaded (m : Message) : State :=
      match k.cx.loadedEntry c m.tag with
      | some (i, e) => if k.misfit n i e = true then s.unloadShadow c n else s.startMessage c n i e m
      | none => ((s.firingReturns m).modThread c n (·.unload s.clock.now)).holdMessage c m.unloaded
    let started : State :=
      match (s.thread c n).shadow with
      | some m => if m.gang.isSome = true ∧ s.loadedDue c n = true then loaded m else s
      | none => s
    let landed (r : State) (d : Nat) (m : Message) : State :=
      let p := { m with arrived := s.clock.now }
      let port := r.modCore d fun q => { q with inbox := q.inbox ++ [p] }
      if (r.core d).inbox = [] then (r.acceptAt d p).getD port else port
    let arrived : State :=
      match fl.messages[j]? with
      | none => s
      | some e =>
        let r : State := { s with flight := { fl with messages := fl.messages.eraseIdx j } }
        if e.1 = queueDest ∨ s.overtakes j e = true then s
        else if e.1 = serviceDest then ({ r with services := r.services ++ [e.2.request] } : State).returnCredit e.2
        else match s.landing e with
          | none => s
          | some d => if isAway d = true then s else landed r d e.2
    let taken : State :=
      match k.inbox with
      | [] => s
      | m :: rest => ((s.setCore c { k with inbox := rest }).acceptAt c m).getD s
    let placed (e : Nat × Nat × Nat × BitVec 128 × Message) : State := (s.unqueue c e.1).place c e.2.1 e.2.2.1 e.2.2.2.1 e.2.2.2.2
    let dispatched : State :=
      if coreType c = .agent then s.dispatchWork (unitIndex c)
      else match s.heldTag c with
        | some tag => s.releaseHeld c tag
        | none => match s.swappable c with
          | some m => s.swapBank c m
          | none => match s.startable c with
            | some e => placed e
            | none => match s.loadable c with
              | some e => placed e
              | none => s
    let accepted : State :=
      match s.gangPort with
      | [] => s
      | r :: rest =>
        let u : State := { s with gangPort := rest }
        let why := u.gangReason r.desc r.asid
        let v : State := if r.step = false then u else { u with gen := { u.gen with
          submitted := false, stepGang := if why = 0 then some (u.makeGang r).no else none } }
        if why = 0 then { v with gangs := v.gangs ++ [u.makeGang r] } else v.rejectGang (field r.desc 8 4) r.asid why
    let placement : State :=
      if s.fatal = true then s
      else [1, 2, 3].foldl (fun u cls => if sheds u.shed.level cls = true then u
        else u.placeClass ((u.gangs.filter fun g => g.st == .pending && g.cls == cls).map (·.no))) s
    let found := s.squallFindings
    let reported := (found.filter fun f => !s.squall.reported.contains f.key).foldl State.squallReport s
    let scanned : State := if s.squall.en = false then s
      else { reported with squall := { reported.squall with reported := found.map Finding.key } }
    let stale := k.hold.filter (s.heldTooLong c)
    happens (.messageArrival j) arrived ∧ Happens (.inboxPortAccept c) s (c < 360) taken ∧
    Happens (.messageDispatch c) s (c < 360) dispatched ∧
    happens (.creditReturn j) (match fl.credits[j]? with | some e => credit e | none => s) ∧
    Happens (.successorSend c) s (c < 360) sent ∧
    Happens (.unboundHoldExpiry c) s (c < 360) (stale.foldl (fun s m => s.unboundRecord c m)
      (s.modCore c fun k => { k with hold := k.hold.filter fun m => !s.heldTooLong c m })) ∧
    happens .gangRequestAccept accepted ∧ happens .placementPass placement ∧
    Happens (.gangMemberStart c n) s (c < 256 ∧ n < 4) started ∧
    happens (.triggerNotice j) (match fl.notices[j]? with | some p => notice p | none => s) ∧
    happens (.barrierArrival j) (match fl.arrivals[j]? with | some e => arrival e | none => s) ∧
    happens (.remoteCaddArrival j) (match fl.cadds[j]? with | some e => add e | none => s) ∧
    happens (.channelBeatArrival j) (match fl.beats[j]? with
      | some e => if early e = true ∨ s.trafficWaits e.1 e.2.2.1 = true then s else beat e
      | none => s) ∧
    happens (.channelCreditReturn j) (match fl.chanCredits[j]? with
      | some e => if s.trafficWaits e.1 e.2.2 = true then s else back e
      | none => s) ∧
    happens .squallScan scanned

/-- Memory, translation and the engines answer. A resize sets `l1cfg`, forgets what the moved bytes held and wakes the
interlocked writer; a walk that is being served leaves its slice's walkers and ends for all that wait for it; an answer reaches
the fault that waits for it; a matrix command writes its result, frees its unit and its buffer and retires its slot, or its
poison traps; a fill, a hand-off, an element of a mover and a copy of the mailbox move their bytes; a slot that waits becomes
ready; a line event raises the row that serves it; a loader program takes its next piece or ends. The operations these steps go
through (`walkEnded`, `runMatrix`, `fillFrom`, `elemGet`, `elemPut`, `snapRun`, `raiseLine`, `runPiece`) are named and not
characterised (R85, R109 to R111, R119, R123, R163, R166, R178, R208, R265, R269, R272, R273). Which lines miss and leave comes
from the schedule (log entries 2 and 55). -/
def Obligations.MemoryAndEngineEvents : Prop :=
  ∀ (s : State) (c n j : Nat) (f : FaultTarget) (h : HostAccess) (e : LineEvent),
    let k := s.core c
    let t := s.thread c n
    let slotOk := c < 360 ∧ n < 4
    let wakes (due : Bool) (g : Thread → Thread) : State := if due = true then s.modThread c n g else s
    let ready (t : Thread) : Thread := { t with run := .ready, walk := none, parked := false }
    let target := match f with
      | .thread c n => (c < 360 ∨ (4096 ≤ c ∧ c < 8192)) ∧ n < 4
      | .channel c n => (c < 360 ∨ (4096 ≤ c ∧ c < 8192)) ∧ n < 4
    let key := lineKey e.pa.toNat
    let line := FMap.find (s.sliceAt e.slice).lines key
    let homed := e.slice < 64 ∧ isBacked e.pa.toNat = true ∧ homeSlice e.pa.toNat = e.slice
    let spent := (s.thread c n).act.bind fun a => a.rowOf.map fun r => (a, r)
    let ended := match spent with
      | some p => if p.1.budget ≤ p.1.cycles then (s.overrun c n p.2).endThread c n .killed else s
      | none => s
    let evicted (l : Line) : State :=
      let r := s.raiseLine e.slice 2 l.owner { e with way := l.way, dirty := s.lineDirty key l }
      match r.2 with
      | some h => r.1.setLine e.slice key { l with held := true, hold := h }
      | none => r.1.dropLine e.slice key true
    let resized : State :=
      match k.l1pending with
      | none => s
      | some new =>
        let lo := sramLoc c (min (l1StartOf new) (l1StartOf k.l1cfg))
        let hi := sramLoc c (max (l1StartOf new) (l1StartOf k.l1cfg))
        let inside (a : Nat) : Bool := decide (lo ≤ a) && decide (a < hi)
        let wake (t : Thread) : Thread := if t.run = .blocked .interlock ∧ t.parked = true then t.wakeUp else t
        (({ s with mem := s.mem.filter (fun e => !inside e.1), poison := s.poison.filter (!inside ·) } : State).loseResvs
          lo hi).modCore c fun k => { k with
            l1cfg := new, l1pending := none, cx := { k.cx with threads := k.cx.threads.map fun e => (e.1, wake e.2) } }
    let served (r : WalkReq) : State :=
      let u := s.moveWalks r.slice
      if r ∉ (u.sliceAt r.slice).walking then u
      else ((u.walkEnded r).modSlice r.slice fun q => { q with walking := q.walking.erase r }).moveWalks r.slice
    let walked : State :=
      match s.walkOf c n with
      | some r => served r
      | none => match k.prefetches.find? (·.slot == n) with
        | some p => served (p.request c)
        | none => s
    let answered (a : FaultAnswer) : State :=
      match f with
      | .thread c n =>
        let t : Thread := FMap.get (s.tenantCtx c).threads n {}
        let u := s.modTenantCtx c fun x => { x with threads := FMap.put x.threads n { t with answer := a } }
        if t.run ≠ .suspended .fault ∨ t.answer ≠ .waiting then s
        else if isAway c = true ∨ (s.core c).saved.isSome = true then u
        else ((u.settleFault c n).stopPoint c n false).gustOver c
      | .channel c n =>
        let v := (s.tenantCtx c).mover n
        match v.st, v.run, a with
        | .halted, some _, .replay =>
          s.modTenantCtx c fun x => x.setMover n { x.mover n with st := .running, walk := none }
        | .halted, some m, .abort =>
          (s.moverRecord m { m.issuer with core := s.tileOf c } n 5).modTenantCtx c fun x => x.failMover n 5
        | _, _, _ => s
    let o := h.pa - barBase
    let accessed : State :=
      if h.portB = true then
        if s.link.pbEndpoint = true ∧ barBase ≤ h.pa ∧ inPeerWindow o (hostOpLen h.op) = true then s.barAccess o h.op else s
      else if s.boot.stage = 0 then s
      else if barBase ≤ h.pa then s.barAccess o h.op
      else s.memoryAccess h.pa h.op
    let computed : State :=
      match k.cx.mx.running with
      | none => s
      | some m =>
        let r := s.runMatrix c m
        let freed (y : Matrix) : Matrix := match m.buf with | some b => y.releaseBuf b | none => y
        let u := r.1.modCx c fun x => { x with mx := { freed x.mx with
          running := none, held := if m.rel = true then FMap.del (freed x.mx).held m.bank else (freed x.mx).held } }
        match r.2 with
        | some g => (u.modThread c m.slot fun t => { t with run := .ready }).takeTrap c m.slot causePoison
            (BitVec.ofNat 64 (0x10 * 2 ^ 56 + (g - sramLoc c 0)))
        | none => (u.modThread c m.slot fun t => t.retire (t.bank.pc + 4) false).retired c m.slot (u.thread c m.slot).words
    let mx := k.cx.mx
    let filled : State :=
      match mx.fills.find? (·.buf == j) with
      | none => s
      | some x => match x.src with
        | .sram off => (s.copySram (sramLoc c off) (sramLoc c (mx.bufBase j)) x.total).modCx c fun y =>
            { y with mx := y.mx.endFill x }
        | .bound slot reg => s.fillFrom c x slot reg 4097
    let moved : State := match s.chanWalk c n with
      | some r => (s.queueWalk r).endRequest r
      | none => s.moverStep c n
    let mov := k.cx.mover n
    let issuer (m : MoverCmd) : Issuer := { m.issuer with core := c }
    let copied : State := match s.snaps[j]? with
      | none => s
      | some x => ({ s with snaps := s.snaps.eraseIdx j } : State).snapRun x 6
    let q := s.sliceAt j
    let ctl := q.ldctl.toNat
    let asid := BitVec.ofNat 16 (bits ctl 32 16)
    let desc := s.read (sramLoc (288 + j) (bits ctl 0 17 + 32 * q.ldIdx)) 32
    let loaded : State :=
      if bit ctl 62 = false then s
      else if bits ctl 48 13 ≤ q.ldIdx then s.modSlice j fun q => { q with ldctl := BitVec.ofNat 64 (setBits ctl 62 1 0) }
      else match s.runPiece j asid desc q.ldOff with
        | .moved m u => if field desc 8 4 ≤ q.ldOff + m then u.nextDescriptor j false
            else u.modSlice j fun x => { x with ldOff := x.ldOff + m }
        | .skipped u => (u.record 0x11 2 asid.toNat j 0 2 [(20, 2, q.ldIdx)]).nextDescriptor j true
        | .waits => s
    Happens (.l1ResizeComplete c) s (c < 256) resized ∧ Happens (.pageWalkComplete c n) s slotOk walked ∧
    Happens (.translationReplay f) s target (answered .replay) ∧
    Happens (.translationAbort f) s target (answered .abort) ∧
    Happens (.storeBufferPerform c n) s slotOk (s.performStore c n) ∧
    Happens (.hostMemoryAccess h) s True accessed ∧
    Happens (.requestResponse c n) s slotOk (wakes (t.run == .blocked .memory && t.walk.isNone) ready) ∧
    Happens (.wrsTimeout c n) s slotOk (wakes (s.wrsOver c n) fun t => { t with run := .ready }) ∧
    Happens (.fgetParkRetry c n) s slotOk (wakes (s.retryDue c n) fun t => { t with parked := false, timer := none }) ∧
    Happens (.futureWake c n) s slotOk (wakes (s.wakeDue c n) ready) ∧
    Happens (.matrixCommandComplete c) s (c < 288) computed ∧
    Happens (.latchFillComplete c j) s (c < 288 ∧ j < 2) (if k.enginesRun = true then filled else s) ∧
    Happens (.handoffClaim c) s (c < 288) (if k.enginesRun = true then s.handoffStart c else s) ∧
    Happens (.handoffComplete c) s (c < 288) (if k.enginesRun = true then s.handoffEnd c else s) ∧
    Happens (.moverElement c n) s slotOk (if k.enginesRun = true then moved else s) ∧
    (slotOk → k.enginesRun = true → s.chanWalk c n = none → mov.st ≠ .running ∨ mov.run = none →
      exec (.moverElement c n) s = .next s) ∧
    (∀ m bs u, slotOk → k.enginesRun = true → s.chanWalk c n = none → mov.st = .running → mov.run = some m →
      k.cx.streamOf n = none → s.elemGet m (issuer m) m.idx = .inl bs →
      (s.touchSource m (issuer m) m.idx).elemPut m (issuer m) m.idx bs = .inl u →
        exec (.moverElement c n) s = .next ((u.elemDone c n (m.destBytes bs.length) m).moverNext c n)) ∧
    Happens (.mbsnapCopyComplete j) s True copied ∧
    (homed → line.isSome = true → exec (.lineMissEvent e) s = .next s) ∧
    (homed → line = none → s.sinkLine key = false → (s.raiseLine e.slice 0 e.asid e).2 = none → ∃ l : Line, l.filling = true ∧ l.owner = e.asid ∧
      exec (.lineMissEvent e) s = .next ((s.raiseLine e.slice 0 e.asid e).1.setLine e.slice key l)) ∧
    (homed → (s.sliceAt e.slice).freeWay key = none → exec (.lineFillEvent e) s = .next s) ∧
    (∀ l w, homed → line = some l → l.filling = true → (s.sliceAt e.slice).freeWay key = some w →
      ∃ way, exec (.lineFillEvent e) s = .next ((((s.setLine e.slice key
        { l with present := true, filling := false, byAgent := false, way := way }).setSilent e.slice key false).raiseLine
          e.slice 1 l.owner { e with way := way }).1)) ∧
    (∀ l, homed → line = some l → l.present = true → l.held = false → l.pins = 0 → s.sinkLine key = false →
      exec (.lineEvictionEvent e) s = .next (if lineSet key ∈ (s.sliceAt e.slice).silent
        then (s.dropLine e.slice key true).setSilent e.slice key false else evicted l)) ∧
    (¬homed → exec (.lineMissEvent e) s = .fault .malformedEvent ∧ exec (.lineFillEvent e) s = .fault .malformedEvent ∧
      exec (.lineEvictionEvent e) s = .fault .malformedEvent) ∧
    Happens (.agentBudgetExpiry c n) s (288 ≤ c ∧ c < 352 ∧ n < 4) ended ∧
    Happens (.loaderStart j) s (j < 64)
      (s.writeLdctl j (setBits (setBits (s.sliceAt j).ldctl.toNat 61 1 0) 63 1 1)) ∧
    Happens (.loaderDescriptorComplete j) s (j < 64) loaded

/-- What time brings: firings and starts of tick entries, budgets, Gust's start, expiry and relocation, heartbeats and the
hot spare, the time source, records of timed streams, decode ticks, timers, egress frames, dwell and interrupt windows, and
the shedding controller. The operations these steps go through (`tickFire`, `fire`, `startGust`, `releaseGust`, the moves of
a relocation, `setLevel`) are named and not characterised (R200, R201, R215, R218, R219, R222 to R230, R232, R234, R296,
R328, R335). The model's choices in it: a record of another source is discarded (log entry 40), the GUSTHOLD record names
HTILE (log entry 45), which tile a relocation takes (log entry 43), and the ticks of the thermal controller (log entry 87).
The time a frame takes on its MAC is the model's presumption (log entry 19), the time and count of a delivery its reading
(log entry 48). -/
def Obligations.TimedEvents : Prop :=
  (∀ (s : State) (c n j : Nat) (ns : Int) (r : Record) (p : MirrorPublish) (m : KeepMirror),
      let reflex := 256 ≤ c ∧ c < 288 ∧ n < 4
      let h := s.spare
      let ck := s.clock
      let missed := min (h.missed.toNat + 1) 255
      let waited : State := { s with spare := { h with missed := BitVec.ofNat 8 missed, windowAt := h.windowAt + 160000 } }
      let lapsed := h.role ≠ 0 ∧ h.windowAt + 160000 ≤ ck.cc
      let window : State :=
        if ¬lapsed then s
        else if missed < 3 then waited
        else if h.role = 2 then waited.takeOver 1
        else if h.selffence = true ∧ h.taken = false then { waited with
          spare := { waited.spare with taken := true }
          egress := s.egress.map fun e =>
            (e.1, { e.2 with frames := [], dropped := e.2.dropped + BitVec.ofNat 32 e.2.frames.length }) }
        else waited
      let taken (cause : Nat) : State :=
        if h.role = 2 ∧ h.taken = false then
          (({ s with spare := { h with taken := true, cause := BitVec.ofNat 2 cause } } : State).feRecord 0x15 0 0
            [(20, 1, cause)]).raiseMsi 1
        else s
      let stepped := ((ck.now : Int) + ns).toNat % 2 ^ 64
      let corrected : State :=
        if ck.src = 0 then s
        else if ns.natAbs ≤ 1000 then { s with clock := { ck with lock := true, slew := ns } }
        else { s with clock := { ck with lock := true, stepped := true, slew := 0, now := stepped } }
      let firing : State :=
        match (s.thread c n).shadow with
        | some m => if m.tick.isSome = true ∧ s.loadedDue c n = true then s.swapBank c n else s
        | none => s
      let mb := s.mbSlot p.slot
      let buf := mb.openBuf.getD mb.choose
      let head := mbStored p.ver.toNat p.ptime.toNat p.writer.toNat p.ufl.toNat p.slot p.len.toNat true
      let mirrored := ((s.store (mbLoc (mb.base buf) + 32) (p.data.take (mb.size - 32))).storeNat (mbLoc (mb.base buf)) 32 head).setMb
        p.slot ((mb.setBuf buf { st := .opened }).publish buf p.ver.toNat)
      let owed := FMap.get s.link.owed j 0
      let quiet : State := { s with link := { s.link with
        window := FMap.del s.link.window j, owed := FMap.del s.link.owed j } }
      let k := s.streamAt j
      let skip := k.skipped s.clock.now
      let tick := k.tick + skip
      let covered := k.tickTime tick ≤ (k.cover : Int)
      let after (l : List Int) : State := { s with streams := FMap.put s.streams j { k with tick := tick + 1, late := l } }
      let expired := (s.releaseGust j).gustAt j
      let acted := (s.thread c n).act.getD {}
      let overspent : State := ((s.budgetRecord c n 0x09).modThread c n fun t =>
        { t.rewind with act := some { acted with budgetTaken := true } }).takeTrap c n causeBudget (BitVec.ofNat 64 acted.cycles)
      let relocated (d : Nat) : State :=
        let f (t : Nat) : Nat := if t = c then d else t
        let u := s.finishSnaps [c]
        let k := u.core c
        let u := spillPages.foldl (fun u o => u.copyPage (sramLoc c o) (sramLoc d o)) u
        let u := u.modCore d fun q => { q with
          saved := k.saved, l1cfg := k.l1cfg, overMax := k.overMax, serial := if q.serial < k.serial then k.serial else q.serial,
          pending := k.pending ++ q.pending, overflow := k.overflow ++ q.overflow, hold := k.hold ++ q.hold,
          succQ := k.succQ.filter (!·.isGust) ++ q.succQ }
        let u := u.modCore c fun k => { k with
          saved := none, gustSaved := false, pending := [], overflow := [], hold := [], succQ := k.succQ.filter (·.isGust) }
        let u := ((u.moveGangs k.asid f).moveFlight f).moveClaims c d k.ctx
        let u := ((u.loadTile d).syncRing d).goOnAll d false
        (u.core d).cx.bounds.foldl (fun u b => u.linkEnds d b) u
      let sd := s.shed
      let hot := sd.tlim.toNat < j ∨ sd.env.toNat < n
      let cool := j + 5 < sd.tlim.toNat ∧ 100 * n < 95 * sd.env.toNat
      let below (b : Nat) : State := { s with shed := { sd with temp := BitVec.ofNat 8 (min j 255), below := b } }
      let thermal : State :=
        if hot then (if sd.level < 5 then (below 0).setLevel (sd.level + 1) j n else below 0)
        else if ¬cool then below 0
        else if sd.below + 1 < 10 then below (sd.below + 1)
        else if 0 < sd.level then (below 0).setLevel (sd.level - 1) j n
        else below 0
      Happens (.tickDelivery j) s (j < 64) (if s.tickDue j = true then s.tickFire j else s) ∧
      Happens (.tickStart c n) s reflex firing ∧
      Happens (.budgetExpiry c n) s reflex (if s.budgetDue c n = true then overspent else s) ∧
      Happens (.budgetKill c n) s reflex (if s.killDue c n = true then
        ((((s.budgetRecord c n 0x0A).mirrorKeep c n).endThread c n .killed).swapBank c n).gustOver c else s) ∧
      Happens (.gustCodeStart c) s (c < 256) (match s.gustDue c with
        | some p => s.startGust c p ((s.gustAt p).tiles.idxOf c)
        | none => s) ∧
      Happens (.gustHoldExpiry j) s (j < 16) (if s.holdOver j = true then
        ((s.releaseGust j).setGust j { expired with expired := true }).record 0x0B 2
          (FMap.get (s.releaseGust j).parts 0 {}).asid.toNat (bits expired.reg.toNat 110 5) 0 1 [(20, 1, j)] else s) ∧
      Happens (.gustRelocation c) s (c < 256) (match s.relocTarget c with | some d => relocated d | none => s) ∧
      Happens .heartbeatSend s True (if h.role = 0 then s else { s with spare := { h with heartbeats := h.heartbeats + 1 } }) ∧
      Happens .heartbeatReceive s True { s with spare := { h with windowAt := ck.cc, missed := 0 } } ∧
      Happens .heartbeatWindowExpiry s True window ∧ Happens .fatalErrorMessage s True (taken 2) ∧
      Happens .hsctlTake s True (if s.feature 2 = true then taken 3 else s) ∧
      Happens (.mirrorPublishReceive p) s (p.slot < 4096)
        (if h.role ≠ 2 ∨ h.taken = true ∨ mb.valid = false then s else mirrored) ∧
      Happens (.keepRegionMirrorReceive m) s (m.tile < 32) (if h.role = 2 then
        ({ s with spare := { h with keepIn := h.keepIn ++ [m] } } : State).flushKeeps else s) ∧
      Happens (.timeSourceCorrection ns) s True corrected ∧
      Happens .sourceLockLoss s True { s with clock := { ck with lock := false } } ∧
      Happens (.streamRecordArrival j r) s (j < 2) (if r.stream < 128 ∧ (s.streamAt r.stream).src = j + 1 then
        s.takeRecord r.stream r else s) ∧
      Happens (.ingestRecordCommit j) s (j < 128) (s.commitIngest j) ∧
      Happens (.decodeTick j) s (j < 128) (if s.decodeDue j = false then s
        else if covered then (after k.late).decodeFire j tick false skip else (after (k.late ++ [tick])).missTicks j skip) ∧
      Happens (.decodeTickLate j) s (j < 128) (match s.lateDue j with
        | some n => ({ s with streams := FMap.put s.streams j { k with late := k.late.filter fun m => decide (n < m) } } : State).decodeFire
            j n true (k.late.filter fun m => decide (m < n)).length
        | none => s) ∧
      Happens (.logDwellExpiry c n) s (c < 360 ∧ n < 4) (if s.logDue c n = true then s.logState c else s) ∧
      Happens (.msixWindowExpiry j) s (j < 32)
        (if s.msixDue j = false then s else if owed = 0 then quiet else quiet.raiseMsi j) ∧
      Happens (.thermalControlTick j n) s True thermal) ∧
  ∀ (s : State) (c j q : Nat) (t : Timer) (f : Frame) (rest : List Frame),
    let due := (s.core c).timerLine
    let k := s.egressAt q
    let mac := if k.mac = true then 1 else 0
    let freed (j : Nat) (x : TileCtx) : TileCtx := { x with timers := x.timers.take j ++ x.timers.drop (j + 1) }
    let late := if f.launch + 8 < s.clock.now then k.late + 1 else k.late
    let gone : Egress := { k with frames := rest, sent := k.sent + 1, late := late }
    (c < 360 → due[j]? = some t → t.at_ ≤ s.clock.now → j < (s.core c).ctx.timers.length →
      exec (.tuntilTimerExpiry c j) s =
        .next ((s.setCore c ((s.core c).modCtx (freed j))).addOwnCounter c t.slot t.ctr false 1)) ∧
    (c < 360 → due[j]? = some t → t.at_ ≤ s.clock.now → (s.core c).ctx.timers.length ≤ j →
      exec (.tuntilTimerExpiry c j) s = .next ((s.setCore c { s.core c with
        cx := freed (j - (s.core c).ctx.timers.length) (s.core c).cx }).addOwnCounter c t.slot t.ctr true 1)) ∧
    (c < 360 → due[j]? = some t → s.clock.now < t.at_ → exec (.tuntilTimerExpiry c j) s = .next s) ∧
    (c < 360 → due[j]? = none → exec (.tuntilTimerExpiry c j) s = .next s) ∧
    (360 ≤ c → exec (.tuntilTimerExpiry c j) s = .fault .malformedEvent) ∧
    (q < 16 → k.frames = f :: rest → s.egressDue q = true → exec (.egressLaunch q) s =
      .next { s with
        egress := FMap.put s.egress q gone, macFree := FMap.put s.macFree mac (s.clock.now + f.wireTime) }) ∧
    (q < 16 → s.egressDue q = false ∨ k.frames = [] → exec (.egressLaunch q) s = .next s) ∧
    (16 ≤ q → exec (.egressLaunch q) s = .fault .malformedEvent)

/-- What firmware and the partition unit do: the services, the step scheduler, the sampling queue's posts, packets,
doorbells, partition commands and errors of storage; a service serves the request that waits, or refuses it with a record. A
halt asks the partition's tiles to stop, a save and a restore move their contexts, a resume lets them go on, and a refused
command leaves a record and sets ERR; what each service does, a spill and a fill are named and not characterised (R237, R241,
R250, R275, R281, R289 to R293, R304 to R309, R312 to R314). That a load names its code object, and the handle that no live
one may equal, are the model's (log entry 53). The place of the arguments in a request and the naming of storage by error
events are the model's (log entries 17, 50). -/
def Obligations.ServiceAndPartitionEvents : Prop :=
  ∀ (s : State) (c n j : Nat) (r : ServiceReq) (o : CodeObject) (v : BitVec 512) (w : BitVec 64) (u : ErrUnit),
    let served (num : Nat) (sup : Bool) (body : State → State) : State :=
      if r.number ≠ num then s
      else
        match s.takeService r with
        | none => s
        | some t => if sup = true ∧ r.supervisor = false ∧ r.driver = false then t.refuse r 2 else body t
    let sup : List Nat := [0x02, 0x10, 0x33, 0x34]
    let known : List Nat := [0x20, 0x30, 0x31, 0x32] ++ sup
    let barred := r.number ∈ sup ∧ r.supervisor = false ∧ r.driver = false
    let posted (m : Message) : State :=
      ({ s with queuePort := s.queuePort ++ [m],
                flight := { s.flight with messages := s.flight.messages.take j ++ s.flight.messages.drop (j + 1) } } : State).admitPosts
    let rolled := s.rollBackQueue j
    let part := s.partAt j
    let cores := s.partCores j
    let busy (next : PartState) (r : State) : State := r.modPart j fun p => { p with st := .busy, next := some next }
    let halted : State := (cores.foldl (fun s c => (s.modCore c fun k => { k with halting := true }).askStop c) s).modPart j
      fun p => { p with st := .halting }
    let saved : State := busy .saved (cores.foldl (fun s c =>
      if (s.core c).gustOn = true then s.modCore c fun k => { k with gustSaved := false } else s.saveTile c) s)
    let loaded : State := cores.foldl (fun s c =>
      if (s.core c).gustOn = true then s.modCore c fun k => { k with gustSaved := true } else s.loadTile c) s
    let restored : State := busy .halted
      (if (cores.any fun c => (s.tilePoison c).isSome) = true then loaded.poisonedTile j else loaded)
    let resumed : State := busy .running
      (cores.foldl (fun s c => (s.modCore c fun k => { k with halting := false }).goOnAll c true) s)
    let refused (cmd : Nat) : State :=
      (s.feRecord 0x1A 2 part.asid.toNat [(20, 1, j), (21, 1, cmd), (22, 1, part.st.code)]).partErr j
    let ended : State :=
      let u := s.modPart j fun p => { p with st := if part.st = .halting then .halted else part.next.getD part.st, next := none }
      if part.cen = true then u.addFrontEnd part.ctile.toNat part.ccnt.toNat else u
    let eq := s.errq
    let unit := 1024 * unitKindCode u.kind + u.index
    let counted : State := { s with errq := { eq with
      cecnt := if eq.cecnt = BitVec.allOnes 32 then eq.cecnt else eq.cecnt + 1 } }
    let noted := counted.errorRecord 0x16 1 u [(24, 8, j % 2 ^ 56)]
    let corrected : State :=
      if (FMap.find eq.ceSeen unit).any (fun t => decide (s.clock.now < t + 1000000)) = true then counted
      else { noted with errq := { noted.errq with ceSeen := FMap.put noted.errq.ceSeen unit noted.clock.now } }
    let qu := s.queueAt j
    let seq := bits w.toNat 32 32
    let idx := bits w.toNat 0 32
    let widx := if 0 < signed (idx + 2 ^ 32 - qu.widx.toNat) 32 then BitVec.ofNat 32 idx else qu.widx
    let rung : State := s.modQueue j fun k => { k with lastseq := BitVec.ofNat 32 seq, widx := widx }
    let rings : State :=
      if qu.st ≠ .active then s
      else if signed (seq + 2 ^ 32 - qu.lastseq.toNat) 32 ≤ 0 then
        s.modQueue j fun k => { k with stale := BitVec.ofNat 16 (min (k.stale.toNat + 1) 0xFFFF) }
      else if 2 ^ qu.log2n < (widx - qu.ridx).toNat then rung.faultAny j 3 else rung
    let storage := match errLoc u j with | some loc => s.poisonAt loc | none => s
    let recorded := storage.errorRecord 0x17 2 u [(24, 8, j % 2 ^ 56)]
    Happens (.serviceInstallContext r) s True (served 0x02 true (·.installContext r)) ∧
    Happens (.serviceShootdown r) s True (served 0x10 true (·.shootDown r)) ∧
    Happens (.serviceStepScheduler r) s True (served 0x20 false (·.stepService r)) ∧
    Happens (.serviceCreateQueue r) s True (served 0x30 false (·.createQueue r)) ∧
    Happens (.serviceDestroyQueue r) s True (served 0x31 false (·.destroyQueue r)) ∧
    Happens (.serviceLoadCodeObject r o) s (o.core < 360)
      (if (FMap.find s.programs o.handle.toNat).isSome = true then s else served 0x32 false (·.loadCode r o)) ∧
    Happens (.serviceMigratePage r) s True (served 0x33 true (·.migratePage r)) ∧
    Happens (.serviceSetFrameOwner r) s True (served 0x34 true (·.setFrameOwner r)) ∧
    (r.number ∈ known → ¬barred → exec (.serviceUnknown r) s = .next s) ∧
    (∀ t, s.takeService r = some t → r.number ∉ known → exec (.serviceUnknown r) s = .next (t.refuse r 1)) ∧
    (∀ t, s.takeService r = some t → barred → exec (.serviceUnknown r) s = .next (t.refuse r 2)) ∧
    Happens .stepBoundary s True s.stepBoundary ∧
    (∀ dst m, s.flight.messages[j]? = some (dst, m) → dst = queueDest →
      exec (.samplingQueuePost j) s = .next (if s.overtakes j (dst, m) = true then s else posted m)) ∧
    (s.flight.messages[j]? = none → exec (.samplingQueuePost j) s = .next s) ∧
    Happens (.queuePacketStart c n) s (352 ≤ c ∧ c < 360 ∧ n < 4) (s.startPacket c n) ∧
    Happens (.doorbellWrite j w) s (j < 1024) rings ∧
    Happens .reconcilePass s True ((s.queues.map (·.1)).foldl State.reconcile s) ∧
    Happens .shootdownComplete s True (match s.shootdowns with
      | d :: rest => ({ s with shootdowns := rest } : State).addFrontEnd d.tile d.ctr
      | [] => s) ∧
    Happens (.queueDestroyComplete j) s (j < 1024) (if s.destroyDue j = false then s else
      (rolled.queueAt j).destroy.foldl (fun s e => s.addFrontEnd e.1 e.2)
        (rolled.modQueue j fun k => { k with st := .free, destroy := [], destroyAbort := false })) ∧
    Happens (.partitionEntryWrite j v) s (j < 16) (s.writePart j v.toNat) ∧
    Happens (.partitionHalt j) s (j < 16) (if part.st = .running then halted else refused 1) ∧
    Happens (.partitionSave j) s (j < 16) (if part.st = .halted then saved else refused 2) ∧
    Happens (.partitionRestore j) s (j < 16) (if part.st = .saved then restored else refused 3) ∧
    Happens (.partitionResume j) s (j < 16) (if part.st = .halted then resumed else refused 4) ∧
    Happens (.partitionSpill j) s (j < 16)
      (if part.st = .saved ∧ j ≠ 0 then s.spillPart j else refused 5) ∧
    Happens (.partitionFill j) s (j < 16)
      (if part.st = .spilled ∧ j ≠ 0 ∧ s.fillRefused j = false then s.fillPart j else refused 6) ∧
    Happens (.partitionCommandComplete j) s (j < 16) (if s.partDue j = true then ended else s) ∧
    Happens (.correctableError u j) s (errUnitOk u = true) corrected ∧
    Happens (.fatalError u j) s (errUnitOk u = true) (s.fatalError u j) ∧
    Happens (.uncorrectableError u j) s (errUnitOk u = true)
      (if u.kind = .frontEnd ∨ u.kind = .timeUnit then recorded.fatalError u j else recorded)

/-- Writes of the device's own registers, the debugger's commands, start-up and attestation complete where the unit they name
exists (R194, R199, R202, R212, R225, R226, R245, R264, R295, R317, R319 to R330, R333, R336 to R340). The fields that a
write of the error queue, of a tick entry, mailbox slot, profile, stream, template or event-table row, of the time unit, of
Squall, of shedding and of the accepted features changes are spelled out, and so are the steps of start-up, the codes with
which R338 names a failed check, and a report; `writeDbgctl` is named and not characterised. The model's choices in it: the
nonce and the output address are read at completion (log entry 21), what an agent row is measured as (22), GO clears FAIL
(23), a change of SRC clears LOCK (24), a reserved SRC alone is ignored (25). The features a write accepts, the keys, the
report's layout and signature, the BAR numbers, what PERST# keeps, the place an image is copied to and the layout that an
image event names are the model's (log entries 5, 6, 14, 18, 52, 80). -/
def Obligations.RegisterAndBootEvents : Prop :=
  ∀ (s : State) (c n j : Nat) (v32 : BitVec 32) (v64 : BitVec 64) (v128 : BitVec 128) (v256 : BitVec 256) (v512 : BitVec 512)
      (v2048 : BitVec 2048) (i : BootImage),
    let core := c < 360
    let b := s.boot
    let q := s.errq
    let ck := s.clock
    let thresh := v32.toNat % 2 ^ 20
    let env := v32.toNat / 2 ^ 8 % 2 ^ 8
    let src := v32.toNat % 8
    let size := bits v256.toNat 56 5
    let moved : ErrQueue := { q with ridx := BitVec.ofNat 32 (bits v256.toNat 128 32) }
    let placed : ErrQueue := if q.en = true then moved
      else { moved with
        base := BitVec.ofNat 64 (bits v256.toNat 192 64), host := v256.getLsbD 62,
        log2n := if 6 ≤ size ∧ size ≤ 16 then BitVec.ofNat 5 size else q.log2n }
    let fits := 6 ≤ placed.log2n.toNat ∧ placed.log2n.toNat ≤ 16 ∧ placed.base.toNat % (64 * 2 ^ placed.log2n.toNat) = 0 ∧
      (placed.host = true ∨ isBacked placed.base.toNat = true)
    let enabled := v256.getLsbD 63 = true ∧ (q.en = true ∨ fits)
    let cleared : Clock := { ck with stepped := ck.stepped && !v32.getLsbD 30 }
    let squall (q : Squall) : Squall :=
      { q with en := v32.getLsbD 31, thresh := if 10 ≤ thresh ∧ thresh ≤ 1000000 then BitVec.ofNat 20 thresh else q.thresh }
    let shed (k : Shed) : Shed :=
      { k with tlim := v32.extractLsb' 16 8, env := if 60 ≤ env ∧ env ≤ 200 then BitVec.ofNat 8 env else k.env }
    let outside (a : Nat) : Bool := decide (2 ^ 65 ≤ a) && decide (a < 2 ^ 67)
    let part (u : State) (off len : Nat) : List Byte := u.read (sramLoc 352 off) len
    let manifest (u : State) : List Byte := part u i.manifest i.manifestLen
    let key (u : State) : List Byte := part u i.key i.keyLen
    let inside (off len n : Nat) : Prop := off + len ≤ n
    let held (u : State) (off len : Nat) : List Byte := ((manifest u).drop off).take len
    let failed (u : State) (code : Nat) : State := { u with boot := { u.boot with stage := 15, fail := code } }
    let fault (u : State) : Nat :=
      if ¬inside i.key i.keyLen i.len ∨ sha256 (key u) ≠ Config.vendorKeyHash then 2
      else if ¬inside i.manifest i.manifestLen i.len ∨ ¬inside i.signature 7856 i.len ∨
        Config.slhVerify (key u) (manifest u) (part u i.signature 7856) = false then 3
      else if ∃ p ∈ i.parts, ¬inside p.off p.len i.len ∨ ¬inside p.hash 32 i.manifestLen ∨
        sha256 (part u p.off p.len) ≠ held u p.hash 32 then 4
      else if ¬inside i.version 4 i.manifestLen ∨ leNat (held u i.version 4) < Config.rollbackCounter.toNat then 5
      else 0
    let verified (u : State) : State :=
      if fault u ≠ 0 then failed u (fault u)
      else ({ u with boot := { u.boot with stage := 3 } } : State).measure (sha256 (manifest u)) 0 0 0
    let verify (t : State) : Prop := exec (.bootVerifyComplete i) s = .next t
    let bs := leBytes n j
    let fresh (l : List (Nat × FetchedWord)) : List (Nat × FetchedWord) := l.map fun e => (e.1, s.reloadBit c e.2)
    let tick := FMap.get s.ticks j {}
    let tv := v256.toNat
    let period := bits tv 160 32
    let run := v256.getLsbD 0 = true
    let ticked : Tick := { tick with
      reg := BitVec.ofNat 256 (masked tv tickMask + if run then 0 else masked tick.reg.toNat (fieldMask 32 64)) }
    let tickWritten : State :=
      if run ∧ (tick.reg.getLsbD 0 = true ∨ period < 1000 ∨ 4000000000 < period) then s
      else { s with ticks := FMap.put s.ticks j (if run then
        { ticked with seq := 0, replaced := 0, next := firstAt s.clock.now (bits tv 192 64) period } else ticked) }
    let on := v128.getLsbD 127 = true
    let mbNew : MbSlot := { reg := BitVec.ofNat 128 (masked v128.toNat (fieldMask 111 17 + fieldMask 71 25 + fieldMask 0 25)) }
    let mbWritten : State :=
      if ¬on then { s.detachSnaps j with mbs := FMap.put (s.detachSnaps j).mbs j mbNew }
      else if (s.mbSlot j).valid = true ∨ mbNew.size = 0 ∨ 0x2000000 < mbNew.extent.2 ∨ s.mbOverlaps j mbNew = true then s
      else { s with mbs := FMap.put s.mbs j mbNew }
    let prof := s.gustAt j
    let count := bits v128.toNat 119 7
    let profNew (tiles : List Nat) : State := { s with gusts := FMap.put s.gusts j { prof with
      reg := BitVec.ofNat 128 (masked v128.toNat (fieldMask 119 9 + fieldMask 64 51 + fieldMask 0 18)), tiles := tiles } }
    let profWritten : State :=
      if prof.held = true ∨ (prof.valid = true ∧ on) then s
      else if ¬on then profNew []
      else if (s.freePool j).length < count then s
      else profNew ((s.freePool j).take count)
    let str := s.streamAt j
    let sv := v512.toNat
    let strNew : Stream := { str with reg := BitVec.ofNat 512 (masked sv streamMask + masked str.reg.toNat (fieldMask 256 256)) }
    let strTicked : Stream := { strNew with tick := firstTick s.clock.now (bits sv 192 64) (bits sv 160 32) }
    let strBad := v512.getLsbD 127 = true ∧ (bits sv 118 5 < 12 ∨ 24 < bits sv 118 5 ∨ strNew.base % strNew.size ≠ 0 ∨
      isBacked strNew.base = false ∨ (v512.getLsbD 126 = true ∧ bits sv 116 2 = 0))
    let strWritten : State :=
      if str.valid = true then
        if v512.getLsbD 126 = true then s
        else { s with streams := FMap.put s.streams j { str with reg := BitVec.ofNat 512 (setBits str.reg.toNat 126 1 0) } }
      else if strBad then s
      else { s with streams := FMap.put s.streams j strTicked }
    let oldTmpl := (FMap.get s.gen.templates j 0).toNat
    let tmpl := masked v2048.toNat templateMask
    let tmplWritten : State :=
      if bit tmpl 1055 = true ∧ (bit oldTmpl 1055 = true ∨ templateOk tmpl = false) then s
      else { s with gen := { s.gen with
        templates := FMap.put s.gen.templates j (BitVec.ofNat 2048 tmpl)
        banditN := s.gen.banditN.filter fun e => e.1 % 16 != j
        banditS := s.gen.banditS.filter fun e => e.1 % 16 != j } }
    let oldRow := (s.row j n).toNat
    let row := masked v128.toNat (fieldMask 127 1 + fieldMask 121 5 + fieldMask 88 24 + fieldMask 48 32 + fieldMask 0 17)
    let rowWritten : State :=
      if s.feature 6 = false then s
      else if bit row 127 = false then
        s.setRow j n (BitVec.ofNat 128 (row + masked oldRow (fieldMask 40 8 + fieldMask 80 8)))
      else if bit oldRow 127 = true ∨ rowOk (s.sliceAt j).rows n row = false then s
      else (s.setRow j n (BitVec.ofNat 128 (row + masked oldRow (fieldMask 40 8)))).measure (sha256 (leBytes 16 row)) 2
        (bits row 96 16) n
    let report := s.reportBody ++ Config.signature s.reportBody
    Happens (.errqWrite v256) s True { s with errq := { placed with en := decide enabled } } ∧
    Happens (.dbgHaltreq c) s core (s.dbgCommand c 31) ∧ Happens (.dbgResume c) s core (s.dbgCommand c 30) ∧
    Happens (.dbgStep c) s core (s.dbgCommand c 29) ∧ Happens (.dbgBksync c) s core (s.dbgCommand c 24) ∧
    (core → (s.core c).gust = none → n < 4 → (s.thread c n).run = .idle →
      ((s.dbgCommand c 31).thread c n).run = .stopped) ∧
    (core → ((s.dbgCommand c 24).core c).dbg.bkbusy = true) ∧
    Happens (.bksyncComplete c) s core (if (s.core c).dbg.bkbusy = false then s
      else s.modCore c fun k => { k with
        dbg := { k.dbg with bkbusy := false }, icache := fresh k.icache,
        cx := { k.cx with threads := k.cx.threads.map fun e => (e.1, { e.2 with fetched := fresh e.2.fetched }) } }) ∧
    Happens (.dbgdatAccess c (some v64)) s core (if s.dbgRefuses c = true then s.dbgErr c else s.dbgPut c v64.toNat) ∧
    Happens (.dbgdatAccess c none) s core (if s.dbgRefuses c = true then s.dbgErr c else s) ∧
    Happens (.logctlWrite c v64) s core (s.writeLogctl c v64.toNat) ∧
    Happens (.pmselWrite c v64) s core (s.modCore c fun k => { k with pmsel := pmselValue v64.toNat }) ∧
    Happens (.tickEntryWrite j v256) s (j < 64) tickWritten ∧
    Happens (.mailboxSlotWrite j v128) s (j < 4096) mbWritten ∧
    Happens (.gustPoolWrite v256) s True
      (if (∃ e ∈ s.gusts, e.2.valid = true) ∨ 64 < (tileList v256).length then s else { s with gustPool := v256 }) ∧
    Happens (.gustProfileWrite j v128) s (j < 16) profWritten ∧
    Happens (.tmctlWrite v32) s True { s with
      clock := if 4 < src ∨ src = ck.src then cleared else { cleared with src := src, lock := false, slew := 0 } } ∧
    Happens (.timedStreamWrite j v512) s (j < 128) strWritten ∧
    Happens (.treeTemplateWrite j v2048) s (j < 16) tmplWritten ∧
    Happens (.eventTableRowWrite j n v128) s (j < 64 ∧ n < 16) rowWritten ∧
    Happens (.sqcfgWrite v32) s True { s with squall := squall s.squall } ∧
    Happens (.shedctlWrite v32) s True { s with shed := shed s.shed } ∧
    Happens (.feataccWrite v256) s True (if b.installed = true then s
      else { s with boot := { b with featacc := (v256 &&& 0x3FF) ||| 1 } }) ∧
    Happens .perstRelease s True (if b.stage = 0
      then { s with boot := { b with stage := 1 }, link := { s.link with pbEndpoint := Config.pbmode } } else s) ∧
    Happens .perstAssert s True { State.reset with
      agenda := s.agenda, mem := s.mem.filter fun e => outside e.1, poison := s.poison.filter outside } ∧
    Happens .bootGo s True (if b.stage = 1 ∨ b.stage = 15 then { s with boot := { b with stage := 2, fail := 0 } } else s) ∧
    (b.stage ≠ 2 → verify s) ∧ (b.stage = 2 → s.bootCopy i.len = none → verify (failed s 1)) ∧
    (∀ u, b.stage = 2 → s.bootCopy i.len = some u → verify (verified u)) ∧
    Happens .attestRequest s True (if b.busy = true ∨ b.stage ≠ 3 then s
      else { s with boot := { b with busy := true, attFail := false } }) ∧
    Happens .attestComplete s True (if b.busy = false then s
      else
        let t := s.store (hostLoc b.out.toNat) (report.take 4096)
        { t with boot := { t.boot with busy := false, attFail := false } }) ∧
    Happens (.registerWrite c n j) s (n ≤ 4096) (if b.stage = 0 then s
      else match barPlace c with
        | .reg sp o => if sp.touched o n = [] then s.countHostbad
            else s.regStore sp o ((List.range n).map fun i => (o + i, bs.getD i 0))
        | .ingest m o => s.ingestWrite m o bs
        | .none => s)

/-! The machine as a whole: decoding, the checks before an instruction, retirement, traps, reset, and what stays. -/

/-- Words that the specification's reference entries write out, one or more of every family, decode to the instructions they
stand for, and these instructions encode to the words. -/
def Obligations.DecodedWords : Prop :=
  ∀ e ∈ ([
    (0x04A63800, .add 5 6 7), (0x04A6001B, .sextB 5 6), (0x04A63820, .bfx 5 6 7), (0x08A6FFFF, .addi 5 6 0xFFFF),
    (0x22A01000, .lui 21 0x1000), (0x24A60043, .srai 5 6 3), (0x2C642800, .addp 3 4 5), (0x40A60002, .beq 5 6 2),
    (0x5A20FFFF, .bknone 1 0xFFFF), (0x61FFFFFF, .j 0x1FFFFFF), (0x64830402, .jalrFar 4 3 2), (0x6A60FFFB, .dbnz 19 0xFFFB),
    (0x88A67FFF, .lh 5 3 0x7FFF), (0xA4A60001, .sd 5 3 1), (0xB4A33008, .amoaddW 5 3 6 2 0 0),
    (0xB4A331AE, .casD 5 3 6 3 1 0), (0xB4A330C8, .scW 5 3 6 2 0 0), (0xB4020A08, .fence 2 1 2), (0xB4A32600, .fput 5 3 4),
    (0xC0642830, .vadd 3 4 5 0 1 1), (0xC4642867, .vfma 3 4 5 0 3), (0xC8242852, .vcmpLt 1 4 5 0 2 1),
    (0xCC434804, .vcvt 2 3 9 0 4), (0xD0480080, .vredsum 2 8 0 4 0), (0xE0053001, .mma 5 6), (0xE0A60101, .mvgo 5 6),
    (0xE3053106, .cbind 24 5 6), (0xE0A63A01, .cwait 5 6 7), (0xE0A63B02, .send 5 6 7), (0xE0A63C02, .mbpub 5 6 7),
    (0xE0A33502, .tuntil 5 3 6), (0xE0A60601, .gust 5 6), (0xE0A33704, .ldrop 5 3 6), (0xE0A30710, .glaunch 5 3),
    (0xE4033005, .tinv 3 6), (0xE4060202, .csrw 6 2), (0xE4600609, .erd 3 9), (0xE4000F23, .safe 1 0x23),
    (0xFC000001, .pfxExt 1), (0xFD000040, .pfxOpt 0x40)] : List (Word × Instr)),
    decode e.1 = some e.2 ∧ encode e.2 = e.1

/-- Decoding undoes encoding, for every instruction with every operand at every value, in the four bytes of its word as memory
holds them; and a word that decodes is the word of the instruction it decodes to, so no bit of a word is without meaning. -/
def Obligations.DecodeAndEncodeAgree : Prop :=
  (∀ i : Instr, groupOf i ≠ .event →
    decode (encode i) = some i ∧ decodeBytes (wordBytes (encode i)) = some (i, []) ∧
      decodeTableWord 32 (encode i).toNat = some i) ∧
  ∀ (w : Word) (i : Instr), decode w = some i → encode i = w ∧ groupOf i ≠ .event

/-- When a slot has its turn and nothing stands before its fetch, the step is the instruction that the bytes at its pc decode
to, on the state after the fetch: a word that the slot fetched before is seen again until its own `fencei`, and else one that
the instruction cache holds; bytes that decode to none trap as an illegal word; a break bit that came with the word stops the
slot. A READY slot issues and is the last of its core's rotation; a slot that waits tries its instruction again, stays as it is
while its condition does not hold, and issues, or becomes READY where another slot has the issue slot, when it does. An event of
the schedule is that event; and when the schedule is empty and nothing else is due, the next thread in turn runs (R54, R55,
R125, R300, R321). The order of turns and what the instruction cache holds are the model's choices (log entries 2 and 67). -/
def Obligations.StepRunsTheDecodedInstruction : Prop :=
  ∀ (s u v : State) (c n loc : Nat) (rest : List Turn) (i : Instr),
    let begun := ({ s with agenda := rest } : State).advance
    let turn (r : State) : State := ({ r with cur := c, slot := n } : State).modCore c fun k => { k with lastTry := n }
    let pc := (v.thread c n).bank.pc
    let seen := if coreType c = .reasoning then v.touchTlb c ((v.thread c n).act.getD {}).asid 0 pc.toNat .fetch else v
    let w := wordOfBytes (seen.read loc 4)
    let fresh : FetchedWord := { word := w, pc := pc.toNat, brk := seen.bitmapBit c pc.toNat }
    let own := FMap.find (seen.thread c n).fetched loc
    let held := (seen.core c).icache.find? (·.1 == loc)
    let mine (x : FetchedWord) (r : State) : State := r.modThread c n fun t => { t with fetched := FMap.put t.fetched loc x }
    let kept := mine fresh ((seen.bitmapRecord c pc.toNat).modCore c fun k =>
      { k with icache := (loc, fresh) :: k.icache.take (cacheWords - 1) })
    let last (r : State) : State := r.modCore c fun k => { k with lastSlot := n }
    let tried (r t : State) : State :=
      match (t.thread c n).run with
      | .blocked _ => t
      | .suspended _ => t
      | _ => if (r.core c).hasIssue n = true then last t else r.modThread c n fun h => { h with run := .ready }
    let runs (x : FetchedWord) (r : State) (i : Instr) : Prop :=
      (r.breakAt c n x = true → step s = .next (r.debugStop c n 2)) ∧
      (r.breakAt c n x = false → (r.thread c n).run = .ready → step s = exec i (last r)) ∧
      (r.breakAt c n x = false → (r.thread c n).run ≠ .ready → ∀ t, exec i r = .next t → step s = .next (tried r t))
    (c < 360 → n < 4 → (begun.core c).canTurn n = true →
      (turn begun).before c n = .go u → u.fetchHeader c n = .inl v → v.fetchLoc c n pc 4 = .inl loc →
      (s.agenda = .thread c n :: rest →
        (own = none → held = none → decode w = some i → runs fresh kept i) ∧
        (own = none → held = none → decode w = none → runs fresh kept (.illegalEncoding w)) ∧
        (∀ e, own = none → held = some e → decode e.2.word = some i → runs e.2 (mine e.2 seen) i) ∧
        ∀ x, own = some x → decode x.word = some i → runs x seen i) ∧
      (s.agenda = [] → rest = [] → s.advance.periodic = none → s.advance.duty = none → s.advance.nextTurn = some (.thread c n) →
        own = none → held = none → decode w = some i → runs fresh kept i)) ∧
    (s.agenda = .event i :: rest → groupOf i = .event → step s = exec i begun)

/-- The checks before every instruction, in the order of R299: ILLEGAL, then PRIV, then the limits of the live map; each traps
with the value R298 gives it, before the instruction has any effect. A word that names a CSR or an engine register that it may
not goes on to its own ILLEGAL or PRIV, which stand above those limits. -/
def Obligations.InstructionChecks : Prop :=
  ∀ (s : State) (i : Instr), groupOf i ≠ .event →
    let word : Dword := (encode i).setWidth 64
    let bad := s.illegal i = true
    let priv := availability (groupOf i) (coreType s.cur) = .sup ∧ s.sup = false
    let far := s.th.csr.gelig = true ∧ 512 ≤ s.th.ic ∧ isPfxOrSafe i = false
    let first := isPfx i = true ∨ s.namesRefused i = true
    (bad → isPfx i = false → Traps i s causeIllegal word s) ∧
    (bad → isPfx i = true → exec i s = .next (s.pfxTrap word)) ∧
    (¬bad → priv → Traps i s causePriv word s) ∧
    (¬bad → ¬priv → ¬first → far → Traps i s causeSafe 2 s) ∧
    (¬bad → ¬priv → ¬first → ¬far → needsSafe i = true → s.th.sp = false → Traps i s causeSafe 1 s) ∧
    (¬bad → ¬priv → first ∨ (¬far ∧ (needsSafe i = false ∨ s.th.sp = true)) → Admitted i s)

/-- Every instruction answers a next state, in every state: a check that fails traps, and a wait blocks its slot. An event
answers one where the units it names exist, and no other event exists. -/
def Obligations.EveryInstructionAnswers : Prop :=
  ∀ (s : State) (i : Instr),
    (groupOf i ≠ .event ∨ wellFormed i = true → ∃ t, exec i s = .next t) ∧
    (groupOf i = .event → wellFormed i = false → exec i s = .fault .malformedEvent)

/-- How an instruction leaves: a retired one has spent its prefix and goes on behind its word or at its target, with no
register but pc changed; a return resumes at the saved pc; a prefix waits for the word behind it; a blocked one stays where it
is. Each holds where no debug stop is pending, and for a wait where nothing asks the slot to stop. -/
def Obligations.RetirementEffects : Prop :=
  ∀ (s t : State) (pc : Dword) (w : Word) (why : Wait), t.cur = s.cur → t.slot = s.slot → t.th.stopWhy = 0 →
    let after (r : Res) : Thread := (s.finish r).thread s.cur s.slot
    let kept (r : Res) : Prop := RegsKept t.th (after r) ∧ OthersKept t (s.finish r) ∧ StorageKept t (s.finish r)
    let left (r : Res) (pc : Dword) (x : Option Word) (sp : Bool) : Prop :=
      (after r).bank.pc = pc ∧ (after r).pfx = x ∧ (after r).run = .ready ∧ (after r).sp = sp ∧ kept r
    left (.retire t) (t.pc + 4) none false ∧ left (.jump pc t) pc none false ∧ left (.resume pc t) pc none true ∧
      left (.pending w t) (t.pc + 4) (some w) t.th.sp ∧
      (t.stopWanted s.cur s.slot = none → (after (.wait why t)).bank.pc = t.pc ∧ (after (.wait why t)).pfx = t.pfx ∧
        (after (.wait why t)).run = .blocked why ∧ kept (.wait why t))

/-- Taking a trap: `epc` names the instruction, or its prefix with PFX set; CODE, `tval` and PMODE are written, the mode is
supervisor, the reservation is lost and pc is the vector; without a usable vector the activation ends with a TRAPLOOP record.
A return undoes the mode and goes to `epc` (R301, R302). -/
def Obligations.TrapEntryAndReturn : Prop :=
  ∀ (s : State) (code : Nat) (tval : Dword),
    let t := s.th
    let kind := s.act.kind
    let plain := (∀ p m, kind ≠ .gust p m) ∧ (∀ q, kind ≠ .queueProgram q) ∧ ((∀ r, kind ≠ .handler r) ∨ t.csr.mode = true)
    let epc := if t.pfx.isSome = true then t.bank.pc - 4 else t.bank.pc
    let csr : Csrs := { t.csr with epc := epc, causePfx := t.pfx.isSome, causeCode := BitVec.ofNat 8 code, tval := tval,
                                   pmode := t.csr.mode, mode := true }
    let saved : State := ((s.modTh fun h => { h with
      csr := csr, pfx := none, run := .ready, timer := none, wake := none, parked := false, walk := none }).dropResv
        s.cur s.slot).modTh fun h => { h with vectorDue := false }
    let u := s.takeTrap s.cur s.slot code tval
    plain → (s.core s.cur).dbg.trapstop = false → t.stopWhy = 0 →
      (t.csr.tvec ≠ 0 → saved.vectorFaults s.cur s.slot t.csr.tvec = false →
        (u.thread s.cur s.slot).csr = csr ∧ (u.thread s.cur s.slot).bank = (t.setPc t.csr.tvec).bank ∧
          (u.thread s.cur s.slot).pfx = none ∧ (u.thread s.cur s.slot).run = .ready ∧
          u.resvs = FMap.del s.resvs (slotKey s.cur s.slot) ∧ u.mem = s.mem ∧ OthersKept s u) ∧
      (t.csr.tvec = 0 ∨ saved.vectorFaults s.cur s.slot t.csr.tvec = true →
        u = (saved.threadRecord s.cur s.slot 0x19 2 [(20, 1, code % 2 ^ 8), (24, 8, epc.toNat), (32, 8, tval.toNat)]).endThread
          s.cur s.slot .killed) ∧
      ∀ r, saved.returnFromTrap = r → ∃ v, r = .resume epc v ∧ v.th.csr.mode = t.csr.mode

/-- The state right after reset, as far as the specification gives it: every CSR at its value of R63 on every slot, every slot
idle, partition 0 running, no memory listed, and the canonical form of memory. The zero of a general register and of a byte
of memory is the model's choice (log entries 3 and 4). -/
def Obligations.ResetState : Prop :=
  let s := State.reset
  (∀ c < 288, ∀ n < 4, ∀ num ∈ csrNumbers, s.csrRead c n num =
    if num = 0x42 then (if c < 256 then 0x4000 else 0x1000) else if num = 0x60 then 800 else 0) ∧
    (∀ c n, (s.thread c n).run = .idle ∧ (s.thread c n).act = none ∧ ∀ r, (s.thread c n).getX r = 0) ∧
    (s.partAt 0).st = .running ∧ s.boot.stage = 0 ∧ s.clock.now = 0 ∧ s.resvs = [] ∧ s.poison = [] ∧
    Memory.wf s.mem ∧ ∀ a, memByte s.mem a = 0

/-- Every step keeps the canonical form of memory, from whatever state: the listed addresses rise strictly and no listed byte
is the one that an unlisted address reads as. The canonical form and the value an unlisted byte reads as are the model's own
(log entry 4). -/
def Obligations.StepKeepsMemoryForm : Prop := ∀ s t : State, Memory.wf s.mem → step s = .next t → Memory.wf t.mem

/-- The frame of the scalar instructions that store nothing: only the destination register, or pair, changes, and of a branch
only its counter; every flag and special register, and all of storage, stays. -/
def Obligations.RegisterInstructionFrames : Prop :=
  ∀ (s t u : State) (d a b h : Reg) (i : BitVec 16) (k kd ka kb : BitVec 3) (f : BitVec 10) (o : BitVec 25) (m : BitVec 4)
      (j : BitVec 15) (l : List Byte),
    let word (r : Nat) : Prop := r = d.toNat
    let pair (r : Nat) : Prop := r = 2 * d.toNat ∨ r = 2 * d.toNat + 1
    let framed (w : Nat → Prop) (i : Instr) : Prop := Admitted i s → exec i s = .next t → OnlyXChanged w s t
    s.th.stopWhy = 0 →
      (∀ e ∈ ([.add d a b, .sub d a b, .and d a b, .or d a b, .xor d a b, .andn d a b, .sll d a b, .srl d a b, .sra d a b,
          .rol d a b, .slt d a b, .sltu d a b, .min d a b, .max d a b, .minu d a b, .maxu d a b, .mul d a b, .mulh d a b,
          .mulhu d a b, .div d a b, .divu d a b, .rem d a b, .remu d a b, .clz d a, .ctz d a, .popc d a, .sextB d a, .sextH d a,
          .zextB d a, .zextH d a, .bfx d a b, .bfi d a b, .addi d a i, .andi d a i, .ori d a i, .xori d a i, .slti d a i,
          .sltiu d a i, .lui d i, .slli d a h, .srli d a h, .srai d a h, .jalr d a f, .kmovX d ka, .kpopc d ka,
          .kfirst d ka] : List Instr), framed word e) ∧
      (∀ e ∈ ([.addp d a b, .subp d a b, .movp d a, .addpi d a i, .jalrFar d a f] : List Instr), framed pair e) ∧
      (∀ e ∈ ([.beq a b i, .bne a b i, .blt a b i, .bge a b i, .bltu a b i, .bgeu a b i, .bkany k i, .bkall k i, .bknone k i,
          .j o] : List Instr), framed (fun _ => False) e) ∧
      framed (fun r => r = a.toNat) (.dbnz a i) ∧ framed (fun r => r = 1) (.jal o) ∧
      (∀ e ∈ ([(.lb d m j, 1), (.lbu d m j, 1), (.lh d m j, 2), (.lhu d m j, 2), (.lw d m j, 4)] : List (Instr × Nat)),
        LoadReads s m j e.2 l u → l.length = e.2 → framed word e.1) ∧
      (LoadReads s m j 8 l u → framed pair (.ld d m j)) ∧
      ∀ e ∈ ([.kand kd ka kb, .kor kd ka kb, .kxor kd ka kb, .knot kd ka, .kmovK kd ka, .kgen kd a] : List Instr),
        Admitted e s → exec e s = .next t →
          StorageKept s t ∧ OthersKept s t ∧ (∀ r, (t.thread s.cur s.slot).getX r = s.th.getX r) ∧
            (t.thread s.cur s.slot).csr = s.th.csr ∧ ∀ r, r ≠ kd.toNat → (t.thread s.cur s.slot).getK r = s.th.getK r

/-- The frame of a store to plain memory: no register changes, and every byte of storage outside those at the address it
computes reads as before; a store that enters the store buffer changes no byte yet. -/
def Obligations.StoreFrames : Prop :=
  ∀ (s u t : State) (d : Reg) (b : BitVec 4) (o : BitVec 15) (p : Place) (path va loc : Nat),
    let kept := OthersKept s t ∧ RegsKept s.th (t.thread s.cur s.slot)
    let outside (loc size : Nat) : Prop := ∀ q, q < loc ∨ loc + size ≤ q → memByte t.mem q = memByte s.mem q
    ∀ e ∈ ([(.sb d b o, 1, (s.x d).toNat), (.sh d b o, 2, (s.x d).toNat), (.sw d b o, 4, (s.x d).toNat),
        (.sd d b o, 8, (s.p d).toNat)] : List (Instr × Nat × Nat)),
      s.th.stopWhy = 0 → Memory.wf s.mem → Admitted e.1 s → StoreTakes s b o e.2.1 e.2.2 p u → exec e.1 s = .next t →
        (p = .mem loc → kept ∧ outside loc e.2.1) ∧
        (p = .virt path va → s.translate s.cur s.act.asid path va .store = .hit loc →
          kept ∧ if path = 0 then t.mem = s.mem else outside loc e.2.1)

/-- The frame of an atomic: only its destination register, or pair, changes, and of the flags only those `amofadd` raises; a
byte of storage outside the operand's reads as before, and all of storage does after a load-reserve. -/
def Obligations.AtomicFrames : Prop :=
  ∀ (s u t : State) (d p a : Reg) (c : BitVec 2) (q l : BitVec 1) (loc : Nat),
    let regs (size : Nat) : Prop := OthersKept s t ∧
      (∀ r, ¬(if size = 4 then r = d.toNat else r = 2 * d.toNat ∨ r = 2 * d.toNat + 1) →
        (t.thread s.cur s.slot).getX r = s.th.getX r) ∧
      (∀ r, (t.thread s.cur s.slot).getV r = s.th.getV r ∧ (t.thread s.cur s.slot).getK r = s.th.getK r ∧
        (t.thread s.cur s.slot).getM r = s.th.getM r ∧ (t.thread s.cur s.slot).getE r = s.th.getE r) ∧
      { (t.thread s.cur s.slot).csr with fflags := s.th.csr.fflags } = s.th.csr
    let outside (size : Nat) : Prop := ∀ b, b < loc ∨ loc + size ≤ b → memByte t.mem b = memByte s.mem b
    s.th.stopWhy = 0 → Memory.wf s.mem →
      (∀ e ∈ ([(.amoaddW d p a c q l, 4), (.amoaddD d p a c q l, 8), (.amoswapW d p a c q l, 4), (.amoswapD d p a c q l, 8),
          (.amoandW d p a c q l, 4), (.amoandD d p a c q l, 8), (.amoorW d p a c q l, 4), (.amoorD d p a c q l, 8),
          (.amoxorW d p a c q l, 4), (.amoxorD d p a c q l, 8), (.amominW d p a c q l, 4), (.amominD d p a c q l, 8),
          (.amomaxW d p a c q l, 4), (.amomaxD d p a c q l, 8), (.amominuW d p a c q l, 4), (.amominuD d p a c q l, 8),
          (.amomaxuW d p a c q l, 4), (.amomaxuD d p a c q l, 8), (.amofadd d p a c q l, 4), (.casW d p a c q l, 4),
          (.casD d p a c q l, 8)] : List (Instr × Nat)),
        Admitted e.1 s → AtomicReads s (s.p p) e.2 c.toNat (l == 1) loc u → portRefuses (s.p p) = false → exec e.1 s = .next t →
          regs e.2 ∧ outside e.2) ∧
      (∀ e ∈ ([(.lrW d p c q l, 4), (.lrD d p c q l, 8)] : List (Instr × Nat)),
        Admitted e.1 s → AtomicReads s (s.p p) e.2 c.toNat (l == 1) loc u → exec e.1 s = .next t → regs e.2 ∧ t.mem = s.mem) ∧
      ∀ e ∈ ([(.scW d p a c q l, 4), (.scD d p a c q l, 8)] : List (Instr × Nat)),
        Admitted e.1 s → AtomicAt s (s.p p) e.2 c.toNat (l == 1) loc u → pathByte (s.p p) ≠ 0x08 → pathByte (s.p p) ≠ 0x09 →
          exec e.1 s = .next t → regs e.2 ∧ outside e.2

/-- The frame of the vector instructions: only the destination registers change (a vector register, the two of `vtopk`, an x
register, or a mask), no message-build or engine register and no CSR but the vector flags and the end-of-stream bits, and
nothing in storage but the bytes that a `vst` or `vsts` stores: those of its active lanes at the place its address leads to, on
the translated paths through the translation that serves the store. -/
def Obligations.VectorFrames : Prop :=
  ∀ (s t : State) (d a b : Reg) (k y : BitVec 3) (u : BitVec 1) (q e : BitVec 4),
    let h := t.thread s.cur s.slot
    let none_ (_ : Nat) : Prop := False
    let only (r : Nat) (n : Nat) : Prop := n = r
    let regs (x v m : Nat → Prop) : Prop :=
      OthersKept s t ∧ (∀ r, ¬x r → h.getX r = s.th.getX r) ∧ (∀ r, ¬v r → h.getV r = s.th.getV r) ∧
        (∀ r, ¬m r → h.getK r = s.th.getK r) ∧ (∀ r, h.getM r = s.th.getM r ∧ h.getE r = s.th.getE r) ∧
        { h.csr with fflags := s.th.csr.fflags, chst := s.th.csr.chst } = s.th.csr
    let runs (srcs dsts : List Nat) (i : Instr) : Prop :=
      Admitted i s ∧ s.vecCheck srcs dsts = .go ∧ exec i s = .next t
    let kept (srcs : List Nat) (i : Instr) : Prop :=
      runs srcs [d.toNat] i → StorageKept s t ∧ regs none_ (only d.toNat) none_
    s.th.stopWhy = 0 →
      (∀ i ∈ ([.vadd d a b k y u, .vsub d a b k y u, .vmul d a b k y u, .vmin d a b k y u, .vmax d a b k y u, .vand d a b k y,
          .vor d a b k y, .vxor d a b k y, .vandn d a b k y, .vsll d a b k y, .vsrl d a b k y, .vsra d a b k y, .vaddF d a b k y,
          .vsubF d a b k y, .vmulF d a b k y, .vminF d a b k y, .vmaxF d a b k y, .vsel d a b k y, .vperm d a b k y] :
          List Instr), kept [a.toNat, b.toNat] i) ∧
      (∀ i ∈ ([.vabs d a k y, .vneg d a k y, .vpopc d a k y, .vabsF d a k y, .vnegF d a k y, .vexp2 d a k y, .vlog2 d a k y,
          .vrcp d a k y, .vrsqrt d a k y, .vcvt d a q k e, .vmov d a k y, .vslide d a b k y, .vredsum d a k y u,
          .vredmax d a k y u, .vredmin d a k y u, .vscan d a k y] : List Instr), kept [a.toNat] i) ∧
      kept [] (.vbcast d a k y) ∧ kept [d.toNat] (.vins d a b y) ∧
      (∀ i ∈ ([.vclamp d a b k y u, .vdot d a b k y u, .vfma d a b k y, .vfms d a b k y, .vclampF d a b k y, .vdotF d a b k y] :
        List Instr), kept [a.toNat, b.toNat, d.toNat] i) ∧
      (runs [a.toNat, b.toNat, d.toNat, d.toNat + 1] [d.toNat, d.toNat + 1] (.vtopk d a b k y u) →
        StorageKept s t ∧ regs none_ (fun r => r = d.toNat ∨ r = d.toNat + 1) none_) ∧
      (∀ i ∈ ([.vmvx d a b y, .vargmax d a k y u] : List Instr),
        runs [a.toNat] [] i → StorageKept s t ∧ regs (only d.toNat) none_ none_) ∧
      (∀ j : BitVec 3, ∀ i ∈ ([.vcmpEq j a b k y u, .vcmpNe j a b k y u, .vcmpLt j a b k y u, .vcmpLe j a b k y u,
          .vcmpGt j a b k y u, .vcmpGe j a b k y u] : List Instr),
        runs [a.toNat, b.toNat] [] i → StorageKept s t ∧ regs none_ none_ (only j.toNat)) ∧
      (∀ (c : BitVec 4) (m : BitVec 2) (o : BitVec 15) (x : Dword) (p : Place) (bs : List Byte) (r : State),
        let w := s.k (m.setWidth 3)
        let path := s.basePath c
        let offs := activeOffs w (pathLane path)
        let cells := offs.map fun j => (j, BitVec.ofNat 8 (lane (s.vsrc d.toNat) 1 j))
        let outside (loc : Nat) : Prop := ∀ z, (∀ j ∈ offs, z ≠ loc + j) → memByte t.mem z = memByte s.mem z
        (runs [] [d.toNat] (.vld d c m o) → offs = [] → StorageKept s t ∧ regs none_ (only d.toNat) none_) ∧
        (runs [] [d.toNat] (.vld d c m o) → VectorLeads s c w o .load (loadBlocks path) x p →
          s.readPlace s.issuer x p offs = .bytes bs r → (∀ n z, p ≠ .slice n z ∧ p ≠ .device z) →
            StorageKept s t ∧ regs none_ (only d.toNat) none_) ∧
        (s.opt = 0 ∨ path = 0x14 ∨ path = 0x15 → runs [d.toNat] [] (.vst d c m o) → offs = [] →
          StorageKept s t ∧ regs none_ none_ none_) ∧
        (Memory.wf s.mem → s.opt = 0 ∨ path = 0x14 ∨ path = 0x15 → runs [d.toNat] [] (.vst d c m o) →
          VectorLeads s c w o .store (storeBlocks path) x p → s.writePlace s.issuer p cells false = .ok r →
            (∀ loc, p = .mem loc → regs none_ none_ none_ ∧ outside loc) ∧
            (∀ v z, p = .view v z → regs none_ none_ none_ ∧
              ∀ n, (∀ j ∈ offs, n ≠ sramLoc s.cur ((z + j) / 2)) → memByte t.mem n = memByte s.mem n) ∧
            (∀ n z, p = .egress n z → regs none_ none_ none_ ∧ t.mem = s.mem) ∧
            ∀ tr va loc, p = .virt tr va → s.translate s.cur s.act.asid tr va .store = .hit loc →
              regs none_ none_ none_ ∧ if tr = 0 then t.mem = s.mem else outside loc)) ∧
      ∀ (p : Reg) (l : List LanePlace) (bs : List Byte) (r : State),
        let f := elemOf y 0
        let w := f.bytes
        let path := pathByte (s.p p)
        let on := (List.range (32 / w)).filter fun i => (s.k k).getLsbD (w * i)
        let idx (i : Nat) : Int := f.ifmt.decode (lane (s.vsrc b.toNat) w i)
        let far (z loc : Nat) : Prop := z < loc ∨ loc + w ≤ z
        let missed (z : Nat) (x : LanePlace) : Prop :=
          match x.2.2 with
          | .mem loc => far z loc
          | .virt tr va => ∀ i ∈ (s.core s.cur).tlb, i.maps (pathRoot tr) s.act.asid va = true → i.serves .store = true →
              far z (leafLoc (pathRoot tr) i.level i.leaf.toNat va)
          | _ => False
        (runs [b.toNat] [d.toNat] (.vldg d p b k y) → on = [] → StorageKept s t ∧ regs none_ (only d.toNat) none_) ∧
        (runs [b.toNat] [d.toNat] (.vldg d p b k y) → on ≠ [] → s.safeRule (loadBlocks path) true path = 0 →
          s.checkLanes (s.p p) w idx .load on = .ok l → s.laneWalk .load l = none → s.readLanes w l = .bytes bs r →
            (∀ x ∈ l, ∀ n z, x.2.2 ≠ .slice n z ∧ x.2.2 ≠ .device z) →
              StorageKept s t ∧ regs none_ (only d.toNat) none_) ∧
        (runs [d.toNat, b.toNat] [] (.vsts d p b k y) → on = [] → StorageKept s t ∧ regs none_ none_ none_) ∧
        (Memory.wf s.mem → runs [d.toNat, b.toNat] [] (.vsts d p b k y) → on ≠ [] →
          s.safeRule (storeBlocks path) false path = 0 → s.checkLanes (s.p p) w idx .store on = .ok l →
            s.laneWalk .store l = none → (path = 0 → s.drained = true) → s.writeLanes w (s.vsrc d.toNat) l = .ok r →
              (∀ x ∈ l, (∃ loc, x.2.2 = .mem loc) ∨ ∃ tr va, x.2.2 = .virt tr va) →
                regs none_ none_ none_ ∧ ∀ z, (∀ x ∈ l, missed z x) → memByte t.mem z = memByte s.mem z)
end

