-- ==== Sys2Proof/Laws/FMap.lean ====
section
/-! SUPPORT. What the operations on finite maps do: a key reads what was last put there, the other keys read as before, and
the sorted and the canonical forms stay. -/

namespace Sys2Proof.Machine

variable {α : Type}

@[simp] theorem FMap.find_nil (k : Nat) : FMap.find ([] : FMap α) k = none := rfl

@[simp] theorem FMap.get_nil (k : Nat) (d : α) : FMap.get ([] : FMap α) k d = d := rfl

@[simp] theorem FMap.find_put_same (m : FMap α) (k : Nat) (v : α) : FMap.find (FMap.put m k v) k = some v := by
  induction m with
  | nil => simp [FMap.put, FMap.find]
  | cons e r ih =>
    obtain ⟨j, w⟩ := e
    by_cases h : j = k
    · simp [FMap.put, FMap.find, h]
    · by_cases hlt : k < j
      · simp [FMap.put, FMap.find, h, hlt]
      · simp [FMap.put, FMap.find, h, hlt, ih]

theorem FMap.find_put_other (m : FMap α) {k q : Nat} (v : α) (h : q ≠ k) : FMap.find (FMap.put m k v) q = FMap.find m q := by
  induction m with
  | nil => simp [FMap.put, FMap.find, Ne.symm h]
  | cons e r ih =>
    obtain ⟨j, w⟩ := e
    rcases Nat.lt_trichotomy j k with hj | rfl | hj
    · have h1 : j ≠ k := by omega
      have h2 : ¬k < j := by omega
      simp [FMap.put, FMap.find, h1, h2, ih]
    · simp [FMap.put, FMap.find, Ne.symm h]
    · have h1 : j ≠ k := by omega
      by_cases h3 : q < k
      · have h4 : j ≠ q := by omega
        have h5 : q < j := by omega
        simp [FMap.put, FMap.find, h1, hj, Ne.symm h, h3, h4, h5]
      · simp [FMap.put, FMap.find, h1, hj, Ne.symm h, h3]

@[simp] theorem FMap.get_put_same (m : FMap α) (k : Nat) (v d : α) : FMap.get (FMap.put m k v) k d = v := by
  simp [FMap.get]

theorem FMap.get_put_other (m : FMap α) {k q : Nat} (v d : α) (h : q ≠ k) : FMap.get (FMap.put m k v) q d = FMap.get m q d := by
  simp [FMap.get, FMap.find_put_other m v h]

/-- Everything a read after a put answers. -/
theorem FMap.get_put (m : FMap α) (k q : Nat) (v d : α) :
    FMap.get (FMap.put m k v) q d = if q = k then v else FMap.get m q d := by
  by_cases h : q = k
  · simp [h]
  · simp [h, FMap.get_put_other m v d h]

theorem FMap.sortedAbove_mono {m : FMap α} {j k : Nat} (h : j ≤ k) (hs : FMap.sortedAbove m k = true) :
    FMap.sortedAbove m j = true := by
  cases m with
  | nil => rfl
  | cons e r => simp only [FMap.sortedAbove, Bool.and_eq_true, decide_eq_true_eq] at hs ⊢; exact ⟨by omega, hs.2⟩

theorem FMap.sorted_of_above {m : FMap α} {k : Nat} (hs : FMap.sortedAbove m k = true) : FMap.sorted m = true := by
  cases m with
  | nil => rfl
  | cons e r => simp only [FMap.sortedAbove, Bool.and_eq_true] at hs; exact hs.2

/-- A sorted map above `k` lists no key up to `k`. -/
theorem FMap.find_above {m : FMap α} {k q : Nat} (hs : FMap.sortedAbove m k = true) (h : q ≤ k) : FMap.find m q = none := by
  cases m with
  | nil => rfl
  | cons e r =>
    simp only [FMap.sortedAbove, Bool.and_eq_true, decide_eq_true_eq] at hs
    have h1 : e.1 ≠ q := by omega
    have h2 : q < e.1 := by omega
    simp [FMap.find, h1, h2]

theorem FMap.put_above {m : FMap α} {k j : Nat} {v : α} (hs : FMap.sortedAbove m j = true) (h : j < k) :
    FMap.sortedAbove (FMap.put m k v) j = true := by
  induction m generalizing j with
  | nil => simp [FMap.put, FMap.sortedAbove, h]
  | cons e r ih =>
    obtain ⟨i, w⟩ := e
    simp only [FMap.sortedAbove, Bool.and_eq_true, decide_eq_true_eq] at hs
    rcases Nat.lt_trichotomy i k with hi | rfl | hi
    · have h1 : i ≠ k := by omega
      have h2 : ¬k < i := by omega
      simp [FMap.put, FMap.sortedAbove, h1, h2, hs.1, ih hs.2 hi]
    · simp [FMap.put, FMap.sortedAbove, hs]
    · have h1 : i ≠ k := by omega
      simp [FMap.put, FMap.sortedAbove, h1, hi, h, hs.2]

theorem FMap.put_sorted {m : FMap α} {k : Nat} {v : α} (hs : FMap.sorted m = true) : FMap.sorted (FMap.put m k v) = true := by
  cases m with
  | nil => rfl
  | cons e r =>
    obtain ⟨i, w⟩ := e
    rcases Nat.lt_trichotomy i k with hi | rfl | hi
    · have h1 : i ≠ k := by omega
      have h2 : ¬k < i := by omega
      simpa [FMap.put, FMap.sorted, h1, h2] using FMap.put_above hs hi
    · simpa [FMap.put, FMap.sorted] using hs
    · have h1 : i ≠ k := by omega
      simpa [FMap.put, FMap.sorted, FMap.sortedAbove, h1, hi] using hs

theorem FMap.del_above {m : FMap α} {k j : Nat} (hs : FMap.sortedAbove m j = true) : FMap.sortedAbove (FMap.del m k) j = true := by
  induction m generalizing j with
  | nil => rfl
  | cons e r ih =>
    obtain ⟨i, w⟩ := e
    simp only [FMap.sortedAbove, Bool.and_eq_true, decide_eq_true_eq] at hs
    rcases Nat.lt_trichotomy i k with hi | rfl | hi
    · have h1 : i ≠ k := by omega
      have h2 : ¬k < i := by omega
      simp [FMap.del, FMap.sortedAbove, h1, h2, hs.1, ih hs.2]
    · simpa [FMap.del] using FMap.sortedAbove_mono (Nat.le_of_lt hs.1) hs.2
    · have h1 : i ≠ k := by omega
      simp [FMap.del, FMap.sortedAbove, h1, hi, hs]

theorem FMap.del_sorted {m : FMap α} {k : Nat} (hs : FMap.sorted m = true) : FMap.sorted (FMap.del m k) = true := by
  cases m with
  | nil => rfl
  | cons e r =>
    obtain ⟨i, w⟩ := e
    rcases Nat.lt_trichotomy i k with hi | rfl | hi
    · have h1 : i ≠ k := by omega
      have h2 : ¬k < i := by omega
      simpa [FMap.del, FMap.sorted, h1, h2] using FMap.del_above hs
    · simpa [FMap.del] using FMap.sorted_of_above hs
    · have h1 : i ≠ k := by omega
      simpa [FMap.del, FMap.sorted, h1, hi] using hs

theorem FMap.find_del_above {m : FMap α} {k j q : Nat} (hs : FMap.sortedAbove m j = true) :
    FMap.find (FMap.del m k) q = if q = k then none else FMap.find m q := by
  induction m generalizing j with
  | nil => simp [FMap.del]
  | cons e r ih =>
    obtain ⟨i, w⟩ := e
    simp only [FMap.sortedAbove, Bool.and_eq_true, decide_eq_true_eq] at hs
    rcases Nat.lt_trichotomy i k with hi | rfl | hi
    · have h1 : i ≠ k := by omega
      have h2 : ¬k < i := by omega
      by_cases hq : q = k
      · subst hq; simp [FMap.del, FMap.find, h1, h2, ih hs.2]
      · simp [FMap.del, FMap.find, h1, h2, ih hs.2, hq]
    · by_cases hq : q = i
      · subst hq; simp [FMap.del, FMap.find_above hs.2 (Nat.le_refl _)]
      · by_cases hlt : q < i
        · simp [FMap.del, FMap.find, hq, Ne.symm hq, hlt, FMap.find_above hs.2 (Nat.le_of_lt hlt)]
        · simp [FMap.del, FMap.find, hq, Ne.symm hq, hlt]
    · have h1 : i ≠ k := by omega
      by_cases hq : q = k
      · subst hq; simp [FMap.del, FMap.find, h1, hi]
      · simp [FMap.del, h1, hi, hq]

/-- Everything a lookup after a deletion from a sorted map answers. -/
theorem FMap.find_del {m : FMap α} {k q : Nat} (hs : FMap.sorted m = true) :
    FMap.find (FMap.del m k) q = if q = k then none else FMap.find m q := by
  cases m with
  | nil => simp [FMap.del]
  | cons e r =>
    have ha : FMap.sortedAbove r e.1 = true := hs
    obtain ⟨i, w⟩ := e
    rcases Nat.lt_trichotomy i k with hi | rfl | hi
    · have h1 : i ≠ k := by omega
      have h2 : ¬k < i := by omega
      by_cases hq : q = k
      · subst hq; simp [FMap.del, FMap.find, h1, h2, FMap.find_del_above ha]
      · simp [FMap.del, FMap.find, h1, h2, FMap.find_del_above ha, hq]
    · by_cases hq : q = i
      · subst hq; simp [FMap.del, FMap.find_above ha (Nat.le_refl _)]
      · by_cases hlt : q < i
        · simp [FMap.del, FMap.find, hq, Ne.symm hq, hlt, FMap.find_above ha (Nat.le_of_lt hlt)]
        · simp [FMap.del, FMap.find, hq, Ne.symm hq, hlt]
    · have h1 : i ≠ k := by omega
      by_cases hq : q = k
      · subst hq; simp [FMap.del, FMap.find, h1, hi]
      · simp [FMap.del, h1, hi, hq]

theorem FMap.mem_put {m : FMap α} {k : Nat} {v : α} {e : Nat × α} (h : e ∈ FMap.put m k v) : e = (k, v) ∨ e ∈ m := by
  induction m with
  | nil => simpa [FMap.put] using h
  | cons d r ih =>
    obtain ⟨j, w⟩ := d
    simp only [FMap.put] at h
    split at h
    · rcases List.mem_cons.mp h with h | h <;> simp [h]
    · split at h
      · rcases List.mem_cons.mp h with h | h
        · exact .inl h
        · exact .inr h
      · rcases List.mem_cons.mp h with h | h
        · simp [h]
        · rcases ih h with h | h <;> simp [h]

theorem FMap.mem_del {m : FMap α} {k : Nat} {e : Nat × α} (h : e ∈ FMap.del m k) : e ∈ m := by
  induction m with
  | nil => simp [FMap.del] at h
  | cons d r ih =>
    obtain ⟨j, w⟩ := d
    simp only [FMap.del] at h
    split at h
    · simp [h]
    · split at h
      · exact h
      · rcases List.mem_cons.mp h with h | h
        · simp [h]
        · simp [ih h]

theorem FMap.sortedAbove_filter {m : FMap α} {k : Nat} (p : Nat × α → Bool) (hs : FMap.sortedAbove m k = true) :
    FMap.sortedAbove (m.filter p) k = true := by
  induction m generalizing k with
  | nil => rfl
  | cons e r ih =>
    simp only [FMap.sortedAbove, Bool.and_eq_true, decide_eq_true_eq] at hs
    by_cases h : p e = true
    · simp [h, FMap.sortedAbove, hs.1, ih hs.2]
    · simpa [h] using FMap.sortedAbove_mono (Nat.le_of_lt hs.1) (ih hs.2)

theorem FMap.sorted_filter {m : FMap α} (p : Nat × α → Bool) (hs : FMap.sorted m = true) : FMap.sorted (m.filter p) = true := by
  cases m with
  | nil => rfl
  | cons e r =>
    have ha := FMap.sortedAbove_filter p (show FMap.sortedAbove r e.1 = true from hs)
    by_cases h : p e = true
    · simpa [h, FMap.sorted] using ha
    · simpa [h] using FMap.sorted_of_above ha

section Canonical

variable [DecidableEq α]

theorem FMap.canon_set {m : FMap α} {k : Nat} {v d : α} (h : FMap.canon m d = true) :
    FMap.canon (FMap.set m k v d) d = true := by
  simp only [FMap.canon, Bool.and_eq_true, List.all_eq_true, decide_eq_true_eq] at h ⊢
  unfold FMap.set
  split
  · exact ⟨FMap.del_sorted h.1, fun e he => h.2 e (FMap.mem_del he)⟩
  · next hv =>
    refine ⟨FMap.put_sorted h.1, fun e he => ?_⟩
    rcases FMap.mem_put he with rfl | he
    · exact hv
    · exact h.2 e he

theorem FMap.canon_filter {m : FMap α} {d : α} (p : Nat × α → Bool) (h : FMap.canon m d = true) :
    FMap.canon (m.filter p) d = true := by
  simp only [FMap.canon, Bool.and_eq_true, List.all_eq_true, decide_eq_true_eq] at h ⊢
  exact ⟨FMap.sorted_filter p h.1, fun e he => h.2 e (List.mem_filter.mp he).1⟩

/-- Everything a read after a canonical write answers. -/
theorem FMap.get_set {m : FMap α} {k q : Nat} {v d : α} (h : FMap.sorted m = true) :
    FMap.get (FMap.set m k v d) q d = if q = k then v else FMap.get m q d := by
  unfold FMap.set
  split
  · next hv =>
    subst hv
    rw [FMap.get, FMap.find_del h]
    by_cases hq : q = k <;> simp [hq, FMap.get]
  · exact FMap.get_put m k q v d

end Canonical

end Sys2Proof.Machine
end

