-- ==== Sys2Proof/Laws/State.lean ====
section
/-! SUPPORT. What an update of a core or a thread leaves of the other parts of the state, field by field, and what the thread
it names holds afterwards. -/

namespace Sys2Proof.Machine

/-! `setCore` changes cores only. -/

@[simp] theorem setCore_agenda (s : State) (c : Nat) (k : Core) : (s.setCore c k).agenda = s.agenda := rfl
@[simp] theorem setCore_cur (s : State) (c : Nat) (k : Core) : (s.setCore c k).cur = s.cur := rfl
@[simp] theorem setCore_slot (s : State) (c : Nat) (k : Core) : (s.setCore c k).slot = s.slot := rfl
@[simp] theorem setCore_mem (s : State) (c : Nat) (k : Core) : (s.setCore c k).mem = s.mem := rfl
@[simp] theorem setCore_poison (s : State) (c : Nat) (k : Core) : (s.setCore c k).poison = s.poison := rfl
@[simp] theorem setCore_resvs (s : State) (c : Nat) (k : Core) : (s.setCore c k).resvs = s.resvs := rfl
@[simp] theorem setCore_clock (s : State) (c : Nat) (k : Core) : (s.setCore c k).clock = s.clock := rfl
@[simp] theorem setCore_ticks (s : State) (c : Nat) (k : Core) : (s.setCore c k).ticks = s.ticks := rfl
@[simp] theorem setCore_mbs (s : State) (c : Nat) (k : Core) : (s.setCore c k).mbs = s.mbs := rfl
@[simp] theorem setCore_snaps (s : State) (c : Nat) (k : Core) : (s.setCore c k).snaps = s.snaps := rfl
@[simp] theorem setCore_gustPool (s : State) (c : Nat) (k : Core) : (s.setCore c k).gustPool = s.gustPool := rfl
@[simp] theorem setCore_gusts (s : State) (c : Nat) (k : Core) : (s.setCore c k).gusts = s.gusts := rfl
@[simp] theorem setCore_spare (s : State) (c : Nat) (k : Core) : (s.setCore c k).spare = s.spare := rfl
@[simp] theorem setCore_streams (s : State) (c : Nat) (k : Core) : (s.setCore c k).streams = s.streams := rfl
@[simp] theorem setCore_egress (s : State) (c : Nat) (k : Core) : (s.setCore c k).egress = s.egress := rfl
@[simp] theorem setCore_macFree (s : State) (c : Nat) (k : Core) : (s.setCore c k).macFree = s.macFree := rfl
@[simp] theorem setCore_gen (s : State) (c : Nat) (k : Core) : (s.setCore c k).gen = s.gen := rfl
@[simp] theorem setCore_queue (s : State) (c : Nat) (k : Core) : (s.setCore c k).queue = s.queue := rfl
@[simp] theorem setCore_queuePort (s : State) (c : Nat) (k : Core) : (s.setCore c k).queuePort = s.queuePort := rfl
@[simp] theorem setCore_claimers (s : State) (c : Nat) (k : Core) : (s.setCore c k).claimers = s.claimers := rfl
@[simp] theorem setCore_slices (s : State) (c : Nat) (k : Core) : (s.setCore c k).slices = s.slices := rfl
@[simp] theorem setCore_queues (s : State) (c : Nat) (k : Core) : (s.setCore c k).queues = s.queues := rfl
@[simp] theorem setCore_lastQueue (s : State) (c : Nat) (k : Core) : (s.setCore c k).lastQueue = s.lastQueue := rfl
@[simp] theorem setCore_programs (s : State) (c : Nat) (k : Core) : (s.setCore c k).programs = s.programs := rfl
@[simp] theorem setCore_handles (s : State) (c : Nat) (k : Core) : (s.setCore c k).handles = s.handles := rfl
@[simp] theorem setCore_frames (s : State) (c : Nat) (k : Core) : (s.setCore c k).frames = s.frames := rfl
@[simp] theorem setCore_frameSeq (s : State) (c : Nat) (k : Core) : (s.setCore c k).frameSeq = s.frameSeq := rfl
@[simp] theorem setCore_contexts (s : State) (c : Nat) (k : Core) : (s.setCore c k).contexts = s.contexts := rfl
@[simp] theorem setCore_gens (s : State) (c : Nat) (k : Core) : (s.setCore c k).gens = s.gens := rfl
@[simp] theorem setCore_gangs (s : State) (c : Nat) (k : Core) : (s.setCore c k).gangs = s.gangs := rfl
@[simp] theorem setCore_gangPort (s : State) (c : Nat) (k : Core) : (s.setCore c k).gangPort = s.gangPort := rfl
@[simp] theorem setCore_parts (s : State) (c : Nat) (k : Core) : (s.setCore c k).parts = s.parts := rfl
@[simp] theorem setCore_errq (s : State) (c : Nat) (k : Core) : (s.setCore c k).errq = s.errq := rfl
@[simp] theorem setCore_squall (s : State) (c : Nat) (k : Core) : (s.setCore c k).squall = s.squall := rfl
@[simp] theorem setCore_shed (s : State) (c : Nat) (k : Core) : (s.setCore c k).shed = s.shed := rfl
@[simp] theorem setCore_boot (s : State) (c : Nat) (k : Core) : (s.setCore c k).boot = s.boot := rfl
@[simp] theorem setCore_link (s : State) (c : Nat) (k : Core) : (s.setCore c k).link = s.link := rfl
@[simp] theorem setCore_flight (s : State) (c : Nat) (k : Core) : (s.setCore c k).flight = s.flight := rfl
@[simp] theorem setCore_services (s : State) (c : Nat) (k : Core) : (s.setCore c k).services = s.services := rfl
@[simp] theorem setCore_shootdowns (s : State) (c : Nat) (k : Core) : (s.setCore c k).shootdowns = s.shootdowns := rfl
@[simp] theorem setCore_fatal (s : State) (c : Nat) (k : Core) : (s.setCore c k).fatal = s.fatal := rfl

/-! `modCore` changes cores only. -/

@[simp] theorem modCore_agenda (s : State) (c : Nat) (f : Core → Core) : (s.modCore c f).agenda = s.agenda := rfl
@[simp] theorem modCore_cur (s : State) (c : Nat) (f : Core → Core) : (s.modCore c f).cur = s.cur := rfl
@[simp] theorem modCore_slot (s : State) (c : Nat) (f : Core → Core) : (s.modCore c f).slot = s.slot := rfl
@[simp] theorem modCore_mem (s : State) (c : Nat) (f : Core → Core) : (s.modCore c f).mem = s.mem := rfl
@[simp] theorem modCore_poison (s : State) (c : Nat) (f : Core → Core) : (s.modCore c f).poison = s.poison := rfl
@[simp] theorem modCore_resvs (s : State) (c : Nat) (f : Core → Core) : (s.modCore c f).resvs = s.resvs := rfl
@[simp] theorem modCore_clock (s : State) (c : Nat) (f : Core → Core) : (s.modCore c f).clock = s.clock := rfl
@[simp] theorem modCore_ticks (s : State) (c : Nat) (f : Core → Core) : (s.modCore c f).ticks = s.ticks := rfl
@[simp] theorem modCore_mbs (s : State) (c : Nat) (f : Core → Core) : (s.modCore c f).mbs = s.mbs := rfl
@[simp] theorem modCore_snaps (s : State) (c : Nat) (f : Core → Core) : (s.modCore c f).snaps = s.snaps := rfl
@[simp] theorem modCore_gustPool (s : State) (c : Nat) (f : Core → Core) : (s.modCore c f).gustPool = s.gustPool := rfl
@[simp] theorem modCore_gusts (s : State) (c : Nat) (f : Core → Core) : (s.modCore c f).gusts = s.gusts := rfl
@[simp] theorem modCore_spare (s : State) (c : Nat) (f : Core → Core) : (s.modCore c f).spare = s.spare := rfl
@[simp] theorem modCore_streams (s : State) (c : Nat) (f : Core → Core) : (s.modCore c f).streams = s.streams := rfl
@[simp] theorem modCore_egress (s : State) (c : Nat) (f : Core → Core) : (s.modCore c f).egress = s.egress := rfl
@[simp] theorem modCore_macFree (s : State) (c : Nat) (f : Core → Core) : (s.modCore c f).macFree = s.macFree := rfl
@[simp] theorem modCore_gen (s : State) (c : Nat) (f : Core → Core) : (s.modCore c f).gen = s.gen := rfl
@[simp] theorem modCore_queue (s : State) (c : Nat) (f : Core → Core) : (s.modCore c f).queue = s.queue := rfl
@[simp] theorem modCore_queuePort (s : State) (c : Nat) (f : Core → Core) : (s.modCore c f).queuePort = s.queuePort := rfl
@[simp] theorem modCore_claimers (s : State) (c : Nat) (f : Core → Core) : (s.modCore c f).claimers = s.claimers := rfl
@[simp] theorem modCore_slices (s : State) (c : Nat) (f : Core → Core) : (s.modCore c f).slices = s.slices := rfl
@[simp] theorem modCore_queues (s : State) (c : Nat) (f : Core → Core) : (s.modCore c f).queues = s.queues := rfl
@[simp] theorem modCore_lastQueue (s : State) (c : Nat) (f : Core → Core) : (s.modCore c f).lastQueue = s.lastQueue := rfl
@[simp] theorem modCore_programs (s : State) (c : Nat) (f : Core → Core) : (s.modCore c f).programs = s.programs := rfl
@[simp] theorem modCore_handles (s : State) (c : Nat) (f : Core → Core) : (s.modCore c f).handles = s.handles := rfl
@[simp] theorem modCore_frames (s : State) (c : Nat) (f : Core → Core) : (s.modCore c f).frames = s.frames := rfl
@[simp] theorem modCore_frameSeq (s : State) (c : Nat) (f : Core → Core) : (s.modCore c f).frameSeq = s.frameSeq := rfl
@[simp] theorem modCore_contexts (s : State) (c : Nat) (f : Core → Core) : (s.modCore c f).contexts = s.contexts := rfl
@[simp] theorem modCore_gens (s : State) (c : Nat) (f : Core → Core) : (s.modCore c f).gens = s.gens := rfl
@[simp] theorem modCore_gangs (s : State) (c : Nat) (f : Core → Core) : (s.modCore c f).gangs = s.gangs := rfl
@[simp] theorem modCore_gangPort (s : State) (c : Nat) (f : Core → Core) : (s.modCore c f).gangPort = s.gangPort := rfl
@[simp] theorem modCore_parts (s : State) (c : Nat) (f : Core → Core) : (s.modCore c f).parts = s.parts := rfl
@[simp] theorem modCore_errq (s : State) (c : Nat) (f : Core → Core) : (s.modCore c f).errq = s.errq := rfl
@[simp] theorem modCore_squall (s : State) (c : Nat) (f : Core → Core) : (s.modCore c f).squall = s.squall := rfl
@[simp] theorem modCore_shed (s : State) (c : Nat) (f : Core → Core) : (s.modCore c f).shed = s.shed := rfl
@[simp] theorem modCore_boot (s : State) (c : Nat) (f : Core → Core) : (s.modCore c f).boot = s.boot := rfl
@[simp] theorem modCore_link (s : State) (c : Nat) (f : Core → Core) : (s.modCore c f).link = s.link := rfl
@[simp] theorem modCore_flight (s : State) (c : Nat) (f : Core → Core) : (s.modCore c f).flight = s.flight := rfl
@[simp] theorem modCore_services (s : State) (c : Nat) (f : Core → Core) : (s.modCore c f).services = s.services := rfl
@[simp] theorem modCore_shootdowns (s : State) (c : Nat) (f : Core → Core) : (s.modCore c f).shootdowns = s.shootdowns := rfl
@[simp] theorem modCore_fatal (s : State) (c : Nat) (f : Core → Core) : (s.modCore c f).fatal = s.fatal := rfl

/-! `setThread` changes cores only. -/

@[simp] theorem setThread_agenda (s : State) (c n : Nat) (t : Thread) : (s.setThread c n t).agenda = s.agenda := rfl
@[simp] theorem setThread_cur (s : State) (c n : Nat) (t : Thread) : (s.setThread c n t).cur = s.cur := rfl
@[simp] theorem setThread_slot (s : State) (c n : Nat) (t : Thread) : (s.setThread c n t).slot = s.slot := rfl
@[simp] theorem setThread_mem (s : State) (c n : Nat) (t : Thread) : (s.setThread c n t).mem = s.mem := rfl
@[simp] theorem setThread_poison (s : State) (c n : Nat) (t : Thread) : (s.setThread c n t).poison = s.poison := rfl
@[simp] theorem setThread_resvs (s : State) (c n : Nat) (t : Thread) : (s.setThread c n t).resvs = s.resvs := rfl
@[simp] theorem setThread_clock (s : State) (c n : Nat) (t : Thread) : (s.setThread c n t).clock = s.clock := rfl
@[simp] theorem setThread_ticks (s : State) (c n : Nat) (t : Thread) : (s.setThread c n t).ticks = s.ticks := rfl
@[simp] theorem setThread_mbs (s : State) (c n : Nat) (t : Thread) : (s.setThread c n t).mbs = s.mbs := rfl
@[simp] theorem setThread_snaps (s : State) (c n : Nat) (t : Thread) : (s.setThread c n t).snaps = s.snaps := rfl
@[simp] theorem setThread_gustPool (s : State) (c n : Nat) (t : Thread) : (s.setThread c n t).gustPool = s.gustPool := rfl
@[simp] theorem setThread_gusts (s : State) (c n : Nat) (t : Thread) : (s.setThread c n t).gusts = s.gusts := rfl
@[simp] theorem setThread_spare (s : State) (c n : Nat) (t : Thread) : (s.setThread c n t).spare = s.spare := rfl
@[simp] theorem setThread_streams (s : State) (c n : Nat) (t : Thread) : (s.setThread c n t).streams = s.streams := rfl
@[simp] theorem setThread_egress (s : State) (c n : Nat) (t : Thread) : (s.setThread c n t).egress = s.egress := rfl
@[simp] theorem setThread_macFree (s : State) (c n : Nat) (t : Thread) : (s.setThread c n t).macFree = s.macFree := rfl
@[simp] theorem setThread_gen (s : State) (c n : Nat) (t : Thread) : (s.setThread c n t).gen = s.gen := rfl
@[simp] theorem setThread_queue (s : State) (c n : Nat) (t : Thread) : (s.setThread c n t).queue = s.queue := rfl
@[simp] theorem setThread_queuePort (s : State) (c n : Nat) (t : Thread) : (s.setThread c n t).queuePort = s.queuePort := rfl
@[simp] theorem setThread_claimers (s : State) (c n : Nat) (t : Thread) : (s.setThread c n t).claimers = s.claimers := rfl
@[simp] theorem setThread_slices (s : State) (c n : Nat) (t : Thread) : (s.setThread c n t).slices = s.slices := rfl
@[simp] theorem setThread_queues (s : State) (c n : Nat) (t : Thread) : (s.setThread c n t).queues = s.queues := rfl
@[simp] theorem setThread_lastQueue (s : State) (c n : Nat) (t : Thread) : (s.setThread c n t).lastQueue = s.lastQueue := rfl
@[simp] theorem setThread_programs (s : State) (c n : Nat) (t : Thread) : (s.setThread c n t).programs = s.programs := rfl
@[simp] theorem setThread_handles (s : State) (c n : Nat) (t : Thread) : (s.setThread c n t).handles = s.handles := rfl
@[simp] theorem setThread_frames (s : State) (c n : Nat) (t : Thread) : (s.setThread c n t).frames = s.frames := rfl
@[simp] theorem setThread_frameSeq (s : State) (c n : Nat) (t : Thread) : (s.setThread c n t).frameSeq = s.frameSeq := rfl
@[simp] theorem setThread_contexts (s : State) (c n : Nat) (t : Thread) : (s.setThread c n t).contexts = s.contexts := rfl
@[simp] theorem setThread_gens (s : State) (c n : Nat) (t : Thread) : (s.setThread c n t).gens = s.gens := rfl
@[simp] theorem setThread_gangs (s : State) (c n : Nat) (t : Thread) : (s.setThread c n t).gangs = s.gangs := rfl
@[simp] theorem setThread_gangPort (s : State) (c n : Nat) (t : Thread) : (s.setThread c n t).gangPort = s.gangPort := rfl
@[simp] theorem setThread_parts (s : State) (c n : Nat) (t : Thread) : (s.setThread c n t).parts = s.parts := rfl
@[simp] theorem setThread_errq (s : State) (c n : Nat) (t : Thread) : (s.setThread c n t).errq = s.errq := rfl
@[simp] theorem setThread_squall (s : State) (c n : Nat) (t : Thread) : (s.setThread c n t).squall = s.squall := rfl
@[simp] theorem setThread_shed (s : State) (c n : Nat) (t : Thread) : (s.setThread c n t).shed = s.shed := rfl
@[simp] theorem setThread_boot (s : State) (c n : Nat) (t : Thread) : (s.setThread c n t).boot = s.boot := rfl
@[simp] theorem setThread_link (s : State) (c n : Nat) (t : Thread) : (s.setThread c n t).link = s.link := rfl
@[simp] theorem setThread_flight (s : State) (c n : Nat) (t : Thread) : (s.setThread c n t).flight = s.flight := rfl
@[simp] theorem setThread_services (s : State) (c n : Nat) (t : Thread) : (s.setThread c n t).services = s.services := rfl
@[simp] theorem setThread_shootdowns (s : State) (c n : Nat) (t : Thread) : (s.setThread c n t).shootdowns = s.shootdowns := rfl
@[simp] theorem setThread_fatal (s : State) (c n : Nat) (t : Thread) : (s.setThread c n t).fatal = s.fatal := rfl

/-! `modThread` changes cores only. -/

@[simp] theorem modThread_agenda (s : State) (c n : Nat) (f : Thread → Thread) : (s.modThread c n f).agenda = s.agenda := rfl
@[simp] theorem modThread_cur (s : State) (c n : Nat) (f : Thread → Thread) : (s.modThread c n f).cur = s.cur := rfl
@[simp] theorem modThread_slot (s : State) (c n : Nat) (f : Thread → Thread) : (s.modThread c n f).slot = s.slot := rfl
@[simp] theorem modThread_mem (s : State) (c n : Nat) (f : Thread → Thread) : (s.modThread c n f).mem = s.mem := rfl
@[simp] theorem modThread_poison (s : State) (c n : Nat) (f : Thread → Thread) : (s.modThread c n f).poison = s.poison := rfl
@[simp] theorem modThread_resvs (s : State) (c n : Nat) (f : Thread → Thread) : (s.modThread c n f).resvs = s.resvs := rfl
@[simp] theorem modThread_clock (s : State) (c n : Nat) (f : Thread → Thread) : (s.modThread c n f).clock = s.clock := rfl
@[simp] theorem modThread_ticks (s : State) (c n : Nat) (f : Thread → Thread) : (s.modThread c n f).ticks = s.ticks := rfl
@[simp] theorem modThread_mbs (s : State) (c n : Nat) (f : Thread → Thread) : (s.modThread c n f).mbs = s.mbs := rfl
@[simp] theorem modThread_snaps (s : State) (c n : Nat) (f : Thread → Thread) : (s.modThread c n f).snaps = s.snaps := rfl
@[simp] theorem modThread_gustPool (s : State) (c n : Nat) (f : Thread → Thread) : (s.modThread c n f).gustPool = s.gustPool := rfl
@[simp] theorem modThread_gusts (s : State) (c n : Nat) (f : Thread → Thread) : (s.modThread c n f).gusts = s.gusts := rfl
@[simp] theorem modThread_spare (s : State) (c n : Nat) (f : Thread → Thread) : (s.modThread c n f).spare = s.spare := rfl
@[simp] theorem modThread_streams (s : State) (c n : Nat) (f : Thread → Thread) : (s.modThread c n f).streams = s.streams := rfl
@[simp] theorem modThread_egress (s : State) (c n : Nat) (f : Thread → Thread) : (s.modThread c n f).egress = s.egress := rfl
@[simp] theorem modThread_macFree (s : State) (c n : Nat) (f : Thread → Thread) : (s.modThread c n f).macFree = s.macFree := rfl
@[simp] theorem modThread_gen (s : State) (c n : Nat) (f : Thread → Thread) : (s.modThread c n f).gen = s.gen := rfl
@[simp] theorem modThread_queue (s : State) (c n : Nat) (f : Thread → Thread) : (s.modThread c n f).queue = s.queue := rfl
@[simp] theorem modThread_queuePort (s : State) (c n : Nat) (f : Thread → Thread) : (s.modThread c n f).queuePort = s.queuePort := rfl
@[simp] theorem modThread_claimers (s : State) (c n : Nat) (f : Thread → Thread) : (s.modThread c n f).claimers = s.claimers := rfl
@[simp] theorem modThread_slices (s : State) (c n : Nat) (f : Thread → Thread) : (s.modThread c n f).slices = s.slices := rfl
@[simp] theorem modThread_queues (s : State) (c n : Nat) (f : Thread → Thread) : (s.modThread c n f).queues = s.queues := rfl
@[simp] theorem modThread_lastQueue (s : State) (c n : Nat) (f : Thread → Thread) : (s.modThread c n f).lastQueue = s.lastQueue := rfl
@[simp] theorem modThread_programs (s : State) (c n : Nat) (f : Thread → Thread) : (s.modThread c n f).programs = s.programs := rfl
@[simp] theorem modThread_handles (s : State) (c n : Nat) (f : Thread → Thread) : (s.modThread c n f).handles = s.handles := rfl
@[simp] theorem modThread_frames (s : State) (c n : Nat) (f : Thread → Thread) : (s.modThread c n f).frames = s.frames := rfl
@[simp] theorem modThread_frameSeq (s : State) (c n : Nat) (f : Thread → Thread) : (s.modThread c n f).frameSeq = s.frameSeq := rfl
@[simp] theorem modThread_contexts (s : State) (c n : Nat) (f : Thread → Thread) : (s.modThread c n f).contexts = s.contexts := rfl
@[simp] theorem modThread_gens (s : State) (c n : Nat) (f : Thread → Thread) : (s.modThread c n f).gens = s.gens := rfl
@[simp] theorem modThread_gangs (s : State) (c n : Nat) (f : Thread → Thread) : (s.modThread c n f).gangs = s.gangs := rfl
@[simp] theorem modThread_gangPort (s : State) (c n : Nat) (f : Thread → Thread) : (s.modThread c n f).gangPort = s.gangPort := rfl
@[simp] theorem modThread_parts (s : State) (c n : Nat) (f : Thread → Thread) : (s.modThread c n f).parts = s.parts := rfl
@[simp] theorem modThread_errq (s : State) (c n : Nat) (f : Thread → Thread) : (s.modThread c n f).errq = s.errq := rfl
@[simp] theorem modThread_squall (s : State) (c n : Nat) (f : Thread → Thread) : (s.modThread c n f).squall = s.squall := rfl
@[simp] theorem modThread_shed (s : State) (c n : Nat) (f : Thread → Thread) : (s.modThread c n f).shed = s.shed := rfl
@[simp] theorem modThread_boot (s : State) (c n : Nat) (f : Thread → Thread) : (s.modThread c n f).boot = s.boot := rfl
@[simp] theorem modThread_link (s : State) (c n : Nat) (f : Thread → Thread) : (s.modThread c n f).link = s.link := rfl
@[simp] theorem modThread_flight (s : State) (c n : Nat) (f : Thread → Thread) : (s.modThread c n f).flight = s.flight := rfl
@[simp] theorem modThread_services (s : State) (c n : Nat) (f : Thread → Thread) : (s.modThread c n f).services = s.services := rfl
@[simp] theorem modThread_shootdowns (s : State) (c n : Nat) (f : Thread → Thread) : (s.modThread c n f).shootdowns = s.shootdowns := rfl
@[simp] theorem modThread_fatal (s : State) (c n : Nat) (f : Thread → Thread) : (s.modThread c n f).fatal = s.fatal := rfl

/-! `modTh` changes cores only. -/

@[simp] theorem modTh_agenda (s : State) (f : Thread → Thread) : (s.modTh f).agenda = s.agenda := rfl
@[simp] theorem modTh_cur (s : State) (f : Thread → Thread) : (s.modTh f).cur = s.cur := rfl
@[simp] theorem modTh_slot (s : State) (f : Thread → Thread) : (s.modTh f).slot = s.slot := rfl
@[simp] theorem modTh_mem (s : State) (f : Thread → Thread) : (s.modTh f).mem = s.mem := rfl
@[simp] theorem modTh_poison (s : State) (f : Thread → Thread) : (s.modTh f).poison = s.poison := rfl
@[simp] theorem modTh_resvs (s : State) (f : Thread → Thread) : (s.modTh f).resvs = s.resvs := rfl
@[simp] theorem modTh_clock (s : State) (f : Thread → Thread) : (s.modTh f).clock = s.clock := rfl
@[simp] theorem modTh_ticks (s : State) (f : Thread → Thread) : (s.modTh f).ticks = s.ticks := rfl
@[simp] theorem modTh_mbs (s : State) (f : Thread → Thread) : (s.modTh f).mbs = s.mbs := rfl
@[simp] theorem modTh_snaps (s : State) (f : Thread → Thread) : (s.modTh f).snaps = s.snaps := rfl
@[simp] theorem modTh_gustPool (s : State) (f : Thread → Thread) : (s.modTh f).gustPool = s.gustPool := rfl
@[simp] theorem modTh_gusts (s : State) (f : Thread → Thread) : (s.modTh f).gusts = s.gusts := rfl
@[simp] theorem modTh_spare (s : State) (f : Thread → Thread) : (s.modTh f).spare = s.spare := rfl
@[simp] theorem modTh_streams (s : State) (f : Thread → Thread) : (s.modTh f).streams = s.streams := rfl
@[simp] theorem modTh_egress (s : State) (f : Thread → Thread) : (s.modTh f).egress = s.egress := rfl
@[simp] theorem modTh_macFree (s : State) (f : Thread → Thread) : (s.modTh f).macFree = s.macFree := rfl
@[simp] theorem modTh_gen (s : State) (f : Thread → Thread) : (s.modTh f).gen = s.gen := rfl
@[simp] theorem modTh_queue (s : State) (f : Thread → Thread) : (s.modTh f).queue = s.queue := rfl
@[simp] theorem modTh_queuePort (s : State) (f : Thread → Thread) : (s.modTh f).queuePort = s.queuePort := rfl
@[simp] theorem modTh_claimers (s : State) (f : Thread → Thread) : (s.modTh f).claimers = s.claimers := rfl
@[simp] theorem modTh_slices (s : State) (f : Thread → Thread) : (s.modTh f).slices = s.slices := rfl
@[simp] theorem modTh_queues (s : State) (f : Thread → Thread) : (s.modTh f).queues = s.queues := rfl
@[simp] theorem modTh_lastQueue (s : State) (f : Thread → Thread) : (s.modTh f).lastQueue = s.lastQueue := rfl
@[simp] theorem modTh_programs (s : State) (f : Thread → Thread) : (s.modTh f).programs = s.programs := rfl
@[simp] theorem modTh_handles (s : State) (f : Thread → Thread) : (s.modTh f).handles = s.handles := rfl
@[simp] theorem modTh_frames (s : State) (f : Thread → Thread) : (s.modTh f).frames = s.frames := rfl
@[simp] theorem modTh_frameSeq (s : State) (f : Thread → Thread) : (s.modTh f).frameSeq = s.frameSeq := rfl
@[simp] theorem modTh_contexts (s : State) (f : Thread → Thread) : (s.modTh f).contexts = s.contexts := rfl
@[simp] theorem modTh_gens (s : State) (f : Thread → Thread) : (s.modTh f).gens = s.gens := rfl
@[simp] theorem modTh_gangs (s : State) (f : Thread → Thread) : (s.modTh f).gangs = s.gangs := rfl
@[simp] theorem modTh_gangPort (s : State) (f : Thread → Thread) : (s.modTh f).gangPort = s.gangPort := rfl
@[simp] theorem modTh_parts (s : State) (f : Thread → Thread) : (s.modTh f).parts = s.parts := rfl
@[simp] theorem modTh_errq (s : State) (f : Thread → Thread) : (s.modTh f).errq = s.errq := rfl
@[simp] theorem modTh_squall (s : State) (f : Thread → Thread) : (s.modTh f).squall = s.squall := rfl
@[simp] theorem modTh_shed (s : State) (f : Thread → Thread) : (s.modTh f).shed = s.shed := rfl
@[simp] theorem modTh_boot (s : State) (f : Thread → Thread) : (s.modTh f).boot = s.boot := rfl
@[simp] theorem modTh_link (s : State) (f : Thread → Thread) : (s.modTh f).link = s.link := rfl
@[simp] theorem modTh_flight (s : State) (f : Thread → Thread) : (s.modTh f).flight = s.flight := rfl
@[simp] theorem modTh_services (s : State) (f : Thread → Thread) : (s.modTh f).services = s.services := rfl
@[simp] theorem modTh_shootdowns (s : State) (f : Thread → Thread) : (s.modTh f).shootdowns = s.shootdowns := rfl
@[simp] theorem modTh_fatal (s : State) (f : Thread → Thread) : (s.modTh f).fatal = s.fatal := rfl

/-! `setX` changes cores only. -/

@[simp] theorem setX_mem (s : State) (r : Reg) (v : Word) : (s.setX r v).mem = s.mem := rfl
@[simp] theorem setX_poison (s : State) (r : Reg) (v : Word) : (s.setX r v).poison = s.poison := rfl
@[simp] theorem setX_resvs (s : State) (r : Reg) (v : Word) : (s.setX r v).resvs = s.resvs := rfl
@[simp] theorem setX_cur (s : State) (r : Reg) (v : Word) : (s.setX r v).cur = s.cur := rfl
@[simp] theorem setX_slot (s : State) (r : Reg) (v : Word) : (s.setX r v).slot = s.slot := rfl
@[simp] theorem setX_clock (s : State) (r : Reg) (v : Word) : (s.setX r v).clock = s.clock := rfl
@[simp] theorem setX_flight (s : State) (r : Reg) (v : Word) : (s.setX r v).flight = s.flight := rfl
@[simp] theorem setX_agenda (s : State) (r : Reg) (v : Word) : (s.setX r v).agenda = s.agenda := rfl

/-! `setP` changes cores only. -/

@[simp] theorem setP_mem (s : State) (r : Reg) (v : Dword) : (s.setP r v).mem = s.mem := rfl
@[simp] theorem setP_poison (s : State) (r : Reg) (v : Dword) : (s.setP r v).poison = s.poison := rfl
@[simp] theorem setP_resvs (s : State) (r : Reg) (v : Dword) : (s.setP r v).resvs = s.resvs := rfl
@[simp] theorem setP_cur (s : State) (r : Reg) (v : Dword) : (s.setP r v).cur = s.cur := rfl
@[simp] theorem setP_slot (s : State) (r : Reg) (v : Dword) : (s.setP r v).slot = s.slot := rfl
@[simp] theorem setP_clock (s : State) (r : Reg) (v : Dword) : (s.setP r v).clock = s.clock := rfl
@[simp] theorem setP_flight (s : State) (r : Reg) (v : Dword) : (s.setP r v).flight = s.flight := rfl
@[simp] theorem setP_agenda (s : State) (r : Reg) (v : Dword) : (s.setP r v).agenda = s.agenda := rfl

/-! `setK` changes cores only. -/

@[simp] theorem setK_mem (s : State) (r : BitVec 3) (v : Word) : (s.setK r v).mem = s.mem := rfl
@[simp] theorem setK_poison (s : State) (r : BitVec 3) (v : Word) : (s.setK r v).poison = s.poison := rfl
@[simp] theorem setK_resvs (s : State) (r : BitVec 3) (v : Word) : (s.setK r v).resvs = s.resvs := rfl
@[simp] theorem setK_cur (s : State) (r : BitVec 3) (v : Word) : (s.setK r v).cur = s.cur := rfl
@[simp] theorem setK_slot (s : State) (r : BitVec 3) (v : Word) : (s.setK r v).slot = s.slot := rfl
@[simp] theorem setK_clock (s : State) (r : BitVec 3) (v : Word) : (s.setK r v).clock = s.clock := rfl
@[simp] theorem setK_flight (s : State) (r : BitVec 3) (v : Word) : (s.setK r v).flight = s.flight := rfl
@[simp] theorem setK_agenda (s : State) (r : BitVec 3) (v : Word) : (s.setK r v).agenda = s.agenda := rfl

/-! `modCsr` changes cores only. -/

@[simp] theorem modCsr_mem (s : State) (f : Csrs → Csrs) : (s.modCsr f).mem = s.mem := rfl
@[simp] theorem modCsr_poison (s : State) (f : Csrs → Csrs) : (s.modCsr f).poison = s.poison := rfl
@[simp] theorem modCsr_resvs (s : State) (f : Csrs → Csrs) : (s.modCsr f).resvs = s.resvs := rfl
@[simp] theorem modCsr_cur (s : State) (f : Csrs → Csrs) : (s.modCsr f).cur = s.cur := rfl
@[simp] theorem modCsr_slot (s : State) (f : Csrs → Csrs) : (s.modCsr f).slot = s.slot := rfl
@[simp] theorem modCsr_clock (s : State) (f : Csrs → Csrs) : (s.modCsr f).clock = s.clock := rfl
@[simp] theorem modCsr_flight (s : State) (f : Csrs → Csrs) : (s.modCsr f).flight = s.flight := rfl
@[simp] theorem modCsr_agenda (s : State) (f : Csrs → Csrs) : (s.modCsr f).agenda = s.agenda := rfl

/-! `setPc` and `setV` change one part of the bank. -/

@[simp] theorem Thread.setPc_other (t : Thread) (v : Dword) : (t.setPc v).other = t.other := rfl
@[simp] theorem Thread.setV_other (t : Thread) (r : Nat) (v : Vec) : (t.setV r v).other = t.other := rfl
@[simp] theorem Thread.setPc_csr (t : Thread) (v : Dword) : (t.setPc v).csr = t.csr := rfl
@[simp] theorem Thread.setV_csr (t : Thread) (r : Nat) (v : Vec) : (t.setV r v).csr = t.csr := rfl
@[simp] theorem Thread.setPc_run (t : Thread) (v : Dword) : (t.setPc v).run = t.run := rfl
@[simp] theorem Thread.setV_run (t : Thread) (r : Nat) (v : Vec) : (t.setV r v).run = t.run := rfl
@[simp] theorem Thread.setPc_act (t : Thread) (v : Dword) : (t.setPc v).act = t.act := rfl
@[simp] theorem Thread.setV_act (t : Thread) (r : Nat) (v : Vec) : (t.setV r v).act = t.act := rfl
@[simp] theorem Thread.setPc_shadow (t : Thread) (v : Dword) : (t.setPc v).shadow = t.shadow := rfl
@[simp] theorem Thread.setV_shadow (t : Thread) (r : Nat) (v : Vec) : (t.setV r v).shadow = t.shadow := rfl
@[simp] theorem Thread.setPc_pfx (t : Thread) (v : Dword) : (t.setPc v).pfx = t.pfx := rfl
@[simp] theorem Thread.setV_pfx (t : Thread) (r : Nat) (v : Vec) : (t.setV r v).pfx = t.pfx := rfl
@[simp] theorem Thread.setPc_sp (t : Thread) (v : Dword) : (t.setPc v).sp = t.sp := rfl
@[simp] theorem Thread.setV_sp (t : Thread) (r : Nat) (v : Vec) : (t.setV r v).sp = t.sp := rfl
@[simp] theorem Thread.setPc_ic (t : Thread) (v : Dword) : (t.setPc v).ic = t.ic := rfl
@[simp] theorem Thread.setV_ic (t : Thread) (r : Nat) (v : Vec) : (t.setV r v).ic = t.ic := rfl
@[simp] theorem Thread.setPc_lc (t : Thread) (v : Dword) : (t.setPc v).lc = t.lc := rfl
@[simp] theorem Thread.setV_lc (t : Thread) (r : Nat) (v : Vec) : (t.setV r v).lc = t.lc := rfl
@[simp] theorem Thread.setPc_safePt (t : Thread) (v : Dword) : (t.setPc v).safePt = t.safePt := rfl
@[simp] theorem Thread.setV_safePt (t : Thread) (r : Nat) (v : Vec) : (t.setV r v).safePt = t.safePt := rfl
@[simp] theorem Thread.setPc_sbuf (t : Thread) (v : Dword) : (t.setPc v).sbuf = t.sbuf := rfl
@[simp] theorem Thread.setV_sbuf (t : Thread) (r : Nat) (v : Vec) : (t.setV r v).sbuf = t.sbuf := rfl
@[simp] theorem Thread.setPc_effCls (t : Thread) (v : Dword) : (t.setPc v).effCls = t.effCls := rfl
@[simp] theorem Thread.setV_effCls (t : Thread) (r : Nat) (v : Vec) : (t.setV r v).effCls = t.effCls := rfl
@[simp] theorem Thread.setPc_walk (t : Thread) (v : Dword) : (t.setPc v).walk = t.walk := rfl
@[simp] theorem Thread.setV_walk (t : Thread) (r : Nat) (v : Vec) : (t.setV r v).walk = t.walk := rfl
@[simp] theorem Thread.setPc_fault (t : Thread) (v : Dword) : (t.setPc v).fault = t.fault := rfl
@[simp] theorem Thread.setV_fault (t : Thread) (r : Nat) (v : Vec) : (t.setV r v).fault = t.fault := rfl
@[simp] theorem Thread.setPc_faultPfx (t : Thread) (v : Dword) : (t.setPc v).faultPfx = t.faultPfx := rfl
@[simp] theorem Thread.setV_faultPfx (t : Thread) (r : Nat) (v : Vec) : (t.setV r v).faultPfx = t.faultPfx := rfl
@[simp] theorem Thread.setPc_answer (t : Thread) (v : Dword) : (t.setPc v).answer = t.answer := rfl
@[simp] theorem Thread.setV_answer (t : Thread) (r : Nat) (v : Vec) : (t.setV r v).answer = t.answer := rfl
@[simp] theorem Thread.setPc_timer (t : Thread) (v : Dword) : (t.setPc v).timer = t.timer := rfl
@[simp] theorem Thread.setV_timer (t : Thread) (r : Nat) (v : Vec) : (t.setV r v).timer = t.timer := rfl
@[simp] theorem Thread.setPc_wake (t : Thread) (v : Dword) : (t.setPc v).wake = t.wake := rfl
@[simp] theorem Thread.setV_wake (t : Thread) (r : Nat) (v : Vec) : (t.setV r v).wake = t.wake := rfl
@[simp] theorem Thread.setPc_parked (t : Thread) (v : Dword) : (t.setPc v).parked = t.parked := rfl
@[simp] theorem Thread.setV_parked (t : Thread) (r : Nat) (v : Vec) : (t.setV r v).parked = t.parked := rfl
@[simp] theorem Thread.setPc_privBar (t : Thread) (v : Dword) : (t.setPc v).privBar = t.privBar := rfl
@[simp] theorem Thread.setV_privBar (t : Thread) (r : Nat) (v : Vec) : (t.setV r v).privBar = t.privBar := rfl
@[simp] theorem Thread.setPc_ctr (t : Thread) (v : Dword) : (t.setPc v).ctr = t.ctr := rfl
@[simp] theorem Thread.setV_ctr (t : Thread) (r : Nat) (v : Vec) : (t.setV r v).ctr = t.ctr := rfl
@[simp] theorem Thread.setPc_staged (t : Thread) (v : Dword) : (t.setPc v).staged = t.staged := rfl
@[simp] theorem Thread.setV_staged (t : Thread) (r : Nat) (v : Vec) : (t.setV r v).staged = t.staged := rfl
@[simp] theorem Thread.setPc_abort (t : Thread) (v : Dword) : (t.setPc v).abort = t.abort := rfl
@[simp] theorem Thread.setV_abort (t : Thread) (r : Nat) (v : Vec) : (t.setV r v).abort = t.abort := rfl
@[simp] theorem Thread.setPc_blockedSince (t : Thread) (v : Dword) : (t.setPc v).blockedSince = t.blockedSince := rfl
@[simp] theorem Thread.setV_blockedSince (t : Thread) (r : Nat) (v : Vec) : (t.setV r v).blockedSince = t.blockedSince := rfl
@[simp] theorem Thread.setPc_waitObj (t : Thread) (v : Dword) : (t.setPc v).waitObj = t.waitObj := rfl
@[simp] theorem Thread.setV_waitObj (t : Thread) (r : Nat) (v : Vec) : (t.setV r v).waitObj = t.waitObj := rfl
@[simp] theorem Thread.setPc_skipBreak (t : Thread) (v : Dword) : (t.setPc v).skipBreak = t.skipBreak := rfl
@[simp] theorem Thread.setV_skipBreak (t : Thread) (r : Nat) (v : Vec) : (t.setV r v).skipBreak = t.skipBreak := rfl
@[simp] theorem Thread.setPc_ebkStop (t : Thread) (v : Dword) : (t.setPc v).ebkStop = t.ebkStop := rfl
@[simp] theorem Thread.setV_ebkStop (t : Thread) (r : Nat) (v : Vec) : (t.setV r v).ebkStop = t.ebkStop := rfl
@[simp] theorem Thread.setPc_stopWhy (t : Thread) (v : Dword) : (t.setPc v).stopWhy = t.stopWhy := rfl
@[simp] theorem Thread.setV_stopWhy (t : Thread) (r : Nat) (v : Vec) : (t.setV r v).stopWhy = t.stopWhy := rfl
@[simp] theorem Thread.setPc_stopDue (t : Thread) (v : Dword) : (t.setPc v).stopDue = t.stopDue := rfl
@[simp] theorem Thread.setV_stopDue (t : Thread) (r : Nat) (v : Vec) : (t.setV r v).stopDue = t.stopDue := rfl
@[simp] theorem Thread.setPc_locked (t : Thread) (v : Dword) : (t.setPc v).locked = t.locked := rfl
@[simp] theorem Thread.setV_locked (t : Thread) (r : Nat) (v : Vec) : (t.setV r v).locked = t.locked := rfl
@[simp] theorem Thread.setPc_seenBuf (t : Thread) (v : Dword) : (t.setPc v).seenBuf = t.seenBuf := rfl
@[simp] theorem Thread.setV_seenBuf (t : Thread) (r : Nat) (v : Vec) : (t.setV r v).seenBuf = t.seenBuf := rfl
@[simp] theorem Thread.setPc_vectorDue (t : Thread) (v : Dword) : (t.setPc v).vectorDue = t.vectorDue := rfl
@[simp] theorem Thread.setV_vectorDue (t : Thread) (r : Nat) (v : Vec) : (t.setV r v).vectorDue = t.vectorDue := rfl
@[simp] theorem Thread.setPc_saveKind (t : Thread) (v : Dword) : (t.setPc v).saveKind = t.saveKind := rfl
@[simp] theorem Thread.setV_saveKind (t : Thread) (r : Nat) (v : Vec) : (t.setV r v).saveKind = t.saveKind := rfl
@[simp] theorem Thread.setPc_fetched (t : Thread) (v : Dword) : (t.setPc v).fetched = t.fetched := rfl
@[simp] theorem Thread.setV_fetched (t : Thread) (r : Nat) (v : Vec) : (t.setV r v).fetched = t.fetched := rfl
@[simp] theorem Thread.setPc_freeSince (t : Thread) (v : Dword) : (t.setPc v).freeSince = t.freeSince := rfl
@[simp] theorem Thread.setV_freeSince (t : Thread) (r : Nat) (v : Vec) : (t.setV r v).freeSince = t.freeSince := rfl
@[simp] theorem Thread.setPc_takenAt (t : Thread) (v : Dword) : (t.setPc v).takenAt = t.takenAt := rfl
@[simp] theorem Thread.setV_takenAt (t : Thread) (r : Nat) (v : Vec) : (t.setV r v).takenAt = t.takenAt := rfl
@[simp] theorem Thread.setPc_retiredAt (t : Thread) (v : Dword) : (t.setPc v).retiredAt = t.retiredAt := rfl
@[simp] theorem Thread.setV_retiredAt (t : Thread) (r : Nat) (v : Vec) : (t.setV r v).retiredAt = t.retiredAt := rfl
@[simp] theorem Thread.setPc_bank_x (t : Thread) (v : Dword) : (t.setPc v).bank.x = t.bank.x := rfl
@[simp] theorem Thread.setPc_bank_v (t : Thread) (v : Dword) : (t.setPc v).bank.v = t.bank.v := rfl
@[simp] theorem Thread.setPc_bank_k (t : Thread) (v : Dword) : (t.setPc v).bank.k = t.bank.k := rfl
@[simp] theorem Thread.setPc_bank_m (t : Thread) (v : Dword) : (t.setPc v).bank.m = t.bank.m := rfl
@[simp] theorem Thread.setPc_bank_e (t : Thread) (v : Dword) : (t.setPc v).bank.e = t.bank.e := rfl
@[simp] theorem Thread.setPc_pc (t : Thread) (v : Dword) : (t.setPc v).bank.pc = v := rfl

/-! Reading a core or a thread after an update. -/

theorem core_setCore (s : State) (c q : Nat) (k : Core) : (s.setCore c k).core q = if q = c then k else s.core q := by
  by_cases h : q = c
  · subst h; simp [State.core, State.setCore]
  · simp [State.core, State.setCore, h, FMap.get_put_other _ _ _ h]

@[simp] theorem core_setCore_same (s : State) (c : Nat) (k : Core) : (s.setCore c k).core c = k := by simp [core_setCore]

theorem core_modCore (s : State) (c q : Nat) (f : Core → Core) :
    (s.modCore c f).core q = if q = c then f (s.core c) else s.core q := core_setCore s c q _

theorem coreThread_setThread (k : Core) (n m : Nat) (t : Thread) :
    (k.setThread n t).thread m = if m = n then t else k.thread m := FMap.get_put _ _ _ _ _

/-- Everything a read of a thread after an update of a thread answers. -/
theorem thread_setThread (s : State) (c n d m : Nat) (t : Thread) :
    (s.setThread c n t).thread d m = if d = c ∧ m = n then t else s.thread d m := by
  unfold State.thread State.setThread
  rw [core_setCore]
  by_cases hd : d = c
  · subst hd
    rw [if_pos rfl, coreThread_setThread]
    by_cases hm : m = n <;> simp [hm]
  · simp [hd]

theorem thread_modThread (s : State) (c n d m : Nat) (f : Thread → Thread) :
    (s.modThread c n f).thread d m = if d = c ∧ m = n then f (s.thread c n) else s.thread d m := thread_setThread s c n d m _

@[simp] theorem th_modTh (s : State) (f : Thread → Thread) : (s.modTh f).th = f s.th := by
  show (s.setThread s.cur s.slot (f s.th)).thread s.cur s.slot = _
  simp [thread_setThread]

/-- Another thread is not touched by an update of the one whose turn it is. -/
theorem thread_modTh_other (s : State) (f : Thread → Thread) {d m : Nat} (h : ¬(d = s.cur ∧ m = s.slot)) :
    (s.modTh f).thread d m = s.thread d m := by
  show (s.setThread s.cur s.slot (f s.th)).thread d m = _
  simp [thread_setThread, h]

end Sys2Proof.Machine
end

