-- ==== Sys2Proof/Laws/Ops.lean ====
section
/-! SUPPORT. What the shared operations of the instructions do: issuing one, an event, a retirement, a stop, a flag, a trap. -/

namespace Sys2Proof.Machine

/-! Issuing. -/

/-- Issuing an instruction whose checks pass answers what its meaning answers. -/
theorem issue_admitted {i : Instr} {body : State → Res} {s : State} (h : s.refuses i = none) :
    issue i body s = .next (s.finish (body s)) := by
  simp [issue, h]

/-- Issuing an instruction that a check refuses traps; an illegal prefix traps as governed by itself. -/
theorem issue_refused {i : Instr} {body : State → Res} {s : State} {code : Nat} {tval : Dword}
    (h : s.refuses i = some (code, tval)) :
    issue i body s =
      .next (if isPfx i && code == causeIllegal then s.pfxTrap tval else s.finish (.trap code tval s)) := by
  simp only [issue, h]
  split <;> rfl

/-- An issued instruction always answers a next state. -/
theorem issue_next (i : Instr) (body : State → Res) (s : State) : ∃ t, issue i body s = .next t := by
  unfold issue
  split
  · split <;> exact ⟨_, rfl⟩
  · exact ⟨_, rfl⟩

/-- An event whose units exist answers its effect, and no other event exists. -/
theorem event_eq (ok : Bool) (body : State → State) (s : State) :
    event ok body s = if ok = true then .next (body s) else .fault .malformedEvent := rfl

/-! Retiring. -/

@[simp] theorem retire_run (t : Thread) (pc : Dword) (sp : Bool) : (t.retire pc sp).run = .ready := rfl

@[simp] theorem retire_pfx (t : Thread) (pc : Dword) (sp : Bool) : (t.retire pc sp).pfx = none := rfl

@[simp] theorem retire_sp (t : Thread) (pc : Dword) (sp : Bool) : (t.retire pc sp).sp = sp := rfl

@[simp] theorem retire_pc (t : Thread) (pc : Dword) (sp : Bool) : (t.retire pc sp).bank.pc = pc := rfl

@[simp] theorem retire_csr (t : Thread) (pc : Dword) (sp : Bool) : (t.retire pc sp).csr = t.csr := rfl

@[simp] theorem retire_act (t : Thread) (pc : Dword) (sp : Bool) : (t.retire pc sp).act = t.act := rfl

@[simp] theorem retire_stopWhy (t : Thread) (pc : Dword) (sp : Bool) : (t.retire pc sp).stopWhy = t.stopWhy := rfl

@[simp] theorem retire_other (t : Thread) (pc : Dword) (sp : Bool) : (t.retire pc sp).other = t.other := rfl

@[simp] theorem retire_sbuf (t : Thread) (pc : Dword) (sp : Bool) : (t.retire pc sp).sbuf = t.sbuf := rfl

@[simp] theorem retire_getX (t : Thread) (pc : Dword) (sp : Bool) (r : Nat) : (t.retire pc sp).getX r = t.getX r := rfl

@[simp] theorem retire_getV (t : Thread) (pc : Dword) (sp : Bool) (r : Nat) : (t.retire pc sp).getV r = t.getV r := rfl

@[simp] theorem retire_getK (t : Thread) (pc : Dword) (sp : Bool) (r : Nat) : (t.retire pc sp).getK r = t.getK r := rfl

@[simp] theorem retire_getM (t : Thread) (pc : Dword) (sp : Bool) (r : Nat) : (t.retire pc sp).getM r = t.getM r := rfl

@[simp] theorem retire_getE (t : Thread) (pc : Dword) (sp : Bool) (r : Nat) : (t.retire pc sp).getE r = t.getE r := rfl

/-! Performance counters change cores only, and no thread. -/

@[simp] theorem tally_cx (k : Core) (code n : Nat) : (k.tally code n).cx = k.cx := by
  unfold Core.tally; split <;> rfl

theorem pm_eq (s : State) (c code n : Nat) : ∃ k, s.pm c code n = { s with cores := k } := by
  unfold State.pm
  simp only
  split
  · exact ⟨s.cores, rfl⟩
  · exact ⟨_, rfl⟩

@[simp] theorem pm_mem (s : State) (c code n : Nat) : (s.pm c code n).mem = s.mem := by
  obtain ⟨k, h⟩ := pm_eq s c code n; rw [h]

@[simp] theorem pm_thread (s : State) (c code n d m : Nat) : (s.pm c code n).thread d m = s.thread d m := by
  unfold State.pm
  simp only
  split
  · rfl
  · unfold State.thread
    rw [core_setCore]
    by_cases h : d = c
    · subst h; simp [Core.thread]
    · simp [h]

/-- A retirement without a pending debug stop is the count of the instruction and the note of its moment. -/
theorem retired_go {s : State} {c n k : Nat} (h : (s.thread c n).stopWhy = 0) :
    s.retired c n k = (s.pm c 0x02 k).modThread c n (·.noteRetired s.clock.cc k) := by
  have hc : (s.pm c 0x02 k).clock = s.clock := by obtain ⟨j, hj⟩ := pm_eq s c 0x02 k; rw [hj]
  unfold State.retired
  simp only [hc]
  rw [if_pos (by simp [thread_modThread, pm_thread, Thread.noteRetired, h])]

/-- A retirement without a pending debug stop changes cores only. -/
theorem retired_eq {s : State} {c n w : Nat} (h : (s.thread c n).stopWhy = 0) :
    ∃ k, s.retired c n w = { s with cores := k } := by
  obtain ⟨k, hk⟩ := pm_eq s c 0x02 w
  rw [retired_go h, hk]
  exact ⟨_, rfl⟩

theorem retired_mem {s : State} {c n w : Nat} (h : (s.thread c n).stopWhy = 0) : (s.retired c n w).mem = s.mem := by
  obtain ⟨k, hk⟩ := retired_eq h
  rw [hk]

/-- A retirement without a pending debug stop changes at most the count of retired instructions of its own thread and the
moment of the last one. -/
theorem retired_thread {s : State} {c n w : Nat} (h : (s.thread c n).stopWhy = 0) (d m : Nat) :
    ∃ a cc, (s.retired c n w).thread d m = { s.thread d m with act := a, retiredAt := cc } := by
  rw [retired_go h, thread_modThread]
  by_cases hd : d = c ∧ m = n
  · obtain ⟨rfl, rfl⟩ := hd
    simp only [pm_thread, and_self, if_true]
    exact ⟨_, _, rfl⟩
  · exact ⟨(s.thread d m).act, (s.thread d m).retiredAt, by simp [hd, pm_thread]⟩

/-! Flags, reservations and traps. -/

@[simp] theorem flag_mem (s : State) (f : FlagSet) : (s.flag f).mem = s.mem := rfl

@[simp] theorem flag_fflags (s : State) (f : FlagSet) : (s.flag f).th.csr.fflags = s.th.csr.fflags ||| f := by
  simp [State.flag, State.modCsr]

@[simp] theorem dropResv_mem (s : State) (c n : Nat) : (s.dropResv c n).mem = s.mem := rfl

@[simp] theorem dropResv_cores (s : State) (c n : Nat) : (s.dropResv c n).cores = s.cores := rfl

@[simp] theorem dropResv_thread (s : State) (c n d m : Nat) : (s.dropResv c n).thread d m = s.thread d m := rfl

/-- Taking a prefix back moves pc to it and does nothing else. -/
theorem rewind_cases (t : Thread) :
    (t.pfx = none ∧ t.rewind = t) ∨ (t.pfx ≠ none ∧ t.rewind = { t.setPc (t.bank.pc - 4) with pfx := none }) := by
  unfold Thread.rewind
  cases h : t.pfx <;> simp

/-- Entering the vector, where there is one that does not fault, goes to the handler's address (R301). -/
theorem enterVector_go {s : State} {c n : Nat} (h1 : (s.thread c n).csr.tvec ≠ 0)
    (h2 : (s.modThread c n fun t => { t with vectorDue := false }).vectorFaults c n (s.thread c n).csr.tvec = false) :
    s.enterVector c n = (s.modThread c n fun t => { t with vectorDue := false }).modThread c n fun t =>
      { t.setPc (s.thread c n).csr.tvec with run := .ready } := by
  have h3 : decide ((s.thread c n).csr.tvec = 0) = false := decide_eq_false h1
  simp only [State.enterVector, h2, h3, Bool.or_self, Bool.false_eq_true, if_false]
  simp only [State.modThread, thread_setThread, and_self, if_true, Thread.setPc]

/-! Steps. -/

/-- A step on an event of the schedule is that event, on the state that time has moved on in. -/
theorem step_event {s : State} {i : Instr} {rest : List Turn} (h : s.agenda = .event i :: rest) (hi : groupOf i = .event) :
    step s = exec i ({ s with agenda := rest } : State).advance := by
  simp [step, h, runTurn, hi]

@[simp] theorem advance_mem (s : State) : s.advance.mem = s.mem := rfl

@[simp] theorem advance_agenda (s : State) : s.advance.agenda = s.agenda := rfl

end Sys2Proof.Machine
end

