-- ==== Sys2Proof/Laws/Exit.lean ====
section
/-! SUPPORT. What the end of an activation leaves and takes: each operation of R394, and an `exit` as a whole. -/

namespace Sys2Proof.Machine

/-- Two cores differ in the bound ends of channels and in counts and records alone. -/
structure CoreButEnds (k j : Core) : Prop where
  cx : ∃ b, k.cx = { j.cx with bounds := b }
  saved : k.saved.isNone = j.saved.isNone
  dbg : k.dbg = j.dbg
  succQ : k.succQ = j.succQ


theorem CoreButEnds.refl (k : Core) : CoreButEnds k k := ⟨⟨k.cx.bounds, rfl⟩, rfl, rfl, rfl⟩
theorem CoreButEnds.trans {a b c : Core} (h : CoreButEnds a b) (g : CoreButEnds b c) : CoreButEnds a c := by
  obtain ⟨⟨x, hx⟩, h2, h3, h4⟩ := h
  obtain ⟨⟨y, hy⟩, g2, g3, g4⟩ := g
  exact ⟨⟨x, by rw [hx, hy]⟩, h2.trans g2, h3.trans g3, h4.trans g4⟩

theorem modEnds_beside (k : Core) (g : Bool) (f : List Bound → List Bound) : CoreButEnds (k.modEnds g f) k := by
  unfold Core.modEnds Core.modCtx
  split
  · split
    · exact ⟨⟨_, rfl⟩, rfl, rfl, rfl⟩
    · exact .refl _
  · split
    · rename_i h
      exact ⟨⟨k.cx.bounds, rfl⟩, by simp [h], rfl, rfl⟩
    · exact ⟨⟨_, rfl⟩, rfl, rfl, rfl⟩

/-- Two states whose cores differ so, with the same gangs, queues and reservations. -/
structure SameButEnds (t s : State) : Prop where
  resvs : t.resvs = s.resvs
  gangs : t.gangs = s.gangs
  gusts : t.gusts = s.gusts
  queues : t.queues = s.queues
  gangPort : t.gangPort = s.gangPort
  core : ∀ d, CoreButEnds (t.core d) (s.core d)

theorem SameButEnds.refl (s : State) : SameButEnds s s := ⟨rfl, rfl, rfl, rfl, rfl, fun _ => .refl _⟩
theorem SameButEnds.trans {a b c : State} (h : SameButEnds a b) (g : SameButEnds b c) : SameButEnds a c :=
  ⟨h.1.trans g.1, h.2.trans g.2, h.3.trans g.3, h.4.trans g.4, h.5.trans g.5, fun d => (h.6 d).trans (g.6 d)⟩

theorem unlinkEnd_beside (s : State) (c : Nat) (b : Bound) : SameButEnds (s.unlinkEnd c b) s := by
  unfold State.unlinkEnd
  split
  · refine ⟨rfl, rfl, rfl, rfl, rfl, fun d => ?_⟩
    simp only [State.modEnd, core_modCore]
    split
    · rename_i h; subst h; exact modEnds_beside _ _ _
    · exact .refl _
  · exact .refl _

/-- The ends opposite to a slot's channel ends are unlinked, and nothing else changes. -/
theorem unlinkSlot_beside (s : State) (c n : Nat) : SameButEnds (s.unlinkSlot c n) s := by
  unfold State.unlinkSlot
  generalize (s.core c).cx.bounds.filter (·.slot == n) = l
  induction l generalizing s with
  | nil => exact .refl _
  | cons b l ih => exact (ih _).trans (unlinkEnd_beside s c b)

/-- A copy of a keep region for the spare changes only what is to be sent to it. -/
theorem mirrorKeep_keeps (s : State) (c n : Nat) :
    (∀ d, (s.mirrorKeep c n).core d = s.core d) ∧ (s.mirrorKeep c n).resvs = s.resvs ∧ (s.mirrorKeep c n).gangs = s.gangs ∧
    (s.mirrorKeep c n).gusts = s.gusts ∧ (s.mirrorKeep c n).queues = s.queues ∧ (s.mirrorKeep c n).gangPort = s.gangPort := by
  unfold State.mirrorKeep
  dsimp only
  repeat' split
  all_goals exact ⟨fun _ => rfl, rfl, rfl, rfl, rfl, rfl⟩

theorem modCore_beside (s : State) (c : Nat) {f : Core → Core} (h : ∀ k, CoreButEnds (f k) k) : SameButEnds (s.modCore c f) s := by
  refine ⟨rfl, rfl, rfl, rfl, rfl, fun d => ?_⟩
  rw [core_modCore]
  split
  · rename_i e; subst e; exact h _
  · exact .refl _

theorem logActivation_beside (s : State) (c n : Nat) (x y : Bool) : SameButEnds (s.logActivation c n x y) s := by
  unfold State.logActivation
  dsimp only
  repeat' split
  all_goals first | exact .refl _ | exact modCore_beside s c fun k => ⟨⟨_, rfl⟩, rfl, rfl, rfl⟩

/-- Counting an event changes only its counters. -/
theorem pm_keeps (s : State) (c code n : Nat) :
    (∀ d, ((s.pm c code n).core d).cx = (s.core d).cx ∧ ((s.pm c code n).core d).saved = (s.core d).saved ∧
      ((s.pm c code n).core d).dbg = (s.core d).dbg ∧ ((s.pm c code n).core d).succQ = (s.core d).succQ) ∧
    (s.pm c code n).resvs = s.resvs ∧ (s.pm c code n).gangs = s.gangs ∧ (s.pm c code n).gusts = s.gusts ∧
    (s.pm c code n).queues = s.queues ∧ (s.pm c code n).gangPort = s.gangPort := by
  unfold State.pm
  dsimp only
  split
  · exact ⟨fun _ => ⟨rfl, rfl, rfl, rfl⟩, rfl, rfl, rfl, rfl, rfl⟩
  · refine ⟨fun d => ?_, rfl, rfl, rfl, rfl, rfl⟩
    rw [core_setCore]
    split
    · rename_i h; subst h
      unfold Core.tally
      split <;> exact ⟨rfl, rfl, rfl, rfl⟩
    · exact ⟨rfl, rfl, rfl, rfl⟩

/-- Storage is written: cores, gangs and queues stay, and reservations only go. -/
structure Stores (t s : State) : Prop where
  cores : t.cores = s.cores
  gangs : t.gangs = s.gangs
  queues : t.queues = s.queues
  gangPort : t.gangPort = s.gangPort
  resvs : ∀ e ∈ t.resvs, e ∈ s.resvs

theorem Stores.refl (s : State) : Stores s s := ⟨rfl, rfl, rfl, rfl, fun _ h => h⟩
theorem Stores.trans {a b c : State} (h : Stores a b) (g : Stores b c) : Stores a c :=
  ⟨h.1.trans g.1, h.2.trans g.2, h.3.trans g.3, h.4.trans g.4, fun e he => g.5 e (h.5 e he)⟩

theorem store_stores (s : State) (a : Nat) (l : List Byte) : Stores (s.store a l) s := by
  refine ⟨rfl, rfl, rfl, rfl, fun e he => ?_⟩
  simp only [State.store, State.loseResvs, State.clearPoison] at he
  exact (List.mem_filter.mp he).1

theorem dropWaiters_stores (s : State) (p : Waiter → Bool) : Stores (s.dropWaiters p) s := by
  unfold State.dropWaiters
  dsimp only
  generalize (s.slices.flatMap fun (e : Nat × Slice) => e.2.waiters.filter p) = l
  have : Stores (l.foldl (fun s (w : Waiter) => match w.image with | some a => s.storeNat a 16 0 | none => s) s) s := by
    induction l generalizing s with
    | nil => exact .refl _
    | cons w l ih =>
      rw [List.foldl_cons]
      refine (ih _).trans ?_
      split
      · exact store_stores _ _ _
      · exact .refl _
  exact ⟨this.1, this.2, this.3, this.4, this.5⟩

theorem unpark_stores (s : State) (c n : Nat) : Stores (s.unpark c n) s := by
  have h := dropWaiters_stores { s with claimers := s.claimers.filter fun k => !(k.core == c && k.slot == n) }
    (fun w => w.core == c && w.slot == n)
  exact ⟨h.1, h.2, h.3, h.4, h.5⟩

theorem modSlice_stores (s : State) (n : Nat) (f : Slice → Slice) : Stores (s.modSlice n f) s :=
  ⟨rfl, rfl, rfl, rfl, fun _ h => h⟩

theorem putLine_stores (s : State) (key : Nat) (l : List Byte) : Stores (s.putLine key l) s := by
  unfold State.putLine
  split
  · exact .refl _
  · exact store_stores _ _ _

theorem dropLine_stores (s : State) (n key : Nat) (wb : Bool) : Stores (s.dropLine n key wb) s := by
  unfold State.dropLine
  split
  · exact .refl _
  · refine (modSlice_stores _ _ _).trans ?_
    split
    · exact putLine_stores _ _ _
    · exact .refl _

theorem letGo_stores (s : State) (n key hold : Nat) : Stores (s.letGo n key hold) s := by
  unfold State.letGo
  split
  · exact .refl _
  · split
    · exact .refl _
    · split
      · exact dropLine_stores _ _ _ _
      · exact modSlice_stores _ _ _

theorem zeroFills_stores (c : Nat) (x : Matrix) (l : List Fill) (s : State) :
    Stores (l.foldl (fun s f => s.zeroFill c x f) s) s := by
  induction l generalizing s with
  | nil => exact .refl _
  | cons f l ih => exact (ih _).trans (store_stores _ _ _)

theorem core_stores {t s : State} (h : Stores t s) (d : Nat) : t.core d = s.core d := by
  unfold State.core; rw [h.cores]

/-- Fills that end leave the accumulators, holds and ring of the engine. -/
theorem endFill_keeps (l : List Fill) (x : Matrix) :
    let y := l.foldl Matrix.endFill x
    y.acc = x.acc ∧ y.held = x.held ∧ y.ring = x.ring ∧ y.ringSlot = x.ringSlot ∧ y.running = x.running := by
  induction l generalizing x with
  | nil => simp
  | cons f l ih =>
    obtain ⟨h1, h2, h3, h4, h5⟩ := ih (x.endFill f)
    have e : (x.endFill f).acc = x.acc ∧ (x.endFill f).held = x.held ∧ (x.endFill f).ring = x.ring ∧
        (x.endFill f).ringSlot = x.ringSlot ∧ (x.endFill f).running = x.running := by
      unfold Matrix.endFill Matrix.fillUp Matrix.setBuf
      split <;> simp
    exact ⟨h1.trans e.1, h2.trans e.2.1, h3.trans e.2.2.1, h4.trans e.2.2.2.1, h5.trans e.2.2.2.2⟩

/-- Fills from a slot's bound registers end with it, and their buffers are full. -/
theorem endFills_next (s : State) (c n : Nat) :
    (∀ d, (s.endFills c n false).core d = if d = c then { (s.core c) with cx := { (s.core c).cx with
      mx := ((s.core c).cx.mx.slotFills n).foldl Matrix.endFill (s.core c).cx.mx } } else s.core d) ∧
    (s.endFills c n false).queues = s.queues ∧ (s.endFills c n false).gangPort = s.gangPort ∧
    (s.endFills c n false).gangs = s.gangs ∧ ∀ x ∈ (s.endFills c n false).resvs, x ∈ s.resvs := by
  have hz := zeroFills_stores c (s.core c).cx.mx ((s.core c).cx.mx.slotFills n) s
  unfold State.endFills
  simp only [Bool.false_eq_true, if_false, core_modCore, core_stores hz]
  exact ⟨fun _ => trivial, hz.3, hz.4, hz.2, hz.5⟩

/-- Noting a halt changes the debug reason alone. -/
theorem noteHalt_next (p : State) (c n : Nat) :
    ((p.noteHalt c n).core c).cx = (p.core c).cx ∧ ((p.noteHalt c n).core c).succQ = (p.core c).succQ ∧
    ((p.noteHalt c n).core c).slotcls = (p.core c).slotcls ∧
    (∀ d, d ≠ c → (p.noteHalt c n).core d = p.core d) ∧
    (p.noteHalt c n).resvs = p.resvs ∧ (p.noteHalt c n).queues = p.queues ∧ (p.noteHalt c n).gangPort = p.gangPort ∧
    (p.noteHalt c n).gangs = p.gangs := by
  unfold State.noteHalt
  split
  · exact ⟨by rw [core_modCore, if_pos rfl], by rw [core_modCore, if_pos rfl], by rw [core_modCore, if_pos rfl],
      fun d h => by rw [core_modCore, if_neg h], rfl, rfl, rfl, rfl⟩
  · exact ⟨rfl, rfl, rfl, fun _ _ => rfl, rfl, rfl, rfl, rfl⟩

theorem bounds_end (l : List Bound) (n : Nat) (p : Bound → Bool) :
    ∀ b ∈ (l.filter p).map (fun b => if b.slot = n then { b with slot := 4 + n } else b), b.slot ≠ n := by
  intro b hb
  obtain ⟨x, -, rfl⟩ := List.mem_map.mp hb
  split
  · show 4 + n ≠ n; omega
  · assumption

/-- What the end of an activation leaves of its slot and its tile, and what it takes. -/
theorem coreEndSlot_next (c n : Nat) (a : Activation) (now : Nat) (k : Core) :
    let j := k.endSlot c n a now
    ((j.thread n).act = none ∧ (j.thread n).pfx = none ∧ (j.thread n).staged = [] ∧ (j.thread n).shadow = (k.thread n).shadow ∧
      (j.thread n).run = if k.dbg.haltreq = true ∧ a.kind.isGust = false then .stopped else .idle) ∧
    ((∀ b ∈ j.cx.bounds, b.slot ≠ n) ∧ (∀ e ∈ j.cx.mx.held, e.2 ≠ n) ∧
      j.cx.mx.ring = if k.cx.mx.ringSlot = some n then 0 else k.cx.mx.ring) ∧
    (j.cx.mx.acc = k.cx.mx.acc ∧ j.cx.mx.running = k.cx.mx.running ∧ j.cx.ctr = k.cx.ctr ∧
      (coreType c ≠ .agent → j.cx.timers = k.cx.timers) ∧ j.cx.binds = k.cx.binds ∧ j.cx.clearing = k.cx.clearing) ∧
    j.succQ = k.succQ := by
  intro j
  have ht : j.thread n = { k.thread n with
        run := if k.dbg.haltreq && !a.kind.isGust then .stopped else .idle
        act := none, pfx := none, walk := none, fault := none, timer := none, wake := none, parked := false,
        staged := [], abort := false, safePt := none, skipBreak := false, ebkStop := false, stopWhy := 0, stopDue := false, vectorDue := false,
        saveKind := 0, fetched := [], freeSince := now,
        takenAt := if (k.thread n).shadow.isSome then now else (k.thread n).takenAt } := by
    show (k.endSlot c n a now).thread n = _
    unfold Core.endSlot
    rw [coreThread_setThread, if_pos rfl]
    rfl
  rw [ht]
  refine ⟨⟨rfl, rfl, rfl, rfl, ?_⟩, ⟨bounds_end _ _ _, ?_, rfl⟩, ⟨rfl, rfl, rfl, ?_, rfl, rfl⟩, rfl⟩
  · dsimp only
    cases k.dbg.haltreq <;> cases a.kind.isGust <;> rfl
  · intro e he
    have := (List.mem_filter.mp he).2
    simpa using this
  · intro h
    show (if coreType c = CoreType.agent then _ else _) = _
    rw [if_neg h]; rfl

/-- What a slot's boundary changes: the slot's class, and the clears of bindings that waited for it. -/
theorem boundary_next (s : State) (c n : Nat) :
    let j := (s.boundary c n).core c
    let k := s.core c
    ((j.thread n).act = (k.thread n).act ∧ (j.thread n).pfx = (k.thread n).pfx ∧ (j.thread n).staged = (k.thread n).staged ∧
      (j.thread n).shadow = (k.thread n).shadow ∧ (j.thread n).run = (k.thread n).run) ∧
    j.cx.bounds = k.cx.bounds ∧ j.cx.mx = k.cx.mx ∧ j.cx.ctr = k.cx.ctr ∧ j.cx.timers = k.cx.timers ∧
    (k.cx.clearing = [] → j.cx.binds = k.cx.binds) ∧ j.succQ = k.succQ ∧ ∀ d, d ≠ c → (s.boundary c n).core d = s.core d := by
  intro j k
  let f : Core → Core := fun k =>
    let t := k.thread n
    let k := k.setThread n (t.takeClass (bits k.slotcls.toNat (2 * n) 2) s.clock.now)
    let left := k.cx.clearing.map fun e => (e.1, e.2.filter (· != n))
    let done := (left.filter fun e => e.2.isEmpty).map (·.1)
    { k with cx := { k.cx with
        binds := k.cx.binds.filter fun e => !done.contains e.1
        clearing := left.filter fun e => !e.2.isEmpty } }
  have hj : j = f k := by show (s.modCore c f).core c = _; rw [core_modCore, if_pos rfl]
  have ht : j.thread n = (k.thread n).takeClass (bits k.slotcls.toNat (2 * n) 2) s.clock.now := by
    rw [hj]
    show ((Core.setThread _ n _).thread n) = _
    rw [coreThread_setThread, if_pos rfl]
  refine ⟨by rw [ht]; exact ⟨rfl, rfl, rfl, rfl, rfl⟩, ?_⟩
  rw [hj]
  refine ⟨rfl, rfl, rfl, rfl, ?_, rfl, fun d h => by unfold State.boundary; rw [core_modCore, if_neg h]⟩
  intro h
  refine List.filter_eq_self.mpr fun e _ => ?_
  show (!(List.contains (List.map _ (List.filter _ (List.map _ (s.core c).cx.clearing))) e.1)) = true
  have hc : (s.core c).cx.clearing = [] := h
  rw [hc]; rfl

/-- What the end of an activation at its slot leaves of the core and of the rest. -/
theorem endBack_next (s : State) (c n : Nat) (a : Activation) :
    let u := ((((s.endFills c n false).modCore c fun k => k.endSlot c n a (s.endFills c n false).clock.now).noteHalt c n).boundary c n).unpark c n
    let x := (s.core c).cx
    let y := (u.core c).cx
    let t := u.thread c n
    (t.act = none ∧ t.pfx = none ∧ t.staged = [] ∧ t.shadow = (s.thread c n).shadow ∧
      t.run = if (s.core c).dbg.haltreq = true ∧ a.kind.isGust = false then .stopped else .idle) ∧
    (∀ e ∈ u.resvs, e ∈ s.resvs) ∧
    ((∀ b ∈ y.bounds, b.slot ≠ n) ∧ (∀ e ∈ y.mx.held, e.2 ≠ n) ∧
      y.mx.ring = if x.mx.ringSlot = some n then 0 else x.mx.ring) ∧
    (y.mx.acc = x.mx.acc ∧ y.mx.running = x.mx.running ∧ y.ctr = x.ctr ∧
      (coreType c ≠ .agent → y.timers = x.timers) ∧ (x.clearing = [] → y.binds = x.binds)) ∧
    u.queues = s.queues ∧ u.gangPort = s.gangPort ∧ u.gangs = s.gangs ∧ (u.core c).succQ = (s.core c).succQ ∧
    ∀ d, d ≠ c → u.core d = s.core d := by
  have e := endFills_next s c n
  generalize s.endFills c n false = z at e
  obtain ⟨ec, eq, eg, em, er⟩ := e
  have pc : ∀ d, (z.modCore c fun k => k.endSlot c n a z.clock.now).core d =
      if d = c then (z.core c).endSlot c n a z.clock.now else z.core d := fun d => core_modCore z c d _
  have prr : (z.modCore c fun k => k.endSlot c n a z.clock.now).resvs = z.resvs ∧
      (z.modCore c fun k => k.endSlot c n a z.clock.now).queues = z.queues ∧
      (z.modCore c fun k => k.endSlot c n a z.clock.now).gangPort = z.gangPort ∧
      (z.modCore c fun k => k.endSlot c n a z.clock.now).gangs = z.gangs := ⟨rfl, rfl, rfl, rfl⟩
  have k := coreEndSlot_next c n a z.clock.now (z.core c)
  dsimp only
  generalize (z.modCore c fun k => k.endSlot c n a z.clock.now) = p at *
  have q := noteHalt_next p c n
  generalize p.noteHalt c n = q' at *
  have b := boundary_next q' c n
  have brest : (q'.boundary c n).resvs = q'.resvs ∧ (q'.boundary c n).queues = q'.queues ∧
      (q'.boundary c n).gangPort = q'.gangPort ∧ (q'.boundary c n).gangs = q'.gangs := ⟨rfl, rfl, rfl, rfl⟩
  generalize q'.boundary c n = r at *
  have us := unpark_stores r c n
  have ud := core_stores us
  generalize r.unpark c n = u at *
  simp only [State.thread, ud]
  have e0 := ec c
  rw [if_pos rfl] at e0
  have p0 := pc c
  rw [if_pos rfl] at p0
  obtain ⟨k1, ⟨k2, k3, k4⟩, ⟨k5, k6, k7, k8, k9, k10⟩, k11⟩ := k
  obtain ⟨f1, f2, f3, f4, f5⟩ := endFill_keeps ((s.core c).cx.mx.slotFills n) (s.core c).cx.mx
  have qt : (q'.core c).thread n = (p.core c).thread n := by unfold Core.thread; rw [q.1]
  have zt : (z.core c).thread n = (s.core c).thread n := by rw [e0]; rfl
  obtain ⟨b1, b2, b3, b4, b5, b6, b7, b8⟩ := b
  obtain ⟨q1, q2, q3, q4, q5, q6, q7, q8⟩ := q
  obtain ⟨b11, b12, b13, b14, b15⟩ := b1
  obtain ⟨k11', k12, k13, k14, k15⟩ := k1
  rw [qt, p0] at b11 b12 b13 b14 b15
  rw [q1, p0] at b2 b3 b4 b5 b6
  have zx : (z.core c).cx.mx.acc = (s.core c).cx.mx.acc ∧ (z.core c).cx.mx.running = (s.core c).cx.mx.running ∧
      (z.core c).cx.mx.ring = (s.core c).cx.mx.ring ∧ (z.core c).cx.mx.ringSlot = (s.core c).cx.mx.ringSlot ∧
      (z.core c).cx.ctr = (s.core c).cx.ctr ∧ (z.core c).cx.timers = (s.core c).cx.timers ∧
      (z.core c).cx.binds = (s.core c).cx.binds ∧ (z.core c).cx.clearing = (s.core c).cx.clearing ∧
      (z.core c).dbg = (s.core c).dbg ∧ (z.core c).succQ = (s.core c).succQ := by
    rw [e0]; exact ⟨f1, f5, f3, f4, rfl, rfl, rfl, rfl, rfl, rfl⟩
  obtain ⟨z1, z2, z3, z4, z5, z6, z7, z8, z9, z10⟩ := zx
  refine ⟨⟨b11.trans k11', b12.trans k12, b13.trans k13, ?_, ?_⟩, ?_, ⟨?_, ?_, ?_⟩, ⟨?_, ?_, ?_, ?_, ?_⟩, ?_, ?_, ?_, ?_, ?_⟩
  · rw [b14, k14, zt]
  · rw [b15, k15, z9]
  · intro x hx
    have h := us.5 x hx
    rw [brest.1, q5, prr.1] at h
    exact er x h
  · rw [b2]; exact k2
  · rw [b3]; exact k3
  · rw [b3, k4, z3, z4]
  · rw [b3, k5, z1]
  · rw [b3, k6, z2]
  · rw [b4, k7, z5]
  · intro h; rw [b5, k8 h, z6]
  · intro h
    rw [b6 (by rw [k10, z8, h]), k9, z7]
  · rw [us.3, brest.2.1, q6, prr.2.1, eq]
  · rw [us.4, brest.2.2.1, q7, prr.2.2.1, eg]
  · rw [us.2, brest.2.2.2, q8, prr.2.2.2, em]
  · rw [b7, q2, p0, k11, z10]
  · intro d h; rw [b8 d h, q4 d h, pc, if_neg h, ec, if_neg h]
theorem logActivation_core (s : State) (c n : Nat) (x y : Bool) {d : Nat} (h : d ≠ c) :
    (s.logActivation c n x y).core d = s.core d := by
  unfold State.logActivation
  dsimp only
  repeat' split
  all_goals first | rfl | rw [core_modCore, if_neg h]

/-- What a counter of a tile that the context has not left takes. -/
theorem addTileCounter_next (s : State) (t k : Nat) (v : Word) :
    (∀ d, d ≠ t → (s.addTileCounter t k v).core d = s.core d) ∧
    (s.addTileCounter t k v).gangs = s.gangs ∧ (s.addTileCounter t k v).queues = s.queues ∧
    (s.addTileCounter t k v).gangPort = s.gangPort ∧ (∀ e ∈ (s.addTileCounter t k v).resvs, e ∈ s.resvs) ∧
    (∃ m, ((s.addTileCounter t k v).core t).cx = { (s.core t).cx with ctr := m }) ∧
    ((s.addTileCounter t k v).core t).dbg = (s.core t).dbg ∧ ((s.addTileCounter t k v).core t).succQ = (s.core t).succQ ∧
    ((s.core t).saved = none → ((s.addTileCounter t k v).core t).cx.ctr =
      FMap.set (s.core t).cx.ctr k (FMap.get (s.core t).cx.ctr k 0 + v) 0) := by
  unfold State.addTileCounter
  split
  · rename_i i h
    have hs := store_stores s (ctxLoc t (0x4000 + 4 * k)) (leBytes 4 (FMap.get i.ctr k 0 + v).toNat)
    have hc := core_stores hs
    refine ⟨fun d hd => by rw [core_modCore, if_neg hd]; exact hc d, hs.2, hs.3, hs.4, hs.5, ?_, ?_, ?_, ?_⟩
    · rw [core_modCore, if_pos rfl]
      exact ⟨(s.core t).cx.ctr, by rw [show (s.storeNat _ _ _).core t = s.core t from hc t]⟩
    · rw [core_modCore, if_pos rfl]; show ((s.store _ _).core t).dbg = _; rw [hc t]
    · rw [core_modCore, if_pos rfl]; show ((s.store _ _).core t).succQ = _; rw [hc t]
    · intro h'; rw [h'] at h; cases h
  · refine ⟨fun d hd => by rw [core_modCore, if_neg hd], rfl, rfl, rfl, fun _ h => h, ?_, ?_, ?_, ?_⟩
    all_goals rw [core_modCore, if_pos rfl]
    · exact ⟨_, rfl⟩
    · intro _; rfl

/-- What the end of an activation does beside its slot. -/
theorem endShare_next (w : State) (c n : Nat) (a : Activation) (hb : a.gang.isSome = true → (w.thread c n).sbuf = []) :
    let f := w.endShare c n a .exit
    (∃ b m, (f.core c).cx = { (w.core c).cx with bounds := b, ctr := m }) ∧
    (a.kind.isGust = false → (f.core c).cx.ctr = (w.core c).cx.ctr) ∧
    (f.core c).dbg = (w.core c).dbg ∧ (f.core c).succQ = (w.core c).succQ ∧
    (∀ e ∈ f.resvs, e ∈ FMap.del w.resvs (slotKey c n)) ∧ f.queues = w.queues ∧ f.gangPort = w.gangPort ∧
    (f.gangs = match a.gang with | some p => (w.memberEnds p false).gangs | none => w.gangs) ∧
    ∀ p m, a.kind = .gust p m →
      let r := (FMap.get w.gusts p {}).reg.toNat
      let d := 256 + bits r 110 5
      let k := bits r 104 6
      d ≠ c → (w.core d).saved = none →
        (f.core d).cx.ctr = FMap.set (w.core d).cx.ctr k (FMap.get (w.core d).cx.ctr k 0 + 1) 0 := by
  have h1 := logActivation_beside w c n true (EndKind.exit != EndKind.exit)
  have h1c := fun d (h : d ≠ c) => logActivation_core w c n true (EndKind.exit != EndKind.exit) h
  unfold State.endShare
  generalize w.logActivation c n true (EndKind.exit != EndKind.exit) = s1 at h1 h1c
  dsimp only
  have h2 : ∀ d, ((s1.dropResv c n).dropClaims c n).core d = s1.core d := fun _ => rfl
  have h2r : ((s1.dropResv c n).dropClaims c n).resvs = FMap.del w.resvs (slotKey c n) := by
    show FMap.del s1.resvs _ = _; rw [h1.1]
  have h2q : ((s1.dropResv c n).dropClaims c n).queues = w.queues := h1.4
  have h2p : ((s1.dropResv c n).dropClaims c n).gangPort = w.gangPort := h1.5
  have h2g : ((s1.dropResv c n).dropClaims c n).gangs = w.gangs := h1.2
  have h2u : ((s1.dropResv c n).dropClaims c n).gusts = w.gusts := h1.3
  generalize (s1.dropResv c n).dropClaims c n = s3 at *
  have h4 : ∃ s4, s3.endMember c n a .exit = s4 ∧ (∀ d, s4.core d = s3.core d) ∧ s4.resvs = s3.resvs ∧ s4.queues = s3.queues ∧
      s4.gangPort = s3.gangPort ∧ s4.gusts = s3.gusts ∧
      s4.gangs = match a.gang with | some p => (w.memberEnds p false).gangs | none => w.gangs := by
    unfold State.endMember
    cases hg : a.gang with
    | none => exact ⟨s3, rfl, fun _ => rfl, rfl, rfl, rfl, rfl, h2g⟩
    | some p =>
      have he : (s3.thread c n).sbuf = [] := by
        rw [← hb (by rw [hg]; rfl)]
        show ((s3.core c).thread n).sbuf = ((w.core c).thread n).sbuf
        obtain ⟨b, hx⟩ := (h1.6 c).cx
        unfold Core.thread
        rw [h2, hx]
      have hd : s3.drainStores c n = s3 := by unfold State.drainStores; rw [he]; rfl
      refine ⟨_, rfl, ?_⟩
      rw [hd]
      refine ⟨fun _ => rfl, rfl, rfl, rfl, rfl, ?_⟩
      show List.map _ s3.gangs = List.map _ w.gangs
      rw [h2g]; rfl
  obtain ⟨s4, e4, c4, r4, q4, p4, u4, g4⟩ := h4
  rw [e4]
  have base : CoreButEnds (s4.core c) (w.core c) := by rw [c4, h2]; exact h1.6 c
  have res : ∀ e ∈ s4.resvs, e ∈ FMap.del w.resvs (slotKey c n) := by rw [r4, h2r]; exact fun _ h => h
  have plain (hk : a.kind.isGust = false) :
      (∃ b m, (s4.core c).cx = { (w.core c).cx with bounds := b, ctr := m }) ∧
      (a.kind.isGust = false → (s4.core c).cx.ctr = (w.core c).cx.ctr) ∧
      (s4.core c).dbg = (w.core c).dbg ∧ (s4.core c).succQ = (w.core c).succQ ∧
      (∀ e ∈ s4.resvs, e ∈ FMap.del w.resvs (slotKey c n)) ∧ s4.queues = w.queues ∧ s4.gangPort = w.gangPort ∧
      (s4.gangs = match a.gang with | some p => (w.memberEnds p false).gangs | none => w.gangs) := by
    obtain ⟨b, hx⟩ := base.cx
    exact ⟨⟨b, (w.core c).cx.ctr, hx⟩, fun _ => by rw [hx], base.dbg, base.succQ, res, q4.trans h2q, p4.trans h2p, g4⟩
  cases hk : a.kind with
  | gust p m =>
    dsimp only
    have at_ := addTileCounter_next s4 (256 + bits (FMap.get s4.gusts p {}).reg.toNat 110 5)
      (bits (FMap.get s4.gusts p {}).reg.toNat 104 6) 1
    rw [u4, h2u] at at_ ⊢
    obtain ⟨a1, a2, a3, a4, a5, a6, a7, a8, a9⟩ := at_
    obtain ⟨b, hx⟩ := base.cx
    refine ⟨?_, fun h => (by simp [CodeKind.isGust] at h), ?_, ?_, fun e he => res e (a5 e he), a3.trans (q4.trans h2q),
      a4.trans (p4.trans h2p), a2.trans g4, ?_⟩
    · by_cases hc : c = 256 + bits (FMap.get w.gusts p {}).reg.toNat 110 5
      · obtain ⟨m, hm⟩ := a6; rw [← hc] at hm ⊢; exact ⟨b, m, by rw [hm, hx]⟩
      · rw [a1 c hc]; exact ⟨b, (w.core c).cx.ctr, hx⟩
    · by_cases hc : c = 256 + bits (FMap.get w.gusts p {}).reg.toNat 110 5
      · rw [← hc] at a7 ⊢; rw [a7, base.dbg]
      · rw [a1 c hc, base.dbg]
    · by_cases hc : c = 256 + bits (FMap.get w.gusts p {}).reg.toNat 110 5
      · rw [← hc] at a8 ⊢; rw [a8, base.succQ]
      · rw [a1 c hc, base.succQ]
    · intro p' m' he
      cases he
      intro hd hs
      have : s4.core (256 + bits (FMap.get w.gusts p {}).reg.toNat 110 5) = w.core (256 + bits (FMap.get w.gusts p {}).reg.toNat 110 5) := by
        rw [c4, h2, h1c _ hd]
      rw [this] at a9
      exact a9 hs
  | _ =>
    obtain ⟨h1, h2, h3, h4, h5, h6, h7, h8⟩ := plain (by rw [hk]; rfl)
    exact ⟨h1, fun h => h2 (by rw [hk]; exact h), h3, h4, h5, h6, h7, h8, fun p m h => by cases h⟩

/-- What the end of an activation leaves, and what it takes (R394). -/
theorem endActivation_next (w : State) (c n : Nat) (a : Activation) (ha : (w.thread c n).act = some a)
    (hb : a.gang.isSome = true → (w.thread c n).sbuf = []) :
    let u := w.endActivation c n .exit
    let x := (w.core c).cx
    let y := (u.core c).cx
    let t := u.thread c n
    (t.act = none ∧ t.pfx = none ∧ t.staged = [] ∧ t.shadow = (w.thread c n).shadow ∧
      t.run = if (w.core c).dbg.haltreq = true ∧ a.kind.isGust = false then .stopped else .idle) ∧
    (∀ e ∈ u.resvs, e ∈ FMap.del w.resvs (slotKey c n)) ∧
    ((∀ b ∈ y.bounds, b.slot ≠ n) ∧ (∀ e ∈ y.mx.held, e.2 ≠ n) ∧
      y.mx.ring = if x.mx.ringSlot = some n then 0 else x.mx.ring) ∧
    (y.mx.acc = x.mx.acc ∧ y.mx.running = x.mx.running ∧ (a.kind.isGust = false → y.ctr = x.ctr) ∧
      (coreType c ≠ .agent → y.timers = x.timers) ∧ (x.clearing = [] → y.binds = x.binds)) ∧
    u.queues = w.queues ∧ u.gangPort = w.gangPort ∧ (u.core c).succQ = (w.core c).succQ ∧
    (u.gangs = match a.gang with | some p => (w.memberEnds p false).gangs | none => w.gangs) ∧
    ∀ p m, a.kind = .gust p m →
      let r := (FMap.get w.gusts p {}).reg.toNat
      let d := 256 + bits r 110 5
      let k := bits r 104 6
      d ≠ c → (w.core d).saved = none →
        (u.core d).cx.ctr = FMap.set (w.core d).cx.ctr k (FMap.get (w.core d).cx.ctr k 0 + 1) 0 := by
  have f := endShare_next w c n a hb
  unfold State.endActivation
  simp only [ha]
  generalize w.endShare c n a .exit = s at f
  obtain ⟨⟨b, m, f1⟩, f2, f3, f4, f5, f6, f7, f8, f9⟩ := f
  have g := endBack_next s c n a
  dsimp only at g ⊢
  generalize ((((s.endFills c n false).modCore c fun k => k.endSlot c n a (s.endFills c n false).clock.now).noteHalt c n).boundary
    c n).unpark c n = u at g
  obtain ⟨⟨g1, g2, g3, g4, g5⟩, g6, ⟨g7, g8, g9⟩, ⟨g10, g11, g12, g13, g14⟩, g15, g16, g17, g18, g19⟩ := g
  have st : (s.thread c n).shadow = (w.thread c n).shadow := by
    show ((s.core c).thread n).shadow = ((w.core c).thread n).shadow
    unfold Core.thread
    rw [f1]
  refine ⟨⟨g1, g2, g3, g4.trans st, by rw [g5, f3]⟩, fun e he => f5 e (g6 e he), ⟨g7, g8, by rw [g9, f1]⟩,
    ⟨by rw [g10, f1], by rw [g11, f1], fun h => by rw [g12, f2 h], fun h => by rw [g13 h, f1], fun h => ?_⟩,
    g15.trans f6, g16.trans f7, g18.trans f4, g17.trans f8, fun p m h => ?_⟩
  · have hc : (s.core c).cx.clearing = [] := by rw [f1]; exact h
    rw [g14 hc, f1]
  · intro hd hs
    rw [g19 _ hd]
    exact f9 p m h hd hs

/-- A state in which a slot's activation has changed nothing that its end speaks of. -/
theorem activationEnds_congr {v w u : State} {c n : Nat} (hx : ∀ d, (w.core d).cx = (v.core d).cx)
    (hd : (w.core c).dbg = (v.core c).dbg) (hs : ∀ d, (w.core d).saved = (v.core d).saved) (hr : w.resvs = v.resvs)
    (hg : w.gangs = v.gangs) (hu : w.gusts = v.gusts) (hq : w.queues = v.queues) (hp : w.gangPort = v.gangPort)
    (h : ActivationEnds w u c n) : ActivationEnds v u c n := by
  have ht : w.thread c n = v.thread c n := by
    show (w.core c).thread n = (v.core c).thread n
    unfold Core.thread; rw [hx]
  have hq' : ∀ q, w.queueAt q = v.queueAt q := fun q => by unfold State.queueAt; rw [hq]
  unfold ActivationEnds at h ⊢
  simp only [hx, hd, hs, hr, hg, hu, hp, ht, hq'] at h
  exact h

theorem CoreButEnds.thread {k j : Core} (h : CoreButEnds k j) (n : Nat) : k.thread n = j.thread n := by
  obtain ⟨b, hx⟩ := h.cx
  unfold Core.thread; rw [hx]

/-- What the end of a packet's program does at its queue. -/
theorem endProgram_next (s : State) (t : Thread) (a : Activation) (ha : t.act = some a) :
    let u := s.endProgram t .exit
    u.cores = s.cores ∧ u.resvs = s.resvs ∧ u.gangs = s.gangs ∧ u.gusts = s.gusts ∧
      ∀ q, a.kind = .queueProgram q → (u.queueAt q).running = false ∧ (u.queueAt q).ridx = (s.queueAt q).ridx + 1 ∧
        u.gangPort = s.gangPort ++ t.staged.map fun d => { desc := d, asid := a.asid, queue := some q } := by
  unfold State.endProgram
  simp only [ha, Option.bind_some]
  cases hk : a.kind with
  | queueProgram q =>
    have hq : a.queueOf = some q := by unfold Activation.queueOf; rw [hk]
    simp only [hq]
    refine ⟨rfl, rfl, rfl, rfl, fun q' h => ?_⟩
    cases h
    exact ⟨by simp [State.queueAt, State.modQueue], by simp [State.queueAt, State.modQueue], rfl⟩
  | _ =>
    have hq : a.queueOf = none := by unfold Activation.queueOf; rw [hk]
    simp only [hq]
    exact ⟨trivial, trivial, trivial, trivial, fun q h => by cases h⟩

theorem endLine_stores (s : State) (c : Nat) (t : Thread) : Stores (s.endLine c t) s := by
  unfold State.endLine
  split
  · exact letGo_stores _ _ _ _
  · exact .refl _

/-- What the end of a thread's activation by an exit leaves and takes (R394). -/
theorem endThread_next (w : State) (c n : Nat) (a : Activation) (ha : (w.thread c n).act = some a)
    (hb : a.gang.isSome = true → (w.thread c n).sbuf = []) (hw : (w.thread c n).stopWhy = 0) :
    ActivationEnds w (w.endThread c n .exit) c n ∧ ((w.endThread c n .exit).core c).succQ = (w.core c).succQ ∧
      ((w.endThread c n .exit).thread c n).shadow = (w.thread c n).shadow := by
  have h1 := unlinkSlot_beside w c n
  have he : w.endThread c n .exit =
      (((w.unlinkSlot c n).endProgram (w.thread c n) .exit).endActivation c n .exit).endLine c (w.thread c n) := by
    unfold State.endThread; simp [hw]
  rw [he]
  generalize w.unlinkSlot c n = s1 at h1
  have h2 := endProgram_next s1 (w.thread c n) a ha
  dsimp only at h2
  generalize s1.endProgram (w.thread c n) .exit = s2 at h2
  obtain ⟨p1, p2, p3, p4, p5⟩ := h2
  have hc : ∀ d, s2.core d = s1.core d := fun d => by unfold State.core; rw [p1]
  have ht : s2.thread c n = w.thread c n := by
    show (s2.core c).thread n = (w.core c).thread n; rw [hc, (h1.6 c).thread]
  have h3 := endActivation_next s2 c n a (by rw [ht]; exact ha) (by rw [ht]; exact hb)
  dsimp only at h3
  generalize s2.endActivation c n .exit = s3 at h3
  have h4 := endLine_stores s3 c (w.thread c n)
  generalize s3.endLine c (w.thread c n) = u at h4
  obtain ⟨⟨g1, g2, g3, g4, g5⟩, g6, ⟨g7, g8, g9⟩, ⟨g10, g11, g12, g13, g14⟩, g15, g16, g17, g18, g19⟩ := h3
  have uc := core_stores h4
  have ut : u.thread c n = s3.thread c n := by show (u.core c).thread n = _; rw [uc]; rfl
  obtain ⟨b, hx⟩ := (h1.6 c).cx
  have x2 : (s2.core c).cx = { (w.core c).cx with bounds := b } := by rw [hc, hx]
  have r2 : s2.resvs = w.resvs := p2.trans h1.1
  refine ⟨?_, ?_, ?_⟩
  · unfold ActivationEnds
    simp only [ha, Option.getD_some, ut, uc]
    refine ⟨⟨g1, g2, g3, ?_⟩, ?_, ⟨g7, g8, ?_⟩, ⟨?_, ?_, ?_, ?_, ?_⟩, ?_, ?_, ?_⟩
    · rw [g5, hc, (h1.6 c).dbg]
    · intro e hm
      have := g6 e (h4.5 e hm)
      rwa [r2] at this
    · rw [g9, x2]
    · rw [g10, x2]
    · rw [g11, x2]
    · intro h; rw [g12 h, x2]
    · intro h; rw [g13 h, x2]
    · intro h
      have hcl : (s2.core c).cx.clearing = [] := by rw [x2]; exact h
      rw [g14 hcl, x2]
    · intro p hp g hg hno m hm hst
      have hu : u.gangs = (s2.memberEnds p false).gangs := by rw [h4.2, g18, hp]
      have hgs : s2.gangs = w.gangs := p3.trans h1.2
      refine ⟨Gang.settle { g with
        members := FMap.put g.members p.2 { m with st := .exited, trig := true }
        aborted := g.aborted || false }, ?_, ?_, ?_⟩
      · rw [hu]
        unfold State.memberEnds State.modGang
        dsimp only
        rw [hgs]
        refine List.mem_map.mpr ⟨g, hg, ?_⟩
        simp [hno, hm, hst]
      · unfold Gang.settle; split <;> rfl
      · unfold Gang.settle
        split <;> simp
    · intro q hq
      obtain ⟨q1, q2, q3⟩ := p5 q hq
      have hQ : u.queueAt q = s2.queueAt q := by unfold State.queueAt; rw [h4.3, g15]
      have h0 : s1.queueAt q = w.queueAt q := by unfold State.queueAt; rw [h1.4]
      exact ⟨by rw [hQ]; exact q1, by rw [hQ, q2, h0], by rw [h4.4, g16, q3, h1.5]⟩
    · intro p m hk hd hs
      have hg : s2.gusts = w.gusts := p4.trans h1.3
      have h := g19 p m hk
      rw [hg] at h
      have hcore := h1.6 (256 + bits (FMap.get w.gusts p {}).reg.toNat 110 5)
      have hsv : (s2.core (256 + bits (FMap.get w.gusts p {}).reg.toNat 110 5)).saved = none := by
        rw [hc]; have := hcore.saved; rw [hs] at this; simpa using this
      have := h hd hsv
      obtain ⟨b', hx'⟩ := hcore.cx
      rw [this, hc, hx']
  · rw [uc, g17, hc, (h1.6 c).succQ]
  · rw [ut, g4, ht]

/-- What a buffered store's turn changes of its thread. -/
theorem performStore_next (s : State) (c n : Nat) :
    let u := s.performStore c n
    (u.thread c n).act = (s.thread c n).act ∧ (u.thread c n).stopWhy = (s.thread c n).stopWhy ∧
      (u.thread c n).shadow = (s.thread c n).shadow ∧ (u.thread c n).sbuf = (s.thread c n).sbuf.tail ∧
      (u.core c).succQ = (s.core c).succQ := by
  unfold State.performStore
  cases h : (s.thread c n).sbuf with
  | nil => simp [h]
  | cons e l =>
    dsimp only
    have ht : ((s.modThread c n fun t => { t with sbuf := l, seenBuf := t.seenBuf - 1 }).storeCells e).thread c n =
        { s.thread c n with sbuf := l, seenBuf := (s.thread c n).seenBuf - 1 } := by
      have hc : ((s.modThread c n fun t => { t with sbuf := l, seenBuf := t.seenBuf - 1 }).storeCells e).thread c n =
          (s.modThread c n fun t => { t with sbuf := l, seenBuf := t.seenBuf - 1 }).thread c n := rfl
      rw [hc, thread_modThread, if_pos ⟨rfl, rfl⟩]
    have hq : (((s.modThread c n fun t => { t with sbuf := l, seenBuf := t.seenBuf - 1 }).storeCells e).core c).succQ =
        (s.core c).succQ := by
      show ((s.setCore c _).core c).succQ = _
      rw [core_setCore_same]; rfl
    rw [ht]
    exact ⟨rfl, rfl, rfl, rfl, hq⟩

/-- With all of its stores performed a thread's buffer is empty, and the thread stays otherwise. -/
theorem drainStores_next (s : State) (c n : Nat) :
    let u := s.drainStores c n
    (u.thread c n).act = (s.thread c n).act ∧ (u.thread c n).stopWhy = (s.thread c n).stopWhy ∧
      (u.thread c n).shadow = (s.thread c n).shadow ∧ (u.thread c n).sbuf = [] ∧ (u.core c).succQ = (s.core c).succQ := by
  unfold State.drainStores
  generalize hl : (s.thread c n).sbuf = l
  induction l generalizing s with
  | nil => exact ⟨rfl, rfl, rfl, hl, rfl⟩
  | cons e l ih =>
    obtain ⟨p1, p2, p3, p4, p5⟩ := performStore_next s c n
    obtain ⟨h1, h2, h3, h4, h5⟩ := ih (s.performStore c n) (by rw [p4, hl]; rfl)
    exact ⟨h1.trans p1, h2.trans p2, h3.trans p3, h4, h5.trans p5⟩

/-- What an `exit` that has taken its successors leaves, where nothing waits in the slot's shadow bank (R394). -/
theorem leaveWith_next (s : State) (l : List Successor) (hact : s.th.act.isSome = true) (hw : s.th.stopWhy = 0)
    (hs : s.th.shadow = none) :
    ActivationEnds (if l = [] ∧ s.act.gang = none then s else s.drain) (s.leaveWith l) s.cur s.slot ∧
      ((s.leaveWith l).core s.cur).succQ = (s.core s.cur).succQ ++ l := by
  obtain ⟨a, ha⟩ := Option.isSome_iff_exists.mp hact
  have hga : s.act = a := by unfold State.act; rw [ha]; rfl
  have hd := drainStores_next s s.cur s.slot
  have hv : ∃ v, (if l = [] ∧ s.act.gang = none then s else s.drain) = v ∧ (v.thread s.cur s.slot).act = some a ∧
      (v.thread s.cur s.slot).stopWhy = 0 ∧ (v.thread s.cur s.slot).shadow = none ∧
      (a.gang.isSome = true → (v.thread s.cur s.slot).sbuf = []) ∧ (v.core s.cur).succQ = (s.core s.cur).succQ := by
    refine ⟨_, rfl, ?_⟩
    split
    · rename_i h
      exact ⟨ha, hw, hs, fun hg => by rw [← hga, h.2] at hg; simp at hg, rfl⟩
    · exact ⟨hd.1.trans ha, hd.2.1.trans hw, hd.2.2.1.trans hs, fun _ => hd.2.2.2.1, hd.2.2.2.2⟩
  obtain ⟨v, ev, va, vw, vs, vb, vq⟩ := hv
  have el : s.leaveWith l = ((((v.modCore s.cur fun k => { k with succQ := k.succQ ++ l }).pm s.cur 0x02 1).mirrorKeep s.cur
      s.slot).endThread s.cur s.slot .exit).swapBank s.cur s.slot := by
    unfold State.leaveWith
    rw [← ev]
    have : (l.isEmpty && s.act.gang.isNone) = true ↔ l = [] ∧ s.act.gang = none := by simp
    simp only [this]
  rw [ev, el]
  generalize s.cur = c at *
  generalize s.slot = n at *
  have hm : ∀ d, (v.modCore c fun k => { k with succQ := k.succQ ++ l }).core d =
      if d = c then { v.core c with succQ := (v.core c).succQ ++ l } else v.core d := fun d => core_modCore v c d _
  have hr : (v.modCore c fun k => { k with succQ := k.succQ ++ l }).resvs = v.resvs ∧
      (v.modCore c fun k => { k with succQ := k.succQ ++ l }).gangs = v.gangs ∧
      (v.modCore c fun k => { k with succQ := k.succQ ++ l }).gusts = v.gusts ∧
      (v.modCore c fun k => { k with succQ := k.succQ ++ l }).queues = v.queues ∧
      (v.modCore c fun k => { k with succQ := k.succQ ++ l }).gangPort = v.gangPort := ⟨rfl, rfl, rfl, rfl, rfl⟩
  generalize (v.modCore c fun k => { k with succQ := k.succQ ++ l }) = s1 at *
  have h2 := pm_keeps s1 c 0x02 1
  generalize s1.pm c 0x02 1 = s2 at *
  have h3 := mirrorKeep_keeps s2 c n
  generalize s2.mirrorKeep c n = w at *
  have hx : ∀ d, (w.core d).cx = (v.core d).cx ∧ (w.core d).saved = (v.core d).saved ∧ (w.core d).dbg = (v.core d).dbg := by
    intro d
    rw [h3.1]
    obtain ⟨k1, k2, k3, -⟩ := h2.1 d
    rw [k1, k2, k3, hm]
    split
    · rename_i h; subst h; exact ⟨rfl, rfl, rfl⟩
    · exact ⟨rfl, rfl, rfl⟩
  have hq : (w.core c).succQ = (s.core c).succQ ++ l := by
    rw [h3.1, (h2.1 c).2.2.2, hm, if_pos rfl]; exact congrArg (· ++ l) vq
  have ht : w.thread c n = v.thread c n := by
    show (w.core c).thread n = (v.core c).thread n
    unfold Core.thread; rw [(hx c).1]
  have he := endThread_next w c n a (by rw [ht]; exact va) (by rw [ht]; exact vb) (by rw [ht]; exact vw)
  rw [ht, vs] at he
  have hb : (w.endThread c n .exit).swapBank c n = w.endThread c n .exit := by
    have h : (((w.endThread c n .exit).core c).thread n).shadow = none := he.2.2
    unfold State.swapBank State.loadedDue Core.loadedGone
    simp [h]
  rw [hb]
  refine ⟨activationEnds_congr (fun d => (hx d).1) (hx c).2.2 (fun d => (hx d).2.1) ?_ ?_ ?_ ?_ ?_ he.1, he.2.1.trans hq⟩
  · rw [h3.2.1, h2.2.1, hr.1]
  · rw [h3.2.2.1, h2.2.2.1, hr.2.1]
  · rw [h3.2.2.2.1, h2.2.2.2.1, hr.2.2.1]
  · rw [h3.2.2.2.2.1, h2.2.2.2.2.1, hr.2.2.2.1]
  · rw [h3.2.2.2.2.2, h2.2.2.2.2.2, hr.2.2.2.2]
end Sys2Proof.Machine
end

