-- ==== Sys2Proof/Laws/Memory.lean ====
section
/-! SUPPORT. What the operations on storage do: every one keeps the canonical form, a byte reads what was last written to it,
and every other byte reads as before. -/

namespace Sys2Proof.Machine

theorem memWf_reset : Memory.wf State.reset.mem := rfl

theorem memSet_wf {m : List Host.Cell} (a : Nat) (b : Byte) (h : Memory.wf m) : Memory.wf (memSet m a b) := FMap.canon_set h

theorem memWrite_wf {m : List Host.Cell} (a : Nat) (l : List Byte) (h : Memory.wf m) : Memory.wf (memWrite m a l) := by
  induction l generalizing m a with
  | nil => exact h
  | cons b r ih => exact ih _ (memSet_wf a b h)

theorem memCells_wf {m : List Host.Cell} (l : List (Nat × Byte)) (h : Memory.wf m) : Memory.wf (memCells m l) := by
  induction l generalizing m with
  | nil => exact h
  | cons c r ih => exact ih (memSet_wf c.1 c.2 h)

theorem memFilter_wf {m : List Host.Cell} (p : Host.Cell → Bool) (h : Memory.wf m) : Memory.wf (m.filter p) :=
  FMap.canon_filter p h

theorem memByte_set {m : List Host.Cell} {a q : Nat} {b : Byte} (h : Memory.wf m) :
    memByte (memSet m a b) q = if q = a then b else memByte m q := by
  simp only [Memory.wf, FMap.canon, Bool.and_eq_true] at h
  exact FMap.get_set h.1

/-- Everything a byte reads after bytes were written one behind the other. -/
theorem memByte_write {m : List Host.Cell} {a q : Nat} {l : List Byte} (h : Memory.wf m) :
    memByte (memWrite m a l) q = if a ≤ q ∧ q < a + l.length then l.getD (q - a) 0 else memByte m q := by
  induction l generalizing m a with
  | nil =>
    simp [memWrite]
  | cons b r ih =>
    rw [memWrite, ih (memSet_wf a b h), memByte_set h, List.length_cons]
    by_cases h1 : a + 1 ≤ q ∧ q < a + 1 + r.length
    · have h2 : a ≤ q ∧ q < a + (r.length + 1) := by omega
      obtain ⟨n, hn⟩ : ∃ n, q - a = n + 1 := ⟨q - (a + 1), by omega⟩
      have h3 : q - (a + 1) = n := by omega
      rw [if_pos h1, if_pos h2, hn, h3, List.getD_cons_succ]
    · rw [if_neg h1]
      by_cases h4 : q = a
      · have h2 : a ≤ q ∧ q < a + (r.length + 1) := by omega
        rw [if_pos h4, if_pos h2, h4, Nat.sub_self, List.getD_cons_zero]
      · have h2 : ¬(a ≤ q ∧ q < a + (r.length + 1)) := by omega
        rw [if_neg h4, if_neg h2]

theorem memByte_write_outside {m : List Host.Cell} {a q : Nat} {l : List Byte} (h : Memory.wf m)
    (hq : q < a ∨ a + l.length ≤ q) : memByte (memWrite m a l) q = memByte m q := by
  rw [memByte_write h, if_neg (by omega)]

theorem memByte_cells_outside {m : List Host.Cell} {q : Nat} {l : List (Nat × Byte)} (h : Memory.wf m)
    (hq : ∀ c ∈ l, q ≠ c.1) : memByte (memCells m l) q = memByte m q := by
  induction l generalizing m with
  | nil => rfl
  | cons c r ih =>
    rw [memCells, ih (memSet_wf c.1 c.2 h) fun d hd => hq d (List.mem_cons_of_mem _ hd), memByte_set h,
      if_neg (hq c List.mem_cons_self)]

@[simp] theorem leBytes_length (n v : Nat) : (leBytes n v).length = n := by
  induction n generalizing v with
  | zero => rfl
  | succ n ih => simp [leBytes, ih]

@[simp] theorem memRead_length (m : List Host.Cell) (a n : Nat) : (memRead m a n).length = n := by
  induction n generalizing a with
  | zero => rfl
  | succ n ih => simp [memRead, ih]

theorem memRead_get {m : List Host.Cell} {a n i : Nat} (h : i < n) : (memRead m a n).getD i 0 = memByte m (a + i) := by
  induction n generalizing a i with
  | zero => omega
  | succ n ih =>
    cases i with
    | zero => rfl
    | succ i => rw [memRead, List.getD_cons_succ, ih (by omega), show a + 1 + i = a + (i + 1) by omega]

/-- A number written in little-endian bytes is read back, modulo its width. -/
theorem leNat_leBytes (n v : Nat) : leNat (leBytes n v) = v % 256 ^ n := by
  induction n generalizing v with
  | zero => simp [leBytes, leNat, Nat.mod_one]
  | succ n ih =>
    rw [leBytes, leNat, ih, BitVec.toNat_ofNat, show 256 ^ (n + 1) = 256 * 256 ^ n by ring, Nat.mod_mul]

/-- What is read right behind a write of bytes at the same place. -/
theorem memRead_write {m : List Host.Cell} {a : Nat} {l : List Byte} (h : Memory.wf m) :
    memRead (memWrite m a l) a l.length = l := by
  apply List.ext_getElem (memRead_length _ _ _)
  intro i h1 h2
  have h3 : i < l.length := h2
  have e := memRead_get (m := memWrite m a l) (a := a) h3
  rw [memByte_write h, if_pos ⟨Nat.le_add_right _ _, by omega⟩, Nat.add_sub_cancel_left] at e
  rw [List.getD_eq_getElem _ _ h1, List.getD_eq_getElem _ _ h2] at e
  exact e

/-! The operations on the state that write storage. -/

theorem store_wf {s : State} (a : Nat) (l : List Byte) (h : Memory.wf s.mem) : Memory.wf (s.store a l).mem := memWrite_wf a l h

theorem storeNat_wf {s : State} (a n v : Nat) (h : Memory.wf s.mem) : Memory.wf (s.storeNat a n v).mem := memWrite_wf a _ h

theorem storeCells_wf {s : State} (l : List (Nat × Byte)) (h : Memory.wf s.mem) : Memory.wf (s.storeCells l).mem :=
  memCells_wf l h

theorem store_outside {s : State} {a q : Nat} {l : List Byte} (h : Memory.wf s.mem) (hq : q < a ∨ a + l.length ≤ q) :
    memByte (s.store a l).mem q = memByte s.mem q := memByte_write_outside h hq

theorem read_store {s : State} {a : Nat} {l : List Byte} (h : Memory.wf s.mem) : (s.store a l).read a l.length = l :=
  memRead_write h

/-- A number stored and read back at the same place and width. -/
theorem readNat_storeNat {s : State} {a n v : Nat} (h : Memory.wf s.mem) : (s.storeNat a n v).readNat a n = v % 256 ^ n := by
  have e := read_store (s := s) (a := a) (l := leBytes n v) h
  rw [leBytes_length] at e
  rw [State.readNat, State.storeNat, e, leNat_leBytes]

end Sys2Proof.Machine
end

