-- ==== Sys2Proof/Laws/PerInstr.lean ====
section
/-! SUPPORT. The family `Opcode`: bits [31:26] of the word of an instruction are its major opcode, and the opcode map assigns
that opcode at least one row (R342, R348). Events have no word. -/

namespace Sys2Proof.Laws

/-- The major opcode of an instruction; none for an event (R348). -/
def majorOf : Instr → Option Nat
  | .add _ _ _ | .sub _ _ _ | .and _ _ _ | .or _ _ _ | .xor _ _ _ | .andn _ _ _ | .sll _ _ _ | .srl _ _ _
  | .sra _ _ _ | .rol _ _ _ | .slt _ _ _ | .sltu _ _ _ | .min _ _ _ | .max _ _ _ | .minu _ _ _ | .maxu _ _ _
  | .mul _ _ _ | .mulh _ _ _ | .mulhu _ _ _ | .div _ _ _ | .divu _ _ _ | .rem _ _ _ | .remu _ _ _ | .clz _ _
  | .ctz _ _ | .popc _ _ | .sextB _ _ | .sextH _ _ | .zextB _ _ | .zextH _ _ | .bfx _ _ _ | .bfi _ _ _ => some 0x01
  | .addi _ _ _ => some 0x02
  | .andi _ _ _ => some 0x03
  | .ori _ _ _ => some 0x04
  | .xori _ _ _ => some 0x05
  | .slti _ _ _ => some 0x06
  | .sltiu _ _ _ => some 0x07
  | .lui _ _ => some 0x08
  | .slli _ _ _ | .srli _ _ _ | .srai _ _ _ => some 0x09
  | .addpi _ _ _ => some 0x0A
  | .addp _ _ _ | .subp _ _ _ | .movp _ _ => some 0x0B
  | .beq _ _ _ => some 0x10
  | .bne _ _ _ => some 0x11
  | .blt _ _ _ => some 0x12
  | .bge _ _ _ => some 0x13
  | .bltu _ _ _ => some 0x14
  | .bgeu _ _ _ => some 0x15
  | .bkany _ _ | .bkall _ _ | .bknone _ _ => some 0x16
  | .bceos _ _ => some 0x17
  | .j _ | .jal _ => some 0x18
  | .jalr _ _ _ | .jalrFar _ _ _ => some 0x19
  | .dbnz _ _ => some 0x1A
  | .lb _ _ _ => some 0x20
  | .lbu _ _ _ => some 0x21
  | .lh _ _ _ => some 0x22
  | .lhu _ _ _ => some 0x23
  | .lw _ _ _ => some 0x24
  | .ld _ _ _ => some 0x25
  | .sb _ _ _ => some 0x26
  | .sh _ _ _ => some 0x27
  | .sw _ _ _ => some 0x28
  | .sd _ _ _ => some 0x29
  | .vld _ _ _ _ => some 0x2A
  | .vst _ _ _ _ => some 0x2B
  | .pf _ _ _ => some 0x2C
  | .amoaddW _ _ _ _ _ _ | .amoaddD _ _ _ _ _ _ | .amoandW _ _ _ _ _ _ | .amoandD _ _ _ _ _ _ | .amoorW _ _ _ _ _ _
  | .amoorD _ _ _ _ _ _ | .amoxorW _ _ _ _ _ _ | .amoxorD _ _ _ _ _ _ | .amominW _ _ _ _ _ _ | .amominD _ _ _ _ _ _
  | .amomaxW _ _ _ _ _ _ | .amomaxD _ _ _ _ _ _ | .amominuW _ _ _ _ _ _ | .amominuD _ _ _ _ _ _
  | .amomaxuW _ _ _ _ _ _ | .amomaxuD _ _ _ _ _ _ | .amoswapW _ _ _ _ _ _ | .amoswapD _ _ _ _ _ _
  | .amofadd _ _ _ _ _ _ | .casW _ _ _ _ _ _ | .casD _ _ _ _ _ _ | .lrW _ _ _ _ _ | .lrD _ _ _ _ _ | .scW _ _ _ _ _ _
  | .scD _ _ _ _ _ _ | .fence _ _ _ | .fencei | .barv _ _ _ | .barw _ _ _ | .trig | .waitdep _ | .wrs _ _
  | .fput _ _ _ | .fget _ _ | .freset _ _ => some 0x2D
  | .vadd _ _ _ _ _ _ | .vsub _ _ _ _ _ _ | .vmul _ _ _ _ _ _ | .vmin _ _ _ _ _ _ | .vmax _ _ _ _ _ _ | .vabs _ _ _ _
  | .vneg _ _ _ _ | .vand _ _ _ _ _ | .vor _ _ _ _ _ | .vxor _ _ _ _ _ | .vandn _ _ _ _ _ | .vsll _ _ _ _ _
  | .vsrl _ _ _ _ _ | .vsra _ _ _ _ _ | .vclamp _ _ _ _ _ _ | .vdot _ _ _ _ _ _ => some 0x30
  | .vaddF _ _ _ _ _ | .vsubF _ _ _ _ _ | .vmulF _ _ _ _ _ | .vminF _ _ _ _ _ | .vmaxF _ _ _ _ _ | .vabsF _ _ _ _
  | .vnegF _ _ _ _ | .vfma _ _ _ _ _ | .vfms _ _ _ _ _ | .vclampF _ _ _ _ _ | .vdotF _ _ _ _ _ => some 0x31
  | .vcmpEq _ _ _ _ _ _ | .vcmpNe _ _ _ _ _ _ | .vcmpLt _ _ _ _ _ _ | .vcmpLe _ _ _ _ _ _ | .vcmpGt _ _ _ _ _ _
  | .vcmpGe _ _ _ _ _ _ | .vsel _ _ _ _ _ | .kmovX _ _ | .kand _ _ _ | .kor _ _ _ | .kxor _ _ _ | .knot _ _
  | .kmovK _ _ | .kpopc _ _ | .kfirst _ _ | .kgen _ _ => some 0x32
  | .vcvt _ _ _ _ _ | .vexp2 _ _ _ _ | .vlog2 _ _ _ _ | .vrcp _ _ _ _ | .vrsqrt _ _ _ _ | .vpopc _ _ _ _ => some 0x33
  | .vredsum _ _ _ _ _ | .vredmax _ _ _ _ _ | .vredmin _ _ _ _ _ | .vargmax _ _ _ _ _ | .vscan _ _ _ _
  | .vperm _ _ _ _ _ | .vslide _ _ _ _ _ | .vtopk _ _ _ _ _ _ | .vbcast _ _ _ _ | .vmvx _ _ _ _ | .vins _ _ _ _
  | .vmov _ _ _ _ => some 0x34
  | .vldg _ _ _ _ _ | .vsts _ _ _ _ _ => some 0x35
  | .mma _ _ | .mmv _ _ | .mldb _ _ | .mldbS _ _ | .mst _ _ | .mrd _ _ _ | .mzero _ | .mring _ _ _ | .mvgo _ _
  | .mvred _ _ | .mvst _ _ | .mvkill _ | .sbind _ _ _ | .cbind _ _ _ | .sunbind _ | .cret _ | .ceos _ | .cwait _ _ _
  | .cadd _ _ | .cset _ _ | .crd _ _ | .mw _ _ | .send _ _ _ | .sendw _ _ _ | .exit _ _ | .bind _ _ _ | .unbind _ _
  | .yield | .mbopen _ _ | .mbpub _ _ _ | .mbld _ _ _ | .mbsnap _ _ _ | .mbver _ _ | .tnow _ | .tuntil _ _ _
  | .swget _ _ _ | .swadv _ _ _ | .gust _ _ | .gustrel _ | .gustq _ _ | .qpost _ | .qclaim _ _ | .hacc _ _
  | .lpin _ _ | .lunpin _ _ | .lfill _ _ _ | .ldrop _ _ _ | .lprobe _ _ | .glaunch _ _ | .gabort _ _ _ => some 0x38
  | .ecall | .ebreak | .eret | .halt | .tinv _ _ | .csrr _ _ | .csrw _ _ | .csrs _ _ | .csrc _ _ | .ewr _ _
  | .erd _ _ | .safe _ _ => some 0x39
  | .pfxExt _ | .pfxOpt _ => some 0x3F
  | .illegalEncoding _ | .messageArrival _ | .inboxPortAccept _ | .messageDispatch _ | .creditReturn _
  | .successorSend _ | .unboundHoldExpiry _ | .gangRequestAccept | .placementPass | .gangMemberStart _ _
  | .triggerNotice _ | .l1ResizeComplete _ | .pageWalkComplete _ _ | .translationReplay _ | .translationAbort _
  | .storeBufferPerform _ _ | .hostMemoryAccess _ | .matrixCommandComplete _ | .latchFillComplete _ _
  | .handoffClaim _ | .handoffComplete _ | .moverElement _ _ | .channelBeatArrival _ | .channelCreditReturn _
  | .remoteCaddArrival _ | .squallScan | .tickDelivery _ | .tickStart _ _ | .budgetExpiry _ _ | .budgetKill _ _
  | .mbsnapCopyComplete _ | .gustCodeStart _ | .gustHoldExpiry _ | .gustRelocation _ | .heartbeatSend
  | .heartbeatReceive | .heartbeatWindowExpiry | .fatalErrorMessage | .hsctlTake | .mirrorPublishReceive _
  | .keepRegionMirrorReceive _ | .timeSourceCorrection _ | .streamRecordArrival _ _ | .ingestRecordCommit _
  | .decodeTick _ | .decodeTickLate _ | .tuntilTimerExpiry _ _ | .egressLaunch _ | .serviceStepScheduler _
  | .stepBoundary | .samplingQueuePost _ | .lineMissEvent _ | .lineFillEvent _ | .lineEvictionEvent _
  | .agentBudgetExpiry _ _ | .loaderStart _ | .loaderDescriptorComplete _ | .fgetParkRetry _ _ | .futureWake _ _
  | .queuePacketStart _ _ | .doorbellWrite _ _ | .reconcilePass | .serviceInstallContext _ | .serviceShootdown _
  | .shootdownComplete | .serviceCreateQueue _ | .serviceDestroyQueue _ | .queueDestroyComplete _
  | .serviceLoadCodeObject _ _ | .serviceMigratePage _ | .serviceSetFrameOwner _ | .serviceUnknown _
  | .thermalControlTick _ _ | .partitionEntryWrite _ _ | .partitionHalt _ | .partitionResume _ | .partitionSave _
  | .partitionRestore _ | .partitionSpill _ | .partitionFill _ | .partitionCommandComplete _ | .correctableError _ _
  | .uncorrectableError _ _ | .fatalError _ _ | .errqWrite _ | .msixWindowExpiry _ | .dbgHaltreq _ | .dbgResume _
  | .dbgStep _ | .dbgBksync _ | .bksyncComplete _ | .dbgdatAccess _ _ | .logDwellExpiry _ _ | .logctlWrite _ _
  | .pmselWrite _ _ | .tickEntryWrite _ _ | .mailboxSlotWrite _ _ | .gustPoolWrite _ | .gustProfileWrite _ _
  | .tmctlWrite _ | .timedStreamWrite _ _ | .treeTemplateWrite _ _ | .eventTableRowWrite _ _ _ | .sqcfgWrite _
  | .shedctlWrite _ | .feataccWrite _ | .perstRelease | .bootGo | .bootVerifyComplete _ | .attestRequest
  | .attestComplete | .registerWrite _ _ _ | .requestResponse _ _ | .wrsTimeout _ _ | .barrierArrival _
  | .perstAssert | .sourceLockLoss => none

/-- The word of an instruction carries its major opcode, which has a row. -/
def Opcode.Statement (i : Instr) : Prop :=
  ∀ op, majorOf i = some op → wordField (encode i).toNat 26 6 = op ∧ rowsOf op ≠ []

theorem Opcode.of_word {i : Instr} (op v : Nat) (he : encode i = BitVec.ofNat 32 v) (hm : majorOf i = some op)
    (hop : v % 2 ^ 32 / 2 ^ 26 % 2 ^ 6 = op) (hr : (rowsOf op).isEmpty = false) : Opcode.Statement i := by
  intro o ho
  obtain rfl : op = o := by rw [hm] at ho; exact Option.some.inj ho
  refine ⟨?_, fun h => by rw [h] at hr; exact Bool.noConfusion hr⟩
  rw [he, wordField, BitVec.toNat_ofNat, hop]

theorem Opcode.of_event {i : Instr} (hm : majorOf i = none) : Opcode.Statement i := by
  intro o ho
  rw [hm] at ho
  cases ho

theorem Opcode.add d s t : Opcode.Statement (.add d s t) :=
  of_word 0x01 (0x04000000 + d.toNat * 2097152 + s.toNat * 65536 + t.toNat * 2048) rfl rfl (by omega) rfl
theorem Opcode.sub d s t : Opcode.Statement (.sub d s t) :=
  of_word 0x01 (0x04000001 + d.toNat * 2097152 + s.toNat * 65536 + t.toNat * 2048) rfl rfl (by omega) rfl
theorem Opcode.and d s t : Opcode.Statement (.and d s t) :=
  of_word 0x01 (0x04000002 + d.toNat * 2097152 + s.toNat * 65536 + t.toNat * 2048) rfl rfl (by omega) rfl
theorem Opcode.or d s t : Opcode.Statement (.or d s t) :=
  of_word 0x01 (0x04000003 + d.toNat * 2097152 + s.toNat * 65536 + t.toNat * 2048) rfl rfl (by omega) rfl
theorem Opcode.xor d s t : Opcode.Statement (.xor d s t) :=
  of_word 0x01 (0x04000004 + d.toNat * 2097152 + s.toNat * 65536 + t.toNat * 2048) rfl rfl (by omega) rfl
theorem Opcode.andn d s t : Opcode.Statement (.andn d s t) :=
  of_word 0x01 (0x04000005 + d.toNat * 2097152 + s.toNat * 65536 + t.toNat * 2048) rfl rfl (by omega) rfl
theorem Opcode.sll d s t : Opcode.Statement (.sll d s t) :=
  of_word 0x01 (0x04000006 + d.toNat * 2097152 + s.toNat * 65536 + t.toNat * 2048) rfl rfl (by omega) rfl
theorem Opcode.srl d s t : Opcode.Statement (.srl d s t) :=
  of_word 0x01 (0x04000007 + d.toNat * 2097152 + s.toNat * 65536 + t.toNat * 2048) rfl rfl (by omega) rfl
theorem Opcode.sra d s t : Opcode.Statement (.sra d s t) :=
  of_word 0x01 (0x04000008 + d.toNat * 2097152 + s.toNat * 65536 + t.toNat * 2048) rfl rfl (by omega) rfl
theorem Opcode.rol d s t : Opcode.Statement (.rol d s t) :=
  of_word 0x01 (0x04000009 + d.toNat * 2097152 + s.toNat * 65536 + t.toNat * 2048) rfl rfl (by omega) rfl
theorem Opcode.slt d s t : Opcode.Statement (.slt d s t) :=
  of_word 0x01 (0x0400000A + d.toNat * 2097152 + s.toNat * 65536 + t.toNat * 2048) rfl rfl (by omega) rfl
theorem Opcode.sltu d s t : Opcode.Statement (.sltu d s t) :=
  of_word 0x01 (0x0400000B + d.toNat * 2097152 + s.toNat * 65536 + t.toNat * 2048) rfl rfl (by omega) rfl
theorem Opcode.min d s t : Opcode.Statement (.min d s t) :=
  of_word 0x01 (0x0400000C + d.toNat * 2097152 + s.toNat * 65536 + t.toNat * 2048) rfl rfl (by omega) rfl
theorem Opcode.max d s t : Opcode.Statement (.max d s t) :=
  of_word 0x01 (0x0400000D + d.toNat * 2097152 + s.toNat * 65536 + t.toNat * 2048) rfl rfl (by omega) rfl
theorem Opcode.minu d s t : Opcode.Statement (.minu d s t) :=
  of_word 0x01 (0x0400000E + d.toNat * 2097152 + s.toNat * 65536 + t.toNat * 2048) rfl rfl (by omega) rfl
theorem Opcode.maxu d s t : Opcode.Statement (.maxu d s t) :=
  of_word 0x01 (0x0400000F + d.toNat * 2097152 + s.toNat * 65536 + t.toNat * 2048) rfl rfl (by omega) rfl
theorem Opcode.mul d s t : Opcode.Statement (.mul d s t) :=
  of_word 0x01 (0x04000010 + d.toNat * 2097152 + s.toNat * 65536 + t.toNat * 2048) rfl rfl (by omega) rfl
theorem Opcode.mulh d s t : Opcode.Statement (.mulh d s t) :=
  of_word 0x01 (0x04000011 + d.toNat * 2097152 + s.toNat * 65536 + t.toNat * 2048) rfl rfl (by omega) rfl
theorem Opcode.mulhu d s t : Opcode.Statement (.mulhu d s t) :=
  of_word 0x01 (0x04000012 + d.toNat * 2097152 + s.toNat * 65536 + t.toNat * 2048) rfl rfl (by omega) rfl
theorem Opcode.div d s t : Opcode.Statement (.div d s t) :=
  of_word 0x01 (0x04000013 + d.toNat * 2097152 + s.toNat * 65536 + t.toNat * 2048) rfl rfl (by omega) rfl
theorem Opcode.divu d s t : Opcode.Statement (.divu d s t) :=
  of_word 0x01 (0x04000014 + d.toNat * 2097152 + s.toNat * 65536 + t.toNat * 2048) rfl rfl (by omega) rfl
theorem Opcode.rem d s t : Opcode.Statement (.rem d s t) :=
  of_word 0x01 (0x04000015 + d.toNat * 2097152 + s.toNat * 65536 + t.toNat * 2048) rfl rfl (by omega) rfl
theorem Opcode.remu d s t : Opcode.Statement (.remu d s t) :=
  of_word 0x01 (0x04000016 + d.toNat * 2097152 + s.toNat * 65536 + t.toNat * 2048) rfl rfl (by omega) rfl
theorem Opcode.clz d s : Opcode.Statement (.clz d s) :=
  of_word 0x01 (0x04000018 + d.toNat * 2097152 + s.toNat * 65536) rfl rfl (by omega) rfl
theorem Opcode.ctz d s : Opcode.Statement (.ctz d s) :=
  of_word 0x01 (0x04000019 + d.toNat * 2097152 + s.toNat * 65536) rfl rfl (by omega) rfl
theorem Opcode.popc d s : Opcode.Statement (.popc d s) :=
  of_word 0x01 (0x0400001A + d.toNat * 2097152 + s.toNat * 65536) rfl rfl (by omega) rfl
theorem Opcode.sextB d s : Opcode.Statement (.sextB d s) :=
  of_word 0x01 (0x0400001B + d.toNat * 2097152 + s.toNat * 65536) rfl rfl (by omega) rfl
theorem Opcode.sextH d s : Opcode.Statement (.sextH d s) :=
  of_word 0x01 (0x0400001C + d.toNat * 2097152 + s.toNat * 65536) rfl rfl (by omega) rfl
theorem Opcode.zextB d s : Opcode.Statement (.zextB d s) :=
  of_word 0x01 (0x0400001D + d.toNat * 2097152 + s.toNat * 65536) rfl rfl (by omega) rfl
theorem Opcode.zextH d s : Opcode.Statement (.zextH d s) :=
  of_word 0x01 (0x0400001E + d.toNat * 2097152 + s.toNat * 65536) rfl rfl (by omega) rfl
theorem Opcode.bfx d s t : Opcode.Statement (.bfx d s t) :=
  of_word 0x01 (0x04000020 + d.toNat * 2097152 + s.toNat * 65536 + t.toNat * 2048) rfl rfl (by omega) rfl
theorem Opcode.bfi d s t : Opcode.Statement (.bfi d s t) :=
  of_word 0x01 (0x04000021 + d.toNat * 2097152 + s.toNat * 65536 + t.toNat * 2048) rfl rfl (by omega) rfl
theorem Opcode.addi d s i : Opcode.Statement (.addi d s i) :=
  of_word 0x02 (0x08000000 + d.toNat * 2097152 + s.toNat * 65536 + i.toNat) rfl rfl (by omega) rfl
theorem Opcode.andi d s i : Opcode.Statement (.andi d s i) :=
  of_word 0x03 (0x0C000000 + d.toNat * 2097152 + s.toNat * 65536 + i.toNat) rfl rfl (by omega) rfl
theorem Opcode.ori d s i : Opcode.Statement (.ori d s i) :=
  of_word 0x04 (0x10000000 + d.toNat * 2097152 + s.toNat * 65536 + i.toNat) rfl rfl (by omega) rfl
theorem Opcode.xori d s i : Opcode.Statement (.xori d s i) :=
  of_word 0x05 (0x14000000 + d.toNat * 2097152 + s.toNat * 65536 + i.toNat) rfl rfl (by omega) rfl
theorem Opcode.slti d s i : Opcode.Statement (.slti d s i) :=
  of_word 0x06 (0x18000000 + d.toNat * 2097152 + s.toNat * 65536 + i.toNat) rfl rfl (by omega) rfl
theorem Opcode.sltiu d s i : Opcode.Statement (.sltiu d s i) :=
  of_word 0x07 (0x1C000000 + d.toNat * 2097152 + s.toNat * 65536 + i.toNat) rfl rfl (by omega) rfl
theorem Opcode.lui d i : Opcode.Statement (.lui d i) :=
  of_word 0x08 (0x20000000 + d.toNat * 2097152 + i.toNat) rfl rfl (by omega) rfl
theorem Opcode.slli d s h : Opcode.Statement (.slli d s h) :=
  of_word 0x09 (0x24000000 + d.toNat * 2097152 + s.toNat * 65536 + h.toNat) rfl rfl (by omega) rfl
theorem Opcode.srli d s h : Opcode.Statement (.srli d s h) :=
  of_word 0x09 (0x24000020 + d.toNat * 2097152 + s.toNat * 65536 + h.toNat) rfl rfl (by omega) rfl
theorem Opcode.srai d s h : Opcode.Statement (.srai d s h) :=
  of_word 0x09 (0x24000040 + d.toNat * 2097152 + s.toNat * 65536 + h.toNat) rfl rfl (by omega) rfl
theorem Opcode.addpi d s i : Opcode.Statement (.addpi d s i) :=
  of_word 0x0A (0x28000000 + d.toNat * 2097152 + s.toNat * 65536 + i.toNat) rfl rfl (by omega) rfl
theorem Opcode.addp d s t : Opcode.Statement (.addp d s t) :=
  of_word 0x0B (0x2C000000 + d.toNat * 2097152 + s.toNat * 65536 + t.toNat * 2048) rfl rfl (by omega) rfl
theorem Opcode.subp d s t : Opcode.Statement (.subp d s t) :=
  of_word 0x0B (0x2C000001 + d.toNat * 2097152 + s.toNat * 65536 + t.toNat * 2048) rfl rfl (by omega) rfl
theorem Opcode.movp d s : Opcode.Statement (.movp d s) :=
  of_word 0x0B (0x2C000002 + d.toNat * 2097152 + s.toNat * 65536) rfl rfl (by omega) rfl
theorem Opcode.beq s t o : Opcode.Statement (.beq s t o) :=
  of_word 0x10 (0x40000000 + s.toNat * 2097152 + t.toNat * 65536 + o.toNat) rfl rfl (by omega) rfl
theorem Opcode.bne s t o : Opcode.Statement (.bne s t o) :=
  of_word 0x11 (0x44000000 + s.toNat * 2097152 + t.toNat * 65536 + o.toNat) rfl rfl (by omega) rfl
theorem Opcode.blt s t o : Opcode.Statement (.blt s t o) :=
  of_word 0x12 (0x48000000 + s.toNat * 2097152 + t.toNat * 65536 + o.toNat) rfl rfl (by omega) rfl
theorem Opcode.bge s t o : Opcode.Statement (.bge s t o) :=
  of_word 0x13 (0x4C000000 + s.toNat * 2097152 + t.toNat * 65536 + o.toNat) rfl rfl (by omega) rfl
theorem Opcode.bltu s t o : Opcode.Statement (.bltu s t o) :=
  of_word 0x14 (0x50000000 + s.toNat * 2097152 + t.toNat * 65536 + o.toNat) rfl rfl (by omega) rfl
theorem Opcode.bgeu s t o : Opcode.Statement (.bgeu s t o) :=
  of_word 0x15 (0x54000000 + s.toNat * 2097152 + t.toNat * 65536 + o.toNat) rfl rfl (by omega) rfl
theorem Opcode.bkany k o : Opcode.Statement (.bkany k o) :=
  of_word 0x16 (0x58000000 + k.toNat * 2097152 + o.toNat) rfl rfl (by omega) rfl
theorem Opcode.bkall k o : Opcode.Statement (.bkall k o) :=
  of_word 0x16 (0x59000000 + k.toNat * 2097152 + o.toNat) rfl rfl (by omega) rfl
theorem Opcode.bknone k o : Opcode.Statement (.bknone k o) :=
  of_word 0x16 (0x5A000000 + k.toNat * 2097152 + o.toNat) rfl rfl (by omega) rfl
theorem Opcode.bceos v o : Opcode.Statement (.bceos v o) :=
  of_word 0x17 (0x5C000000 + v.toNat * 2097152 + o.toNat) rfl rfl (by omega) rfl
theorem Opcode.j o : Opcode.Statement (.j o) :=
  of_word 0x18 (0x60000000 + o.toNat) rfl rfl (by omega) rfl
theorem Opcode.jal o : Opcode.Statement (.jal o) :=
  of_word 0x18 (0x62000000 + o.toNat) rfl rfl (by omega) rfl
theorem Opcode.jalr d s o : Opcode.Statement (.jalr d s o) :=
  of_word 0x19 (0x64000000 + d.toNat * 2097152 + s.toNat * 65536 + o.toNat) rfl rfl (by omega) rfl
theorem Opcode.jalrFar d s o : Opcode.Statement (.jalrFar d s o) :=
  of_word 0x19 (0x64000400 + d.toNat * 2097152 + s.toNat * 65536 + o.toNat) rfl rfl (by omega) rfl
theorem Opcode.dbnz s o : Opcode.Statement (.dbnz s o) :=
  of_word 0x1A (0x68000000 + s.toNat * 2097152 + o.toNat) rfl rfl (by omega) rfl
theorem Opcode.lb d b o : Opcode.Statement (.lb d b o) :=
  of_word 0x20 (0x80000000 + d.toNat * 2097152 + b.toNat * 131072 + o.toNat) rfl rfl (by omega) rfl
theorem Opcode.lbu d b o : Opcode.Statement (.lbu d b o) :=
  of_word 0x21 (0x84000000 + d.toNat * 2097152 + b.toNat * 131072 + o.toNat) rfl rfl (by omega) rfl
theorem Opcode.lh d b o : Opcode.Statement (.lh d b o) :=
  of_word 0x22 (0x88000000 + d.toNat * 2097152 + b.toNat * 131072 + o.toNat) rfl rfl (by omega) rfl
theorem Opcode.lhu d b o : Opcode.Statement (.lhu d b o) :=
  of_word 0x23 (0x8C000000 + d.toNat * 2097152 + b.toNat * 131072 + o.toNat) rfl rfl (by omega) rfl
theorem Opcode.lw d b o : Opcode.Statement (.lw d b o) :=
  of_word 0x24 (0x90000000 + d.toNat * 2097152 + b.toNat * 131072 + o.toNat) rfl rfl (by omega) rfl
theorem Opcode.ld d b o : Opcode.Statement (.ld d b o) :=
  of_word 0x25 (0x94000000 + d.toNat * 2097152 + b.toNat * 131072 + o.toNat) rfl rfl (by omega) rfl
theorem Opcode.sb d b o : Opcode.Statement (.sb d b o) :=
  of_word 0x26 (0x98000000 + d.toNat * 2097152 + b.toNat * 131072 + o.toNat) rfl rfl (by omega) rfl
theorem Opcode.sh d b o : Opcode.Statement (.sh d b o) :=
  of_word 0x27 (0x9C000000 + d.toNat * 2097152 + b.toNat * 131072 + o.toNat) rfl rfl (by omega) rfl
theorem Opcode.sw d b o : Opcode.Statement (.sw d b o) :=
  of_word 0x28 (0xA0000000 + d.toNat * 2097152 + b.toNat * 131072 + o.toNat) rfl rfl (by omega) rfl
theorem Opcode.sd d b o : Opcode.Statement (.sd d b o) :=
  of_word 0x29 (0xA4000000 + d.toNat * 2097152 + b.toNat * 131072 + o.toNat) rfl rfl (by omega) rfl
theorem Opcode.vld d b k o : Opcode.Statement (.vld d b k o) :=
  of_word 0x2A (0xA8000000 + d.toNat * 2097152 + b.toNat * 131072 + k.toNat * 32768 + o.toNat) rfl rfl (by omega) rfl
theorem Opcode.vst d b k o : Opcode.Statement (.vst d b k o) :=
  of_word 0x2B (0xAC000000 + d.toNat * 2097152 + b.toNat * 131072 + k.toNat * 32768 + o.toNat) rfl rfl (by omega) rfl
theorem Opcode.pf b h o : Opcode.Statement (.pf b h o) :=
  of_word 0x2C (0xB0000000 + b.toNat * 131072 + h.toNat * 32768 + o.toNat) rfl rfl (by omega) rfl
theorem Opcode.amoaddW d s t c a l : Opcode.Statement (.amoaddW d s t c a l) :=
  of_word 0x2D (0xB4000000 + d.toNat * 2097152 + s.toNat * 65536 + t.toNat * 2048 + c.toNat * 4 + a.toNat * 2 + l.toNat) rfl rfl (by omega) rfl
theorem Opcode.amoaddD d s t c a l : Opcode.Statement (.amoaddD d s t c a l) :=
  of_word 0x2D (0xB4000100 + d.toNat * 2097152 + s.toNat * 65536 + t.toNat * 2048 + c.toNat * 4 + a.toNat * 2 + l.toNat) rfl rfl (by omega) rfl
theorem Opcode.amoandW d s t c a l : Opcode.Statement (.amoandW d s t c a l) :=
  of_word 0x2D (0xB4000010 + d.toNat * 2097152 + s.toNat * 65536 + t.toNat * 2048 + c.toNat * 4 + a.toNat * 2 + l.toNat) rfl rfl (by omega) rfl
theorem Opcode.amoandD d s t c a l : Opcode.Statement (.amoandD d s t c a l) :=
  of_word 0x2D (0xB4000110 + d.toNat * 2097152 + s.toNat * 65536 + t.toNat * 2048 + c.toNat * 4 + a.toNat * 2 + l.toNat) rfl rfl (by omega) rfl
theorem Opcode.amoorW d s t c a l : Opcode.Statement (.amoorW d s t c a l) :=
  of_word 0x2D (0xB4000020 + d.toNat * 2097152 + s.toNat * 65536 + t.toNat * 2048 + c.toNat * 4 + a.toNat * 2 + l.toNat) rfl rfl (by omega) rfl
theorem Opcode.amoorD d s t c a l : Opcode.Statement (.amoorD d s t c a l) :=
  of_word 0x2D (0xB4000120 + d.toNat * 2097152 + s.toNat * 65536 + t.toNat * 2048 + c.toNat * 4 + a.toNat * 2 + l.toNat) rfl rfl (by omega) rfl
theorem Opcode.amoxorW d s t c a l : Opcode.Statement (.amoxorW d s t c a l) :=
  of_word 0x2D (0xB4000030 + d.toNat * 2097152 + s.toNat * 65536 + t.toNat * 2048 + c.toNat * 4 + a.toNat * 2 + l.toNat) rfl rfl (by omega) rfl
theorem Opcode.amoxorD d s t c a l : Opcode.Statement (.amoxorD d s t c a l) :=
  of_word 0x2D (0xB4000130 + d.toNat * 2097152 + s.toNat * 65536 + t.toNat * 2048 + c.toNat * 4 + a.toNat * 2 + l.toNat) rfl rfl (by omega) rfl
theorem Opcode.amominW d s t c a l : Opcode.Statement (.amominW d s t c a l) :=
  of_word 0x2D (0xB4000040 + d.toNat * 2097152 + s.toNat * 65536 + t.toNat * 2048 + c.toNat * 4 + a.toNat * 2 + l.toNat) rfl rfl (by omega) rfl
theorem Opcode.amominD d s t c a l : Opcode.Statement (.amominD d s t c a l) :=
  of_word 0x2D (0xB4000140 + d.toNat * 2097152 + s.toNat * 65536 + t.toNat * 2048 + c.toNat * 4 + a.toNat * 2 + l.toNat) rfl rfl (by omega) rfl
theorem Opcode.amomaxW d s t c a l : Opcode.Statement (.amomaxW d s t c a l) :=
  of_word 0x2D (0xB4000050 + d.toNat * 2097152 + s.toNat * 65536 + t.toNat * 2048 + c.toNat * 4 + a.toNat * 2 + l.toNat) rfl rfl (by omega) rfl
theorem Opcode.amomaxD d s t c a l : Opcode.Statement (.amomaxD d s t c a l) :=
  of_word 0x2D (0xB4000150 + d.toNat * 2097152 + s.toNat * 65536 + t.toNat * 2048 + c.toNat * 4 + a.toNat * 2 + l.toNat) rfl rfl (by omega) rfl
theorem Opcode.amominuW d s t c a l : Opcode.Statement (.amominuW d s t c a l) :=
  of_word 0x2D (0xB4000060 + d.toNat * 2097152 + s.toNat * 65536 + t.toNat * 2048 + c.toNat * 4 + a.toNat * 2 + l.toNat) rfl rfl (by omega) rfl
theorem Opcode.amominuD d s t c a l : Opcode.Statement (.amominuD d s t c a l) :=
  of_word 0x2D (0xB4000160 + d.toNat * 2097152 + s.toNat * 65536 + t.toNat * 2048 + c.toNat * 4 + a.toNat * 2 + l.toNat) rfl rfl (by omega) rfl
theorem Opcode.amomaxuW d s t c a l : Opcode.Statement (.amomaxuW d s t c a l) :=
  of_word 0x2D (0xB4000070 + d.toNat * 2097152 + s.toNat * 65536 + t.toNat * 2048 + c.toNat * 4 + a.toNat * 2 + l.toNat) rfl rfl (by omega) rfl
theorem Opcode.amomaxuD d s t c a l : Opcode.Statement (.amomaxuD d s t c a l) :=
  of_word 0x2D (0xB4000170 + d.toNat * 2097152 + s.toNat * 65536 + t.toNat * 2048 + c.toNat * 4 + a.toNat * 2 + l.toNat) rfl rfl (by omega) rfl
theorem Opcode.amoswapW d s t c a l : Opcode.Statement (.amoswapW d s t c a l) :=
  of_word 0x2D (0xB4000080 + d.toNat * 2097152 + s.toNat * 65536 + t.toNat * 2048 + c.toNat * 4 + a.toNat * 2 + l.toNat) rfl rfl (by omega) rfl
theorem Opcode.amoswapD d s t c a l : Opcode.Statement (.amoswapD d s t c a l) :=
  of_word 0x2D (0xB4000180 + d.toNat * 2097152 + s.toNat * 65536 + t.toNat * 2048 + c.toNat * 4 + a.toNat * 2 + l.toNat) rfl rfl (by omega) rfl
theorem Opcode.amofadd d s t c a l : Opcode.Statement (.amofadd d s t c a l) :=
  of_word 0x2D (0xB4000090 + d.toNat * 2097152 + s.toNat * 65536 + t.toNat * 2048 + c.toNat * 4 + a.toNat * 2 + l.toNat) rfl rfl (by omega) rfl
theorem Opcode.casW d s t c a l : Opcode.Statement (.casW d s t c a l) :=
  of_word 0x2D (0xB40000A0 + d.toNat * 2097152 + s.toNat * 65536 + t.toNat * 2048 + c.toNat * 4 + a.toNat * 2 + l.toNat) rfl rfl (by omega) rfl
theorem Opcode.casD d s t c a l : Opcode.Statement (.casD d s t c a l) :=
  of_word 0x2D (0xB40001A0 + d.toNat * 2097152 + s.toNat * 65536 + t.toNat * 2048 + c.toNat * 4 + a.toNat * 2 + l.toNat) rfl rfl (by omega) rfl
theorem Opcode.lrW d s c a l : Opcode.Statement (.lrW d s c a l) :=
  of_word 0x2D (0xB40000B0 + d.toNat * 2097152 + s.toNat * 65536 + c.toNat * 4 + a.toNat * 2 + l.toNat) rfl rfl (by omega) rfl
theorem Opcode.lrD d s c a l : Opcode.Statement (.lrD d s c a l) :=
  of_word 0x2D (0xB40001B0 + d.toNat * 2097152 + s.toNat * 65536 + c.toNat * 4 + a.toNat * 2 + l.toNat) rfl rfl (by omega) rfl
theorem Opcode.scW d s t c a l : Opcode.Statement (.scW d s t c a l) :=
  of_word 0x2D (0xB40000C0 + d.toNat * 2097152 + s.toNat * 65536 + t.toNat * 2048 + c.toNat * 4 + a.toNat * 2 + l.toNat) rfl rfl (by omega) rfl
theorem Opcode.scD d s t c a l : Opcode.Statement (.scD d s t c a l) :=
  of_word 0x2D (0xB40001C0 + d.toNat * 2097152 + s.toNat * 65536 + t.toNat * 2048 + c.toNat * 4 + a.toNat * 2 + l.toNat) rfl rfl (by omega) rfl
theorem Opcode.fence p s c : Opcode.Statement (.fence p s c) :=
  of_word 0x2D (0xB4000200 + p.toNat * 65536 + s.toNat * 2048 + c.toNat * 4) rfl rfl (by omega) rfl
theorem Opcode.fencei : Opcode.Statement .fencei := of_word 0x2D (0xB4000210) rfl rfl rfl rfl
theorem Opcode.barv d s c : Opcode.Statement (.barv d s c) :=
  of_word 0x2D (0xB4000220 + d.toNat * 2097152 + s.toNat * 65536 + c.toNat * 4) rfl rfl (by omega) rfl
theorem Opcode.barw s t c : Opcode.Statement (.barw s t c) :=
  of_word 0x2D (0xB4000230 + s.toNat * 65536 + t.toNat * 2048 + c.toNat * 4) rfl rfl (by omega) rfl
theorem Opcode.trig : Opcode.Statement .trig := of_word 0x2D (0xB4000240) rfl rfl rfl rfl
theorem Opcode.waitdep d : Opcode.Statement (.waitdep d) :=
  of_word 0x2D (0xB4000250 + d.toNat * 2097152) rfl rfl (by omega) rfl
theorem Opcode.wrs d s : Opcode.Statement (.wrs d s) :=
  of_word 0x2D (0xB4000260 + d.toNat * 2097152 + s.toNat * 65536) rfl rfl (by omega) rfl
theorem Opcode.fput d s t : Opcode.Statement (.fput d s t) :=
  of_word 0x2D (0xB4000600 + d.toNat * 2097152 + s.toNat * 65536 + t.toNat * 2048) rfl rfl (by omega) rfl
theorem Opcode.fget d s : Opcode.Statement (.fget d s) :=
  of_word 0x2D (0xB4000640 + d.toNat * 2097152 + s.toNat * 65536) rfl rfl (by omega) rfl
theorem Opcode.freset d s : Opcode.Statement (.freset d s) :=
  of_word 0x2D (0xB4000680 + d.toNat * 2097152 + s.toNat * 65536) rfl rfl (by omega) rfl
theorem Opcode.vadd d a b k y u : Opcode.Statement (.vadd d a b k y u) :=
  of_word 0x30 (0xC0000000 + d.toNat * 2097152 + a.toNat * 65536 + b.toNat * 2048 + k.toNat * 256 + y.toNat * 32 + u.toNat * 16) rfl rfl (by omega) rfl
theorem Opcode.vsub d a b k y u : Opcode.Statement (.vsub d a b k y u) :=
  of_word 0x30 (0xC0000001 + d.toNat * 2097152 + a.toNat * 65536 + b.toNat * 2048 + k.toNat * 256 + y.toNat * 32 + u.toNat * 16) rfl rfl (by omega) rfl
theorem Opcode.vmul d a b k y u : Opcode.Statement (.vmul d a b k y u) :=
  of_word 0x30 (0xC0000002 + d.toNat * 2097152 + a.toNat * 65536 + b.toNat * 2048 + k.toNat * 256 + y.toNat * 32 + u.toNat * 16) rfl rfl (by omega) rfl
theorem Opcode.vmin d a b k y u : Opcode.Statement (.vmin d a b k y u) :=
  of_word 0x30 (0xC0000003 + d.toNat * 2097152 + a.toNat * 65536 + b.toNat * 2048 + k.toNat * 256 + y.toNat * 32 + u.toNat * 16) rfl rfl (by omega) rfl
theorem Opcode.vmax d a b k y u : Opcode.Statement (.vmax d a b k y u) :=
  of_word 0x30 (0xC0000004 + d.toNat * 2097152 + a.toNat * 65536 + b.toNat * 2048 + k.toNat * 256 + y.toNat * 32 + u.toNat * 16) rfl rfl (by omega) rfl
theorem Opcode.vabs d a k y : Opcode.Statement (.vabs d a k y) :=
  of_word 0x30 (0xC0000005 + d.toNat * 2097152 + a.toNat * 65536 + k.toNat * 256 + y.toNat * 32) rfl rfl (by omega) rfl
theorem Opcode.vneg d a k y : Opcode.Statement (.vneg d a k y) :=
  of_word 0x30 (0xC0000006 + d.toNat * 2097152 + a.toNat * 65536 + k.toNat * 256 + y.toNat * 32) rfl rfl (by omega) rfl
theorem Opcode.vand d a b k y : Opcode.Statement (.vand d a b k y) :=
  of_word 0x30 (0xC0000007 + d.toNat * 2097152 + a.toNat * 65536 + b.toNat * 2048 + k.toNat * 256 + y.toNat * 32) rfl rfl (by omega) rfl
theorem Opcode.vor d a b k y : Opcode.Statement (.vor d a b k y) :=
  of_word 0x30 (0xC0000008 + d.toNat * 2097152 + a.toNat * 65536 + b.toNat * 2048 + k.toNat * 256 + y.toNat * 32) rfl rfl (by omega) rfl
theorem Opcode.vxor d a b k y : Opcode.Statement (.vxor d a b k y) :=
  of_word 0x30 (0xC0000009 + d.toNat * 2097152 + a.toNat * 65536 + b.toNat * 2048 + k.toNat * 256 + y.toNat * 32) rfl rfl (by omega) rfl
theorem Opcode.vandn d a b k y : Opcode.Statement (.vandn d a b k y) :=
  of_word 0x30 (0xC000000A + d.toNat * 2097152 + a.toNat * 65536 + b.toNat * 2048 + k.toNat * 256 + y.toNat * 32) rfl rfl (by omega) rfl
theorem Opcode.vsll d a b k y : Opcode.Statement (.vsll d a b k y) :=
  of_word 0x30 (0xC000000B + d.toNat * 2097152 + a.toNat * 65536 + b.toNat * 2048 + k.toNat * 256 + y.toNat * 32) rfl rfl (by omega) rfl
theorem Opcode.vsrl d a b k y : Opcode.Statement (.vsrl d a b k y) :=
  of_word 0x30 (0xC000000C + d.toNat * 2097152 + a.toNat * 65536 + b.toNat * 2048 + k.toNat * 256 + y.toNat * 32) rfl rfl (by omega) rfl
theorem Opcode.vsra d a b k y : Opcode.Statement (.vsra d a b k y) :=
  of_word 0x30 (0xC000000D + d.toNat * 2097152 + a.toNat * 65536 + b.toNat * 2048 + k.toNat * 256 + y.toNat * 32) rfl rfl (by omega) rfl
theorem Opcode.vclamp d a b k y u : Opcode.Statement (.vclamp d a b k y u) :=
  of_word 0x30 (0xC000000E + d.toNat * 2097152 + a.toNat * 65536 + b.toNat * 2048 + k.toNat * 256 + y.toNat * 32 + u.toNat * 16) rfl rfl (by omega) rfl
theorem Opcode.vdot d a b k y u : Opcode.Statement (.vdot d a b k y u) :=
  of_word 0x30 (0xC000000F + d.toNat * 2097152 + a.toNat * 65536 + b.toNat * 2048 + k.toNat * 256 + y.toNat * 32 + u.toNat * 16) rfl rfl (by omega) rfl
theorem Opcode.vaddF d a b k y : Opcode.Statement (.vaddF d a b k y) :=
  of_word 0x31 (0xC4000000 + d.toNat * 2097152 + a.toNat * 65536 + b.toNat * 2048 + k.toNat * 256 + y.toNat * 32) rfl rfl (by omega) rfl
theorem Opcode.vsubF d a b k y : Opcode.Statement (.vsubF d a b k y) :=
  of_word 0x31 (0xC4000001 + d.toNat * 2097152 + a.toNat * 65536 + b.toNat * 2048 + k.toNat * 256 + y.toNat * 32) rfl rfl (by omega) rfl
theorem Opcode.vmulF d a b k y : Opcode.Statement (.vmulF d a b k y) :=
  of_word 0x31 (0xC4000002 + d.toNat * 2097152 + a.toNat * 65536 + b.toNat * 2048 + k.toNat * 256 + y.toNat * 32) rfl rfl (by omega) rfl
theorem Opcode.vminF d a b k y : Opcode.Statement (.vminF d a b k y) :=
  of_word 0x31 (0xC4000003 + d.toNat * 2097152 + a.toNat * 65536 + b.toNat * 2048 + k.toNat * 256 + y.toNat * 32) rfl rfl (by omega) rfl
theorem Opcode.vmaxF d a b k y : Opcode.Statement (.vmaxF d a b k y) :=
  of_word 0x31 (0xC4000004 + d.toNat * 2097152 + a.toNat * 65536 + b.toNat * 2048 + k.toNat * 256 + y.toNat * 32) rfl rfl (by omega) rfl
theorem Opcode.vabsF d a k y : Opcode.Statement (.vabsF d a k y) :=
  of_word 0x31 (0xC4000005 + d.toNat * 2097152 + a.toNat * 65536 + k.toNat * 256 + y.toNat * 32) rfl rfl (by omega) rfl
theorem Opcode.vnegF d a k y : Opcode.Statement (.vnegF d a k y) :=
  of_word 0x31 (0xC4000006 + d.toNat * 2097152 + a.toNat * 65536 + k.toNat * 256 + y.toNat * 32) rfl rfl (by omega) rfl
theorem Opcode.vfma d a b k y : Opcode.Statement (.vfma d a b k y) :=
  of_word 0x31 (0xC4000007 + d.toNat * 2097152 + a.toNat * 65536 + b.toNat * 2048 + k.toNat * 256 + y.toNat * 32) rfl rfl (by omega) rfl
theorem Opcode.vfms d a b k y : Opcode.Statement (.vfms d a b k y) :=
  of_word 0x31 (0xC4000008 + d.toNat * 2097152 + a.toNat * 65536 + b.toNat * 2048 + k.toNat * 256 + y.toNat * 32) rfl rfl (by omega) rfl
theorem Opcode.vclampF d a b k y : Opcode.Statement (.vclampF d a b k y) :=
  of_word 0x31 (0xC4000009 + d.toNat * 2097152 + a.toNat * 65536 + b.toNat * 2048 + k.toNat * 256 + y.toNat * 32) rfl rfl (by omega) rfl
theorem Opcode.vdotF d a b k y : Opcode.Statement (.vdotF d a b k y) :=
  of_word 0x31 (0xC400000A + d.toNat * 2097152 + a.toNat * 65536 + b.toNat * 2048 + k.toNat * 256 + y.toNat * 32) rfl rfl (by omega) rfl
theorem Opcode.vcmpEq d a b k y u : Opcode.Statement (.vcmpEq d a b k y u) :=
  of_word 0x32 (0xC8000000 + d.toNat * 2097152 + a.toNat * 65536 + b.toNat * 2048 + k.toNat * 256 + y.toNat * 32 + u.toNat * 16) rfl rfl (by omega) rfl
theorem Opcode.vcmpNe d a b k y u : Opcode.Statement (.vcmpNe d a b k y u) :=
  of_word 0x32 (0xC8000001 + d.toNat * 2097152 + a.toNat * 65536 + b.toNat * 2048 + k.toNat * 256 + y.toNat * 32 + u.toNat * 16) rfl rfl (by omega) rfl
theorem Opcode.vcmpLt d a b k y u : Opcode.Statement (.vcmpLt d a b k y u) :=
  of_word 0x32 (0xC8000002 + d.toNat * 2097152 + a.toNat * 65536 + b.toNat * 2048 + k.toNat * 256 + y.toNat * 32 + u.toNat * 16) rfl rfl (by omega) rfl
theorem Opcode.vcmpLe d a b k y u : Opcode.Statement (.vcmpLe d a b k y u) :=
  of_word 0x32 (0xC8000003 + d.toNat * 2097152 + a.toNat * 65536 + b.toNat * 2048 + k.toNat * 256 + y.toNat * 32 + u.toNat * 16) rfl rfl (by omega) rfl
theorem Opcode.vcmpGt d a b k y u : Opcode.Statement (.vcmpGt d a b k y u) :=
  of_word 0x32 (0xC8000004 + d.toNat * 2097152 + a.toNat * 65536 + b.toNat * 2048 + k.toNat * 256 + y.toNat * 32 + u.toNat * 16) rfl rfl (by omega) rfl
theorem Opcode.vcmpGe d a b k y u : Opcode.Statement (.vcmpGe d a b k y u) :=
  of_word 0x32 (0xC8000005 + d.toNat * 2097152 + a.toNat * 65536 + b.toNat * 2048 + k.toNat * 256 + y.toNat * 32 + u.toNat * 16) rfl rfl (by omega) rfl
theorem Opcode.vsel d a b k y : Opcode.Statement (.vsel d a b k y) :=
  of_word 0x32 (0xC8000006 + d.toNat * 2097152 + a.toNat * 65536 + b.toNat * 2048 + k.toNat * 256 + y.toNat * 32) rfl rfl (by omega) rfl
theorem Opcode.kmovX d a : Opcode.Statement (.kmovX d a) :=
  of_word 0x32 (0xC8000007 + d.toNat * 2097152 + a.toNat * 65536) rfl rfl (by omega) rfl
theorem Opcode.kand d a b : Opcode.Statement (.kand d a b) :=
  of_word 0x32 (0xC8000008 + d.toNat * 2097152 + a.toNat * 65536 + b.toNat * 2048) rfl rfl (by omega) rfl
theorem Opcode.kor d a b : Opcode.Statement (.kor d a b) :=
  of_word 0x32 (0xC8000009 + d.toNat * 2097152 + a.toNat * 65536 + b.toNat * 2048) rfl rfl (by omega) rfl
theorem Opcode.kxor d a b : Opcode.Statement (.kxor d a b) :=
  of_word 0x32 (0xC800000A + d.toNat * 2097152 + a.toNat * 65536 + b.toNat * 2048) rfl rfl (by omega) rfl
theorem Opcode.knot d a : Opcode.Statement (.knot d a) :=
  of_word 0x32 (0xC800000B + d.toNat * 2097152 + a.toNat * 65536) rfl rfl (by omega) rfl
theorem Opcode.kmovK d a : Opcode.Statement (.kmovK d a) :=
  of_word 0x32 (0xC800000C + d.toNat * 2097152 + a.toNat * 65536) rfl rfl (by omega) rfl
theorem Opcode.kpopc d a : Opcode.Statement (.kpopc d a) :=
  of_word 0x32 (0xC800000D + d.toNat * 2097152 + a.toNat * 65536) rfl rfl (by omega) rfl
theorem Opcode.kfirst d a : Opcode.Statement (.kfirst d a) :=
  of_word 0x32 (0xC800000E + d.toNat * 2097152 + a.toNat * 65536) rfl rfl (by omega) rfl
theorem Opcode.kgen d s : Opcode.Statement (.kgen d s) :=
  of_word 0x32 (0xC800000F + d.toNat * 2097152 + s.toNat * 65536) rfl rfl (by omega) rfl
theorem Opcode.vcvt d a s k e : Opcode.Statement (.vcvt d a s k e) :=
  of_word 0x33 (0xCC000000 + d.toNat * 2097152 + a.toNat * 65536 + s.toNat * 2048 + k.toNat * 256 + e.toNat) rfl rfl (by omega) rfl
theorem Opcode.vexp2 d a k y : Opcode.Statement (.vexp2 d a k y) :=
  of_word 0x33 (0xCC000010 + d.toNat * 2097152 + a.toNat * 65536 + k.toNat * 256 + y.toNat * 32) rfl rfl (by omega) rfl
theorem Opcode.vlog2 d a k y : Opcode.Statement (.vlog2 d a k y) :=
  of_word 0x33 (0xCC000011 + d.toNat * 2097152 + a.toNat * 65536 + k.toNat * 256 + y.toNat * 32) rfl rfl (by omega) rfl
theorem Opcode.vrcp d a k y : Opcode.Statement (.vrcp d a k y) :=
  of_word 0x33 (0xCC000012 + d.toNat * 2097152 + a.toNat * 65536 + k.toNat * 256 + y.toNat * 32) rfl rfl (by omega) rfl
theorem Opcode.vrsqrt d a k y : Opcode.Statement (.vrsqrt d a k y) :=
  of_word 0x33 (0xCC000013 + d.toNat * 2097152 + a.toNat * 65536 + k.toNat * 256 + y.toNat * 32) rfl rfl (by omega) rfl
theorem Opcode.vpopc d a k y : Opcode.Statement (.vpopc d a k y) :=
  of_word 0x33 (0xCC000014 + d.toNat * 2097152 + a.toNat * 65536 + k.toNat * 256 + y.toNat * 32) rfl rfl (by omega) rfl
theorem Opcode.vredsum d a k y u : Opcode.Statement (.vredsum d a k y u) :=
  of_word 0x34 (0xD0000000 + d.toNat * 2097152 + a.toNat * 65536 + k.toNat * 256 + y.toNat * 32 + u.toNat * 16) rfl rfl (by omega) rfl
theorem Opcode.vredmax d a k y u : Opcode.Statement (.vredmax d a k y u) :=
  of_word 0x34 (0xD0000001 + d.toNat * 2097152 + a.toNat * 65536 + k.toNat * 256 + y.toNat * 32 + u.toNat * 16) rfl rfl (by omega) rfl
theorem Opcode.vredmin d a k y u : Opcode.Statement (.vredmin d a k y u) :=
  of_word 0x34 (0xD0000002 + d.toNat * 2097152 + a.toNat * 65536 + k.toNat * 256 + y.toNat * 32 + u.toNat * 16) rfl rfl (by omega) rfl
theorem Opcode.vargmax d a k y u : Opcode.Statement (.vargmax d a k y u) :=
  of_word 0x34 (0xD0000003 + d.toNat * 2097152 + a.toNat * 65536 + k.toNat * 256 + y.toNat * 32 + u.toNat * 16) rfl rfl (by omega) rfl
theorem Opcode.vscan d a k y : Opcode.Statement (.vscan d a k y) :=
  of_word 0x34 (0xD0000004 + d.toNat * 2097152 + a.toNat * 65536 + k.toNat * 256 + y.toNat * 32) rfl rfl (by omega) rfl
theorem Opcode.vperm d a b k y : Opcode.Statement (.vperm d a b k y) :=
  of_word 0x34 (0xD0000005 + d.toNat * 2097152 + a.toNat * 65536 + b.toNat * 2048 + k.toNat * 256 + y.toNat * 32) rfl rfl (by omega) rfl
theorem Opcode.vslide d a t k y : Opcode.Statement (.vslide d a t k y) :=
  of_word 0x34 (0xD0000006 + d.toNat * 2097152 + a.toNat * 65536 + t.toNat * 2048 + k.toNat * 256 + y.toNat * 32) rfl rfl (by omega) rfl
theorem Opcode.vtopk d a b k y u : Opcode.Statement (.vtopk d a b k y u) :=
  of_word 0x34 (0xD0000007 + d.toNat * 2097152 + a.toNat * 65536 + b.toNat * 2048 + k.toNat * 256 + y.toNat * 32 + u.toNat * 16) rfl rfl (by omega) rfl
theorem Opcode.vbcast d s k y : Opcode.Statement (.vbcast d s k y) :=
  of_word 0x34 (0xD0000008 + d.toNat * 2097152 + s.toNat * 65536 + k.toNat * 256 + y.toNat * 32) rfl rfl (by omega) rfl
theorem Opcode.vmvx d a t y : Opcode.Statement (.vmvx d a t y) :=
  of_word 0x34 (0xD0000009 + d.toNat * 2097152 + a.toNat * 65536 + t.toNat * 2048 + y.toNat * 32) rfl rfl (by omega) rfl
theorem Opcode.vins d s t y : Opcode.Statement (.vins d s t y) :=
  of_word 0x34 (0xD000000A + d.toNat * 2097152 + s.toNat * 65536 + t.toNat * 2048 + y.toNat * 32) rfl rfl (by omega) rfl
theorem Opcode.vmov d a k y : Opcode.Statement (.vmov d a k y) :=
  of_word 0x34 (0xD000000B + d.toNat * 2097152 + a.toNat * 65536 + k.toNat * 256 + y.toNat * 32) rfl rfl (by omega) rfl
theorem Opcode.vldg d p b k y : Opcode.Statement (.vldg d p b k y) :=
  of_word 0x35 (0xD4000000 + d.toNat * 2097152 + p.toNat * 65536 + b.toNat * 2048 + k.toNat * 256 + y.toNat * 32) rfl rfl (by omega) rfl
theorem Opcode.vsts d p b k y : Opcode.Statement (.vsts d p b k y) :=
  of_word 0x35 (0xD4000001 + d.toNat * 2097152 + p.toNat * 65536 + b.toNat * 2048 + k.toNat * 256 + y.toNat * 32) rfl rfl (by omega) rfl
theorem Opcode.mma s t : Opcode.Statement (.mma s t) :=
  of_word 0x38 (0xE0000001 + s.toNat * 65536 + t.toNat * 2048) rfl rfl (by omega) rfl
theorem Opcode.mmv s t : Opcode.Statement (.mmv s t) :=
  of_word 0x38 (0xE0000002 + s.toNat * 65536 + t.toNat * 2048) rfl rfl (by omega) rfl
theorem Opcode.mldb s t : Opcode.Statement (.mldb s t) :=
  of_word 0x38 (0xE0000003 + s.toNat * 65536 + t.toNat * 2048) rfl rfl (by omega) rfl
theorem Opcode.mldbS v t : Opcode.Statement (.mldbS v t) :=
  of_word 0x38 (0xE0000004 + v.toNat * 65536 + t.toNat * 2048) rfl rfl (by omega) rfl
theorem Opcode.mst s t : Opcode.Statement (.mst s t) :=
  of_word 0x38 (0xE0000005 + s.toNat * 65536 + t.toNat * 2048) rfl rfl (by omega) rfl
theorem Opcode.mrd d s t : Opcode.Statement (.mrd d s t) :=
  of_word 0x38 (0xE0000006 + d.toNat * 2097152 + s.toNat * 65536 + t.toNat * 2048) rfl rfl (by omega) rfl
theorem Opcode.mzero t : Opcode.Statement (.mzero t) :=
  of_word 0x38 (0xE0000007 + t.toNat * 2048) rfl rfl (by omega) rfl
theorem Opcode.mring d s t : Opcode.Statement (.mring d s t) :=
  of_word 0x38 (0xE0000008 + d.toNat * 2097152 + s.toNat * 65536 + t.toNat * 2048) rfl rfl (by omega) rfl
theorem Opcode.mvgo d s : Opcode.Statement (.mvgo d s) :=
  of_word 0x38 (0xE0000101 + d.toNat * 2097152 + s.toNat * 65536) rfl rfl (by omega) rfl
theorem Opcode.mvred d s : Opcode.Statement (.mvred d s) :=
  of_word 0x38 (0xE0000102 + d.toNat * 2097152 + s.toNat * 65536) rfl rfl (by omega) rfl
theorem Opcode.mvst d s : Opcode.Statement (.mvst d s) :=
  of_word 0x38 (0xE0000103 + d.toNat * 2097152 + s.toNat * 65536) rfl rfl (by omega) rfl
theorem Opcode.mvkill s : Opcode.Statement (.mvkill s) :=
  of_word 0x38 (0xE0000104 + s.toNat * 65536) rfl rfl (by omega) rfl
theorem Opcode.sbind d s t : Opcode.Statement (.sbind d s t) :=
  of_word 0x38 (0xE0000105 + d.toNat * 2097152 + s.toNat * 65536 + t.toNat * 2048) rfl rfl (by omega) rfl
theorem Opcode.cbind d s t : Opcode.Statement (.cbind d s t) :=
  of_word 0x38 (0xE0000106 + d.toNat * 2097152 + s.toNat * 65536 + t.toNat * 2048) rfl rfl (by omega) rfl
theorem Opcode.sunbind d : Opcode.Statement (.sunbind d) :=
  of_word 0x38 (0xE0000107 + d.toNat * 2097152) rfl rfl (by omega) rfl
theorem Opcode.cret d : Opcode.Statement (.cret d) :=
  of_word 0x38 (0xE0000108 + d.toNat * 2097152) rfl rfl (by omega) rfl
theorem Opcode.ceos d : Opcode.Statement (.ceos d) :=
  of_word 0x38 (0xE0000109 + d.toNat * 2097152) rfl rfl (by omega) rfl
theorem Opcode.cwait d s t : Opcode.Statement (.cwait d s t) :=
  of_word 0x38 (0xE0000201 + d.toNat * 2097152 + s.toNat * 65536 + t.toNat * 2048) rfl rfl (by omega) rfl
theorem Opcode.cadd s t : Opcode.Statement (.cadd s t) :=
  of_word 0x38 (0xE0000202 + s.toNat * 65536 + t.toNat * 2048) rfl rfl (by omega) rfl
theorem Opcode.cset s t : Opcode.Statement (.cset s t) :=
  of_word 0x38 (0xE0000203 + s.toNat * 65536 + t.toNat * 2048) rfl rfl (by omega) rfl
theorem Opcode.crd d s : Opcode.Statement (.crd d s) :=
  of_word 0x38 (0xE0000204 + d.toNat * 2097152 + s.toNat * 65536) rfl rfl (by omega) rfl
theorem Opcode.mw d s : Opcode.Statement (.mw d s) :=
  of_word 0x38 (0xE0000301 + d.toNat * 2097152 + s.toNat * 65536) rfl rfl (by omega) rfl
theorem Opcode.send d s t : Opcode.Statement (.send d s t) :=
  of_word 0x38 (0xE0000302 + d.toNat * 2097152 + s.toNat * 65536 + t.toNat * 2048) rfl rfl (by omega) rfl
theorem Opcode.sendw d s t : Opcode.Statement (.sendw d s t) :=
  of_word 0x38 (0xE0000303 + d.toNat * 2097152 + s.toNat * 65536 + t.toNat * 2048) rfl rfl (by omega) rfl
theorem Opcode.exit s t : Opcode.Statement (.exit s t) :=
  of_word 0x38 (0xE0000304 + s.toNat * 65536 + t.toNat * 2048) rfl rfl (by omega) rfl
theorem Opcode.bind d s t : Opcode.Statement (.bind d s t) :=
  of_word 0x38 (0xE0000305 + d.toNat * 2097152 + s.toNat * 65536 + t.toNat * 2048) rfl rfl (by omega) rfl
theorem Opcode.unbind d s : Opcode.Statement (.unbind d s) :=
  of_word 0x38 (0xE0000306 + d.toNat * 2097152 + s.toNat * 65536) rfl rfl (by omega) rfl
theorem Opcode.yield : Opcode.Statement .yield := of_word 0x38 (0xE0000307) rfl rfl rfl rfl
theorem Opcode.mbopen d s : Opcode.Statement (.mbopen d s) :=
  of_word 0x38 (0xE0000401 + d.toNat * 2097152 + s.toNat * 65536) rfl rfl (by omega) rfl
theorem Opcode.mbpub d s t : Opcode.Statement (.mbpub d s t) :=
  of_word 0x38 (0xE0000402 + d.toNat * 2097152 + s.toNat * 65536 + t.toNat * 2048) rfl rfl (by omega) rfl
theorem Opcode.mbld d s t : Opcode.Statement (.mbld d s t) :=
  of_word 0x38 (0xE0000403 + d.toNat * 2097152 + s.toNat * 65536 + t.toNat * 2048) rfl rfl (by omega) rfl
theorem Opcode.mbsnap d s t : Opcode.Statement (.mbsnap d s t) :=
  of_word 0x38 (0xE0000404 + d.toNat * 2097152 + s.toNat * 65536 + t.toNat * 2048) rfl rfl (by omega) rfl
theorem Opcode.mbver d s : Opcode.Statement (.mbver d s) :=
  of_word 0x38 (0xE0000405 + d.toNat * 2097152 + s.toNat * 65536) rfl rfl (by omega) rfl
theorem Opcode.tnow d : Opcode.Statement (.tnow d) :=
  of_word 0x38 (0xE0000501 + d.toNat * 2097152) rfl rfl (by omega) rfl
theorem Opcode.tuntil d s t : Opcode.Statement (.tuntil d s t) :=
  of_word 0x38 (0xE0000502 + d.toNat * 2097152 + s.toNat * 65536 + t.toNat * 2048) rfl rfl (by omega) rfl
theorem Opcode.swget d s t : Opcode.Statement (.swget d s t) :=
  of_word 0x38 (0xE0000503 + d.toNat * 2097152 + s.toNat * 65536 + t.toNat * 2048) rfl rfl (by omega) rfl
theorem Opcode.swadv d s t : Opcode.Statement (.swadv d s t) :=
  of_word 0x38 (0xE0000504 + d.toNat * 2097152 + s.toNat * 65536 + t.toNat * 2048) rfl rfl (by omega) rfl
theorem Opcode.gust d s : Opcode.Statement (.gust d s) :=
  of_word 0x38 (0xE0000601 + d.toNat * 2097152 + s.toNat * 65536) rfl rfl (by omega) rfl
theorem Opcode.gustrel s : Opcode.Statement (.gustrel s) :=
  of_word 0x38 (0xE0000602 + s.toNat * 65536) rfl rfl (by omega) rfl
theorem Opcode.gustq d s : Opcode.Statement (.gustq d s) :=
  of_word 0x38 (0xE0000603 + d.toNat * 2097152 + s.toNat * 65536) rfl rfl (by omega) rfl
theorem Opcode.qpost d : Opcode.Statement (.qpost d) :=
  of_word 0x38 (0xE0000604 + d.toNat * 2097152) rfl rfl (by omega) rfl
theorem Opcode.qclaim d s : Opcode.Statement (.qclaim d s) :=
  of_word 0x38 (0xE0000605 + d.toNat * 2097152 + s.toNat * 65536) rfl rfl (by omega) rfl
theorem Opcode.hacc s t : Opcode.Statement (.hacc s t) :=
  of_word 0x38 (0xE0000606 + s.toNat * 65536 + t.toNat * 2048) rfl rfl (by omega) rfl
theorem Opcode.lpin d s : Opcode.Statement (.lpin d s) :=
  of_word 0x38 (0xE0000701 + d.toNat * 2097152 + s.toNat * 65536) rfl rfl (by omega) rfl
theorem Opcode.lunpin d s : Opcode.Statement (.lunpin d s) :=
  of_word 0x38 (0xE0000702 + d.toNat * 2097152 + s.toNat * 65536) rfl rfl (by omega) rfl
theorem Opcode.lfill d s t : Opcode.Statement (.lfill d s t) :=
  of_word 0x38 (0xE0000703 + d.toNat * 2097152 + s.toNat * 65536 + t.toNat * 2048) rfl rfl (by omega) rfl
theorem Opcode.ldrop d s t : Opcode.Statement (.ldrop d s t) :=
  of_word 0x38 (0xE0000704 + d.toNat * 2097152 + s.toNat * 65536 + t.toNat * 2048) rfl rfl (by omega) rfl
theorem Opcode.lprobe d s : Opcode.Statement (.lprobe d s) :=
  of_word 0x38 (0xE0000705 + d.toNat * 2097152 + s.toNat * 65536) rfl rfl (by omega) rfl
theorem Opcode.glaunch d s : Opcode.Statement (.glaunch d s) :=
  of_word 0x38 (0xE0000710 + d.toNat * 2097152 + s.toNat * 65536) rfl rfl (by omega) rfl
theorem Opcode.gabort d s t : Opcode.Statement (.gabort d s t) :=
  of_word 0x38 (0xE0000711 + d.toNat * 2097152 + s.toNat * 65536 + t.toNat * 2048) rfl rfl (by omega) rfl
theorem Opcode.ecall : Opcode.Statement .ecall := of_word 0x39 (0xE4000001) rfl rfl rfl rfl
theorem Opcode.ebreak : Opcode.Statement .ebreak := of_word 0x39 (0xE4000002) rfl rfl rfl rfl
theorem Opcode.eret : Opcode.Statement .eret := of_word 0x39 (0xE4000003) rfl rfl rfl rfl
theorem Opcode.halt : Opcode.Statement .halt := of_word 0x39 (0xE4000004) rfl rfl rfl rfl
theorem Opcode.tinv s t : Opcode.Statement (.tinv s t) :=
  of_word 0x39 (0xE4000005 + s.toNat * 65536 + t.toNat * 2048) rfl rfl (by omega) rfl
theorem Opcode.csrr d c : Opcode.Statement (.csrr d c) :=
  of_word 0x39 (0xE4000100 + d.toNat * 2097152 + c.toNat) rfl rfl (by omega) rfl
theorem Opcode.csrw s c : Opcode.Statement (.csrw s c) :=
  of_word 0x39 (0xE4000200 + s.toNat * 65536 + c.toNat) rfl rfl (by omega) rfl
theorem Opcode.csrs s c : Opcode.Statement (.csrs s c) :=
  of_word 0x39 (0xE4000300 + s.toNat * 65536 + c.toNat) rfl rfl (by omega) rfl
theorem Opcode.csrc s c : Opcode.Statement (.csrc s c) :=
  of_word 0x39 (0xE4000400 + s.toNat * 65536 + c.toNat) rfl rfl (by omega) rfl
theorem Opcode.ewr s n : Opcode.Statement (.ewr s n) :=
  of_word 0x39 (0xE4000500 + s.toNat * 65536 + n.toNat) rfl rfl (by omega) rfl
theorem Opcode.erd d n : Opcode.Statement (.erd d n) :=
  of_word 0x39 (0xE4000600 + d.toNat * 2097152 + n.toNat) rfl rfl (by omega) rfl
theorem Opcode.safe h n : Opcode.Statement (.safe h n) :=
  of_word 0x39 (0xE4000700 + h.toNat * 2048 + n.toNat) rfl rfl (by omega) rfl
theorem Opcode.pfxExt p : Opcode.Statement (.pfxExt p) :=
  of_word 0x3F (0xFC000000 + p.toNat) rfl rfl (by omega) rfl
theorem Opcode.pfxOpt p : Opcode.Statement (.pfxOpt p) :=
  of_word 0x3F (0xFD000000 + p.toNat) rfl rfl (by omega) rfl
theorem Opcode.illegalEncoding a0 : Opcode.Statement (.illegalEncoding a0) := of_event rfl
theorem Opcode.messageArrival a0 : Opcode.Statement (.messageArrival a0) := of_event rfl
theorem Opcode.inboxPortAccept a0 : Opcode.Statement (.inboxPortAccept a0) := of_event rfl
theorem Opcode.messageDispatch a0 : Opcode.Statement (.messageDispatch a0) := of_event rfl
theorem Opcode.creditReturn a0 : Opcode.Statement (.creditReturn a0) := of_event rfl
theorem Opcode.successorSend a0 : Opcode.Statement (.successorSend a0) := of_event rfl
theorem Opcode.unboundHoldExpiry a0 : Opcode.Statement (.unboundHoldExpiry a0) := of_event rfl
theorem Opcode.gangRequestAccept : Opcode.Statement .gangRequestAccept := of_event rfl
theorem Opcode.placementPass : Opcode.Statement .placementPass := of_event rfl
theorem Opcode.gangMemberStart a0 a1 : Opcode.Statement (.gangMemberStart a0 a1) := of_event rfl
theorem Opcode.triggerNotice a0 : Opcode.Statement (.triggerNotice a0) := of_event rfl
theorem Opcode.l1ResizeComplete a0 : Opcode.Statement (.l1ResizeComplete a0) := of_event rfl
theorem Opcode.pageWalkComplete a0 a1 : Opcode.Statement (.pageWalkComplete a0 a1) := of_event rfl
theorem Opcode.translationReplay a0 : Opcode.Statement (.translationReplay a0) := of_event rfl
theorem Opcode.translationAbort a0 : Opcode.Statement (.translationAbort a0) := of_event rfl
theorem Opcode.storeBufferPerform a0 a1 : Opcode.Statement (.storeBufferPerform a0 a1) := of_event rfl
theorem Opcode.hostMemoryAccess a0 : Opcode.Statement (.hostMemoryAccess a0) := of_event rfl
theorem Opcode.matrixCommandComplete a0 : Opcode.Statement (.matrixCommandComplete a0) := of_event rfl
theorem Opcode.latchFillComplete a0 a1 : Opcode.Statement (.latchFillComplete a0 a1) := of_event rfl
theorem Opcode.handoffClaim a0 : Opcode.Statement (.handoffClaim a0) := of_event rfl
theorem Opcode.handoffComplete a0 : Opcode.Statement (.handoffComplete a0) := of_event rfl
theorem Opcode.moverElement a0 a1 : Opcode.Statement (.moverElement a0 a1) := of_event rfl
theorem Opcode.channelBeatArrival a0 : Opcode.Statement (.channelBeatArrival a0) := of_event rfl
theorem Opcode.channelCreditReturn a0 : Opcode.Statement (.channelCreditReturn a0) := of_event rfl
theorem Opcode.remoteCaddArrival a0 : Opcode.Statement (.remoteCaddArrival a0) := of_event rfl
theorem Opcode.squallScan : Opcode.Statement .squallScan := of_event rfl
theorem Opcode.tickDelivery a0 : Opcode.Statement (.tickDelivery a0) := of_event rfl
theorem Opcode.tickStart a0 a1 : Opcode.Statement (.tickStart a0 a1) := of_event rfl
theorem Opcode.budgetExpiry a0 a1 : Opcode.Statement (.budgetExpiry a0 a1) := of_event rfl
theorem Opcode.budgetKill a0 a1 : Opcode.Statement (.budgetKill a0 a1) := of_event rfl
theorem Opcode.mbsnapCopyComplete a0 : Opcode.Statement (.mbsnapCopyComplete a0) := of_event rfl
theorem Opcode.gustCodeStart a0 : Opcode.Statement (.gustCodeStart a0) := of_event rfl
theorem Opcode.gustHoldExpiry a0 : Opcode.Statement (.gustHoldExpiry a0) := of_event rfl
theorem Opcode.gustRelocation a0 : Opcode.Statement (.gustRelocation a0) := of_event rfl
theorem Opcode.heartbeatSend : Opcode.Statement .heartbeatSend := of_event rfl
theorem Opcode.heartbeatReceive : Opcode.Statement .heartbeatReceive := of_event rfl
theorem Opcode.heartbeatWindowExpiry : Opcode.Statement .heartbeatWindowExpiry := of_event rfl
theorem Opcode.fatalErrorMessage : Opcode.Statement .fatalErrorMessage := of_event rfl
theorem Opcode.hsctlTake : Opcode.Statement .hsctlTake := of_event rfl
theorem Opcode.mirrorPublishReceive a0 : Opcode.Statement (.mirrorPublishReceive a0) := of_event rfl
theorem Opcode.keepRegionMirrorReceive a0 : Opcode.Statement (.keepRegionMirrorReceive a0) := of_event rfl
theorem Opcode.timeSourceCorrection a0 : Opcode.Statement (.timeSourceCorrection a0) := of_event rfl
theorem Opcode.streamRecordArrival a0 a1 : Opcode.Statement (.streamRecordArrival a0 a1) := of_event rfl
theorem Opcode.ingestRecordCommit a0 : Opcode.Statement (.ingestRecordCommit a0) := of_event rfl
theorem Opcode.decodeTick a0 : Opcode.Statement (.decodeTick a0) := of_event rfl
theorem Opcode.decodeTickLate a0 : Opcode.Statement (.decodeTickLate a0) := of_event rfl
theorem Opcode.tuntilTimerExpiry a0 a1 : Opcode.Statement (.tuntilTimerExpiry a0 a1) := of_event rfl
theorem Opcode.egressLaunch a0 : Opcode.Statement (.egressLaunch a0) := of_event rfl
theorem Opcode.serviceStepScheduler a0 : Opcode.Statement (.serviceStepScheduler a0) := of_event rfl
theorem Opcode.stepBoundary : Opcode.Statement .stepBoundary := of_event rfl
theorem Opcode.samplingQueuePost a0 : Opcode.Statement (.samplingQueuePost a0) := of_event rfl
theorem Opcode.lineMissEvent a0 : Opcode.Statement (.lineMissEvent a0) := of_event rfl
theorem Opcode.lineFillEvent a0 : Opcode.Statement (.lineFillEvent a0) := of_event rfl
theorem Opcode.lineEvictionEvent a0 : Opcode.Statement (.lineEvictionEvent a0) := of_event rfl
theorem Opcode.agentBudgetExpiry a0 a1 : Opcode.Statement (.agentBudgetExpiry a0 a1) := of_event rfl
theorem Opcode.loaderStart a0 : Opcode.Statement (.loaderStart a0) := of_event rfl
theorem Opcode.loaderDescriptorComplete a0 : Opcode.Statement (.loaderDescriptorComplete a0) := of_event rfl
theorem Opcode.fgetParkRetry a0 a1 : Opcode.Statement (.fgetParkRetry a0 a1) := of_event rfl
theorem Opcode.futureWake a0 a1 : Opcode.Statement (.futureWake a0 a1) := of_event rfl
theorem Opcode.queuePacketStart a0 a1 : Opcode.Statement (.queuePacketStart a0 a1) := of_event rfl
theorem Opcode.doorbellWrite a0 a1 : Opcode.Statement (.doorbellWrite a0 a1) := of_event rfl
theorem Opcode.reconcilePass : Opcode.Statement .reconcilePass := of_event rfl
theorem Opcode.serviceInstallContext a0 : Opcode.Statement (.serviceInstallContext a0) := of_event rfl
theorem Opcode.serviceShootdown a0 : Opcode.Statement (.serviceShootdown a0) := of_event rfl
theorem Opcode.shootdownComplete : Opcode.Statement .shootdownComplete := of_event rfl
theorem Opcode.serviceCreateQueue a0 : Opcode.Statement (.serviceCreateQueue a0) := of_event rfl
theorem Opcode.serviceDestroyQueue a0 : Opcode.Statement (.serviceDestroyQueue a0) := of_event rfl
theorem Opcode.queueDestroyComplete a0 : Opcode.Statement (.queueDestroyComplete a0) := of_event rfl
theorem Opcode.serviceLoadCodeObject a0 a1 : Opcode.Statement (.serviceLoadCodeObject a0 a1) := of_event rfl
theorem Opcode.serviceMigratePage a0 : Opcode.Statement (.serviceMigratePage a0) := of_event rfl
theorem Opcode.serviceSetFrameOwner a0 : Opcode.Statement (.serviceSetFrameOwner a0) := of_event rfl
theorem Opcode.serviceUnknown a0 : Opcode.Statement (.serviceUnknown a0) := of_event rfl
theorem Opcode.thermalControlTick a0 a1 : Opcode.Statement (.thermalControlTick a0 a1) := of_event rfl
theorem Opcode.partitionEntryWrite a0 a1 : Opcode.Statement (.partitionEntryWrite a0 a1) := of_event rfl
theorem Opcode.partitionHalt a0 : Opcode.Statement (.partitionHalt a0) := of_event rfl
theorem Opcode.partitionResume a0 : Opcode.Statement (.partitionResume a0) := of_event rfl
theorem Opcode.partitionSave a0 : Opcode.Statement (.partitionSave a0) := of_event rfl
theorem Opcode.partitionRestore a0 : Opcode.Statement (.partitionRestore a0) := of_event rfl
theorem Opcode.partitionSpill a0 : Opcode.Statement (.partitionSpill a0) := of_event rfl
theorem Opcode.partitionFill a0 : Opcode.Statement (.partitionFill a0) := of_event rfl
theorem Opcode.partitionCommandComplete a0 : Opcode.Statement (.partitionCommandComplete a0) := of_event rfl
theorem Opcode.correctableError a0 a1 : Opcode.Statement (.correctableError a0 a1) := of_event rfl
theorem Opcode.uncorrectableError a0 a1 : Opcode.Statement (.uncorrectableError a0 a1) := of_event rfl
theorem Opcode.fatalError a0 a1 : Opcode.Statement (.fatalError a0 a1) := of_event rfl
theorem Opcode.errqWrite a0 : Opcode.Statement (.errqWrite a0) := of_event rfl
theorem Opcode.msixWindowExpiry a0 : Opcode.Statement (.msixWindowExpiry a0) := of_event rfl
theorem Opcode.dbgHaltreq a0 : Opcode.Statement (.dbgHaltreq a0) := of_event rfl
theorem Opcode.dbgResume a0 : Opcode.Statement (.dbgResume a0) := of_event rfl
theorem Opcode.dbgStep a0 : Opcode.Statement (.dbgStep a0) := of_event rfl
theorem Opcode.dbgBksync a0 : Opcode.Statement (.dbgBksync a0) := of_event rfl
theorem Opcode.bksyncComplete a0 : Opcode.Statement (.bksyncComplete a0) := of_event rfl
theorem Opcode.dbgdatAccess a0 a1 : Opcode.Statement (.dbgdatAccess a0 a1) := of_event rfl
theorem Opcode.logDwellExpiry a0 a1 : Opcode.Statement (.logDwellExpiry a0 a1) := of_event rfl
theorem Opcode.logctlWrite a0 a1 : Opcode.Statement (.logctlWrite a0 a1) := of_event rfl
theorem Opcode.pmselWrite a0 a1 : Opcode.Statement (.pmselWrite a0 a1) := of_event rfl
theorem Opcode.tickEntryWrite a0 a1 : Opcode.Statement (.tickEntryWrite a0 a1) := of_event rfl
theorem Opcode.mailboxSlotWrite a0 a1 : Opcode.Statement (.mailboxSlotWrite a0 a1) := of_event rfl
theorem Opcode.gustPoolWrite a0 : Opcode.Statement (.gustPoolWrite a0) := of_event rfl
theorem Opcode.gustProfileWrite a0 a1 : Opcode.Statement (.gustProfileWrite a0 a1) := of_event rfl
theorem Opcode.tmctlWrite a0 : Opcode.Statement (.tmctlWrite a0) := of_event rfl
theorem Opcode.timedStreamWrite a0 a1 : Opcode.Statement (.timedStreamWrite a0 a1) := of_event rfl
theorem Opcode.treeTemplateWrite a0 a1 : Opcode.Statement (.treeTemplateWrite a0 a1) := of_event rfl
theorem Opcode.eventTableRowWrite a0 a1 a2 : Opcode.Statement (.eventTableRowWrite a0 a1 a2) := of_event rfl
theorem Opcode.sqcfgWrite a0 : Opcode.Statement (.sqcfgWrite a0) := of_event rfl
theorem Opcode.shedctlWrite a0 : Opcode.Statement (.shedctlWrite a0) := of_event rfl
theorem Opcode.feataccWrite a0 : Opcode.Statement (.feataccWrite a0) := of_event rfl
theorem Opcode.perstRelease : Opcode.Statement .perstRelease := of_event rfl
theorem Opcode.bootGo : Opcode.Statement .bootGo := of_event rfl
theorem Opcode.bootVerifyComplete a0 : Opcode.Statement (.bootVerifyComplete a0) := of_event rfl
theorem Opcode.attestRequest : Opcode.Statement .attestRequest := of_event rfl
theorem Opcode.attestComplete : Opcode.Statement .attestComplete := of_event rfl
theorem Opcode.registerWrite a0 a1 a2 : Opcode.Statement (.registerWrite a0 a1 a2) := of_event rfl
theorem Opcode.requestResponse a0 a1 : Opcode.Statement (.requestResponse a0 a1) := of_event rfl
theorem Opcode.wrsTimeout a0 a1 : Opcode.Statement (.wrsTimeout a0 a1) := of_event rfl
theorem Opcode.barrierArrival a0 : Opcode.Statement (.barrierArrival a0) := of_event rfl
theorem Opcode.perstAssert : Opcode.Statement .perstAssert := of_event rfl
theorem Opcode.sourceLockLoss : Opcode.Statement .sourceLockLoss := of_event rfl

end Sys2Proof.Laws
end

