-- ==== Sys2Proof/Laws/Step.lean ====
section
/-! SUPPORT. What a turn can do: the word a slot fetches, how a READY and a waiting slot carry it out, and the step. -/

namespace Sys2Proof.Machine

/-- The four bytes at a location, as the word of the decoder. -/
theorem wordOfBytes_read (s : State) (loc : Nat) : wordOfBytes (s.read loc 4) = BitVec.ofNat 32 (s.readNat loc 4) := by
  simp only [State.readNat, State.read, memRead, wordOfBytes, leNat, List.getD_cons_zero,
    List.getD_cons_succ]
  congr 1
  omega

/-- A word that the slot fetched before is seen again. -/
theorem fetchWord_own {s : State} {c n pc loc : Nat} {x : FetchedWord} (h : FMap.find (s.thread c n).fetched loc = some x) :
    s.fetchWord c n pc loc = (x, s) := by simp [State.fetchWord, h]

/-- A word that the instruction cache holds is kept by the slot. -/
theorem fetchWord_held {s : State} {c n pc loc : Nat} {e : Nat × FetchedWord}
    (h : FMap.find (s.thread c n).fetched loc = none) (hi : (s.core c).icache.find? (·.1 == loc) = some e) :
    s.fetchWord c n pc loc = (e.2, s.modThread c n fun t => { t with fetched := FMap.put t.fetched loc e.2 }) := by
  simp [State.fetchWord, h, hi]

/-- A word that neither holds is read from memory, with its break bit, and both keep it. -/
theorem fetchWord_fresh {s : State} {c n pc loc : Nat} (h : FMap.find (s.thread c n).fetched loc = none)
    (hi : (s.core c).icache.find? (·.1 == loc) = none) :
    s.fetchWord c n pc loc =
      (let w : FetchedWord := { word := wordOfBytes (s.read loc 4), pc := pc, brk := s.bitmapBit c pc }
       (w, ((s.bitmapRecord c pc).modCore c fun k =>
         { k with icache := (loc, w) :: k.icache.take (cacheWords - 1) }).modThread c n fun t =>
           { t with fetched := FMap.put t.fetched loc w })) := by
  simp [State.fetchWord, h, hi, State.freshWord, wordOfBytes_read]

/-- The turn of a slot that can have one, when nothing stands before its fetch and the fetch finds its word: a break bit that
came with the word stops the slot, a READY slot issues, and a waiting slot tries its instruction again. -/
theorem runThread_word {b u v : State} {c n loc : Nat} (hc : c < 360) (hn : n < 4) (hcan : (b.core c).canTurn n = true)
    (hb : (({ b with cur := c, slot := n } : State).modCore c fun k => { k with lastTry := n }).before c n = .go u)
    (hh : u.fetchHeader c n = .inl v) (hl : v.fetchLoc c n (v.thread c n).bank.pc 4 = .inl loc) :
    let pc := (v.thread c n).bank.pc
    let seen := if coreType c = .reasoning then v.touchTlb c ((v.thread c n).act.getD {}).asid 0 pc.toNat .fetch else v
    let r := seen.fetchWord c n pc.toNat loc
    runThread c n b =
      if r.2.breakAt c n r.1 = true then .next (r.2.debugStop c n 2)
      else if (r.2.thread c n).run = .ready then execWord r.1.word (r.2.modCore c fun k => { k with lastSlot := n })
      else r.2.retry c n (execWord r.1.word r.2) := by
  have h4 : ¬4 ≤ n := Nat.not_le.mpr hn
  dsimp only
  unfold runThread State.fetch
  simp only [isCore, hc, h4, hcan, decide_true, decide_false, Bool.not_true, Bool.false_or, if_false, Bool.false_eq_true]
  rw [hb]
  simp only [hh, hl]

/-- A word that decodes is carried out as its instruction. -/
theorem execWord_some {w : Word} {i : Instr} (h : decode w = some i) (s : State) : execWord w s = exec i s := by
  simp only [execWord, h]

/-- A word that encodes nothing is carried out as an illegal one. -/
theorem execWord_none {w : Word} (h : decode w = none) (s : State) : execWord w s = exec (.illegalEncoding w) s := by
  simp only [execWord, h]

/-- What a retry answers: a wait or a suspension as it is, else the instruction's effect with the issue slot, or a READY slot
where another has it. -/
theorem retry_next (s t : State) (c n : Nat) :
    s.retry c n (.next t) = .next
      (match (t.thread c n).run with
      | .blocked _ => t
      | .suspended _ => t
      | _ => if (s.core c).hasIssue n = true then t.modCore c fun k => { k with lastSlot := n }
        else s.modThread c n fun h => { h with run := .ready }) := by
  cases h : (t.thread c n).run <;> simp only [State.retry, h] <;> split <;> rfl

/-- A step on a thread's entry of the schedule is its turn, after time has moved on. -/
theorem step_thread {s : State} {c n : Nat} {rest : List Turn} (h : s.agenda = .thread c n :: rest) :
    step s = runThread c n ({ s with agenda := rest } : State).advance := by simp only [step, h, runTurn]

/-- A step that the schedule leaves open, where nothing recurs and no duty is due, is the turn of the next thread. -/
theorem step_nextTurn {s : State} {c n : Nat} (h : s.agenda = []) (hp : s.advance.periodic = none) (hd : s.advance.duty = none)
    (ht : s.advance.nextTurn = some (.thread c n)) : step s = runThread c n s.advance := by
  simp only [step, h, State.idleTurn, hp, ht, hd, runTurn]
  split <;> rfl

end Sys2Proof.Machine
end

