-- ==== Sys2Proof/Tests/Slice0.lean ====
section
/-! SUPPORT. Tests: ill-formed terms are refused, words that the specification writes out decode, instructions give the results
of the specification's own examples, and for every statement with hypotheses a state and operands that meet them. -/

set_option Elab.async false

open Sys2Proof Sys2Proof.Machine

/-- A thread that is ready on slot 0 of a core, with x registers and in a mode, every feature accepted. -/
def tester (c : Nat) (sup : Bool) (l : List (Nat × Word)) : State :=
  let s : State := { State.reset with cur := c, slot := 0, boot := { State.reset.boot with featacc := 0x3FF } }
  s.setTh (l.foldl (fun t e => t.setX e.1 e.2) { s.th with run := .ready, csr := { s.th.csr with mode := sup } })

/-! Well-formedness: one ill-formed term for each check. -/

theorem test_wf_pair : wellFormed (.addp 0 1 1) = false ∧ wellFormed (.movp 16 1) = false ∧ wellFormed (.movp 15 1) = true := by
  decide

theorem test_wf_bound_register : wellFormed (.sunbind 23) = false ∧ wellFormed (.sunbind 24) = true := by decide

theorem test_wf_integer_type : wellFormed (.vadd 0 0 0 0 3 0) = false ∧ wellFormed (.vadd 0 0 0 0 0 1) = false := by decide

theorem test_wf_signed_type : wellFormed (.vabs 0 0 0 6) = false ∧ wellFormed (.vabs 0 0 0 2) = true := by decide

theorem test_wf_float_type : wellFormed (.vfma 0 0 0 0 2) = false ∧ wellFormed (.vfma 0 0 0 0 4) = true := by decide

theorem test_wf_any_type : wellFormed (.vredsum 0 0 0 4 1) = false ∧ wellFormed (.vsel 0 0 0 0 7) = false := by decide

theorem test_wf_index_type : wellFormed (.vldg 0 1 0 0 4) = false ∧ wellFormed (.vldg 0 0 0 0 2) = false := by decide

theorem test_wf_conversion : wellFormed (.vcvt 0 0 4 0 4) = false ∧ wellFormed (.vcvt 0 0 11 0 4) = false := by decide

theorem test_wf_top_pair : wellFormed (.vtopk 1 0 0 0 2 0) = false := by decide

theorem test_wf_csr : wellFormed (.csrr 1 0x04) = false ∧ wellFormed (.csrr 1 0x61) = true := by decide

theorem test_wf_prefix : wellFormed (.pfxExt 0x10000) = false ∧ wellFormed (.pfxOpt 5) = false ∧
    wellFormed (.pfxOpt 0x18) = false ∧ wellFormed (.pfxOpt 0xC0) = false ∧ wellFormed (.pfxOpt 0x100) = false := by decide

theorem test_wf_fence : wellFormed (.fence 0 1 2) = false ∧ wellFormed (.fence 1 0 2) = false := by decide

theorem test_wf_scope : wellFormed (.barv 1 2 3) = false ∧ wellFormed (.pf 0 3 0) = false := by decide

theorem test_wf_far_jump : wellFormed (.jalrFar 16 1 0) = false ∧ wellFormed (.jalrFar 0 1 0) = true := by decide

theorem test_wf_event_units : wellFormed (.dbgHaltreq 360) = false ∧ wellFormed (.tickStart 255 0) = false ∧
    wellFormed (.partitionHalt 16) = false ∧ wellFormed (.decodeTick 128) = false ∧ wellFormed (.doorbellWrite 1024 0) = false ∧
    wellFormed (.queuePacketStart 351 0) = false ∧ wellFormed (.gangMemberStart 0 4) = false ∧
    wellFormed (.loaderStart 64) = false ∧ wellFormed (.egressLaunch 16) = false ∧ wellFormed (.msixWindowExpiry 32) = false := by
  decide

/-! Decoding: words that the specification writes out, by family. -/

/-- A word decodes to an instruction, and the instruction encodes to the word. -/
abbrev reads (w : Word) (i : Instr) : Prop := decode w = some i ∧ encode i = w

theorem test_decode_integer : reads 0x04A63800 (.add 5 6 7) ∧ reads 0x04A63801 (.sub 5 6 7) ∧ reads 0x04A63803 (.or 5 6 7) ∧
    reads 0x04A63809 (.rol 5 6 7) ∧ reads 0x04A6380F (.maxu 5 6 7) ∧ reads 0x04A63812 (.mulhu 5 6 7) ∧
    reads 0x04A63816 (.remu 5 6 7) ∧ reads 0x04A6001C (.sextH 5 6) ∧ reads 0x04A63820 (.bfx 5 6 7) := by decide +kernel

theorem test_decode_immediate : reads 0x08A6FFFF (.addi 5 6 0xFFFF) ∧ reads 0x10A600FF (.ori 5 6 0xFF) ∧
    reads 0x18A6FFFF (.slti 5 6 0xFFFF) ∧ reads 0x1CA60010 (.sltiu 5 6 16) ∧ reads 0x22A01000 (.lui 21 0x1000) ∧
    reads 0x24A60023 (.srli 5 6 3) ∧ reads 0x24A60043 (.srai 5 6 3) ∧ reads 0x294A0004 (.addpi 10 10 4) := by decide +kernel

theorem test_decode_pair : reads 0x2C642800 (.addp 3 4 5) ∧ reads 0x2CA32001 (.subp 5 3 4) ∧ reads 0x2CA30002 (.movp 5 3) := by
  decide +kernel

theorem test_decode_branch : reads 0x40A60002 (.beq 5 6 2) ∧ reads 0x40C0FFFA (.beq 6 0 0xFFFA) ∧ reads 0x58400003 (.bkany 2 3) ∧
    reads 0x5A20FFFF (.bknone 1 0xFFFF) ∧ reads 0x5F000004 (.bceos 24 4) ∧ reads 0x62000010 (.jal 16) ∧
    reads 0x61FFFFFF (.j 0x1FFFFFF) ∧ reads 0x64010000 (.jalr 0 1 0) ∧ reads 0x64830402 (.jalrFar 4 3 2) ∧
    reads 0x6A60FFFB (.dbnz 19 0xFFFB) := by decide +kernel

theorem test_decode_memory : reads 0x84E00003 (.lbu 7 0 3) ∧ reads 0x88A67FFF (.lh 5 3 0x7FFF) ∧ reads 0x90B40000 (.lw 5 10 0) ∧
    reads 0x94A60001 (.ld 5 3 1) ∧ reads 0x98A67FFF (.sb 5 3 0x7FFF) ∧ reads 0x9CA00001 (.sh 5 0 1) ∧
    reads 0xA2404010 (.sw 18 0 0x4010) ∧ reads 0xA4A60001 (.sd 5 3 1) ∧ reads 0xB0068002 (.pf 3 1 2) ∧
    reads 0xB0010001 (.pf 0 2 1) := by decide +kernel

theorem test_decode_atomic : reads 0xB4A33008 (.amoaddW 5 3 6 2 0 0) ∧ reads 0xB4A331AE (.casD 5 3 6 3 1 0) ∧
    reads 0xB4A300B8 (.lrW 5 3 2 0 0) ∧ reads 0xB4A301B8 (.lrD 5 3 2 0 0) ∧ reads 0xB4A330C8 (.scW 5 3 6 2 0 0) ∧
    reads 0xB4A331C8 (.scD 5 3 6 2 0 0) ∧ reads 0xB4031A08 (.fence 3 3 2) ∧ reads 0xB402120C (.fence 2 2 3) ∧
    reads 0xB4A60228 (.barv 5 6 2) ∧ reads 0xB4062A38 (.barw 6 5 2) ∧ reads 0xB4A32600 (.fput 5 3 4) ∧
    reads 0xB4A30640 (.fget 5 3) ∧ reads 0xB4A30680 (.freset 5 3) := by decide +kernel

theorem test_decode_vector : reads 0xC0642840 (.vadd 3 4 5 0 2 0) ∧ reads 0xC0642830 (.vadd 3 4 5 0 1 1) ∧
    reads 0xC0640005 (.vabs 3 4 0 0) ∧ reads 0xC064282A (.vandn 3 4 5 0 1) ∧ reads 0xC064284E (.vclamp 3 4 5 0 2 0) ∧
    reads 0xC4642884 (.vmaxF 3 4 5 0 4) ∧ reads 0xC46400A6 (.vnegF 3 4 0 5) ∧
    reads 0xC4642A87 (.vfma 3 4 5 2 4) ∧ reads 0xC464288A (.vdotF 3 4 5 0 4) := by decide +kernel

theorem test_decode_vector_moves : reads 0xD0480051 (.vredmax 2 8 0 2 1) ∧ reads 0xD0A40063 (.vargmax 5 4 0 3 0) ∧
    reads 0xD0640044 (.vscan 3 4 0 2) ∧ reads 0xD0050048 (.vbcast 0 5 0 2) ∧ reads 0xD0A43049 (.vmvx 5 4 6 2) ∧
    reads 0xD065304A (.vins 3 5 6 2) ∧ reads 0xD064014B (.vmov 3 4 1 2) ∧ reads 0xD0182987 (.vtopk 0 24 5 1 4 0) ∧
    reads 0xC8242852 (.vcmpLt 1 4 5 0 2 1) ∧ reads 0xC8463885 (.vcmpGe 2 6 7 0 4 0) ∧ reads 0xC8642A46 (.vsel 3 4 5 2 2) ∧
    reads 0xCC434804 (.vcvt 2 3 9 0 4) ∧ reads 0xCC430103 (.vcvt 2 3 0 1 3) := by decide +kernel

theorem test_decode_mask : reads 0xC8A20007 (.kmovX 5 2) ∧ reads 0xC8221808 (.kand 1 2 3) ∧ reads 0xC822000C (.kmovK 1 2) ∧
    reads 0xC8C4000E (.kfirst 6 4) ∧ reads 0xC827000F (.kgen 1 7) := by decide +kernel

theorem test_decode_engine : reads 0xE0053001 (.mma 5 6) ∧ reads 0xE0183004 (.mldbS 24 6) ∧ reads 0xE0853006 (.mrd 4 5 6) ∧
    reads 0xE0003007 (.mzero 6) ∧ reads 0xE0A63808 (.mring 5 6 7) ∧ reads 0xE0A60101 (.mvgo 5 6) ∧ reads 0xE0060104 (.mvkill 6) ∧
    reads 0xE3053105 (.sbind 24 5 6) ∧ reads 0xE3053106 (.cbind 24 5 6) ∧ reads 0xE3200107 (.sunbind 25) ∧
    reads 0xE3200108 (.cret 25) ∧ reads 0xE3400109 (.ceos 26) := by decide +kernel

theorem test_decode_thread : reads 0xE0A63A01 (.cwait 5 6 7) ∧ reads 0xE0053202 (.cadd 5 6) ∧ reads 0xE0E50204 (.crd 7 5) ∧
    reads 0xE04A0301 (.mw 2 10) ∧ reads 0xE0A63B02 (.send 5 6 7) ∧ reads 0xE00A5B04 (.exit 10 11) ∧
    reads 0xE0A32305 (.bind 5 3 4) := by decide +kernel

theorem test_decode_units : reads 0xE0A63C02 (.mbpub 5 6 7) ∧ reads 0xE0860405 (.mbver 4 6) ∧ reads 0xE0600501 (.tnow 3) ∧
    reads 0xE0A33504 (.swadv 5 3 6) ∧ reads 0xE0A60603 (.gustq 5 6) ∧ reads 0xE0A00604 (.qpost 5) ∧
    reads 0xE0860605 (.qclaim 4 6) ∧ reads 0xE0053606 (.hacc 5 6) ∧ reads 0xE0A33703 (.lfill 5 3 6) ∧
    reads 0xE0A30710 (.glaunch 5 3) ∧ reads 0xE0A60711 (.gabort 5 6 0) := by decide +kernel

theorem test_decode_system : reads 0xE4000004 .halt ∧ reads 0xE4033005 (.tinv 3 6) ∧ reads 0xE4A00100 (.csrr 5 0) ∧
    reads 0xE4060202 (.csrw 6 2) ∧ reads 0xE4050500 (.ewr 5 0) ∧ reads 0xE4600609 (.erd 3 9) ∧ reads 0xE4000F23 (.safe 1 0x23) ∧
    reads 0xFC000001 (.pfxExt 1) ∧ reads 0xFD000010 (.pfxOpt 0x10) := by decide +kernel

theorem test_decode_reserved : decode 0 = none ∧ decode 0xE0000000 = none ∧ decode 0x04A63817 = none ∧ decode 0xFE000000 = none := by
  decide +kernel

/-! Results that the specification's own examples give, each one step. -/

/-- The state that an instruction answers. -/
def after (i : Instr) (s : State) : State := match exec i s with | .next t => t | _ => s

theorem test_bfx_example : (after (.bfx 5 6 7) (tester 0 false [(6, 0x12345678), (7, 0x0C08)])).th.getX 5 = 0x456 := by
  decide +kernel

theorem test_bfi_example :
    (after (.bfi 5 6 7) (tester 0 false [(5, 0xFFFFFFFF), (6, 0xABC), (7, 0x0C08)])).th.getX 5 = 0xFFFABCFF := by decide +kernel

/-- The one division that overflows wraps (R369). -/
theorem test_div_wraps : (after (.div 5 6 7) (tester 0 false [(6, 0x80000000), (7, 0xFFFFFFFF)])).th.getX 5 = 0x80000000 := by
  decide +kernel

/-- `dbnz x0` always branches, and x0 stays zero (R389). -/
theorem test_dbnz_zero : (after (.dbnz 0 4) (tester 0 false [])).pc = 16 ∧ (after (.dbnz 0 4) (tester 0 false [])).th.getX 0 = 0 := by
  decide +kernel

/-- An `addi` with x0 as its destination discards its result and only advances pc. -/
theorem test_x0_discards : (after (.addi 0 6 1) (tester 0 false [(6, 5)])).th.getX 0 = 0 ∧
    (after (.addi 0 6 1) (tester 0 false [(6, 5)])).pc = 4 := by decide +kernel

/-- The trap of R302's example: a misaligned `lw` behind a prefix saves the prefix's address and PFX. -/
def misaligned : State :=
  let s := tester 0 false [(6, 0x10002), (7, 0x10000000)]
  s.setTh { s.th.setPc 0x70004 with pfx := some 0xFC000001, csr := { s.th.csr with tvec := 0x80000 } }

theorem test_trap_example : (after (.lw 5 3 1) misaligned).th.csr.epc = 0x70000 ∧
    (after (.lw 5 3 1) misaligned).th.csr.causePfx = true ∧ (after (.lw 5 3 1) misaligned).th.csr.causeCode = 0x08 ∧
    (after (.lw 5 3 1) misaligned).th.csr.pmode = false ∧ (after (.lw 5 3 1) misaligned).th.csr.mode = true ∧
    (after (.lw 5 3 1) misaligned).th.getX 5 = 0 := by decide +kernel

/-- The first call of R493's example: the top eight of one register of FP32 numbers. -/
def topk : State :=
  let s := tester 0 false []
  let inf : List Nat := List.replicate 8 0xFF800000
  s.setTh ((((s.th.setV 0 (ofLanes 4 inf)).setV 1 (ofLanes 4 (List.replicate 8 0xFFFFFFFF))).setV 4 (ofLanes 4
    [0x3F800000, 0x40400000, 0x7FC00000, 0x40400000, 0x80000000, 0x40000000, 0x3F000000, 0])).setV 5 (ofLanes 4 [100]))

theorem test_vtopk_example :
    (after (.vtopk 0 4 5 0 3 0) topk).th.getV 0 =
      ofLanes 4 [0x40400000, 0x40400000, 0x40000000, 0x3F800000, 0x3F000000, 0, 0x80000000, 0xFF800000] ∧
    (after (.vtopk 0 4 5 0 3 0) topk).th.getV 1 = ofLanes 4 [101, 103, 105, 100, 106, 107, 104, 0xFFFFFFFF] := by decide +kernel

/-- Slot 0 of a core after one step. -/
def slotAfterStep (s : State) (c : Nat) : Option Thread := match step s with | .next t => some (t.thread c 0) | _ => none

/-- An instruction placed for the next step is the one that the step runs: an `add`, and a `gust`, which traps with cause GUST
as no profile is set up. -/
theorem test_placed_runs : (slotAfterStep (State.reset.withFetchWord 32 0x04A63800) 0).map (·.bank.pc) = some 0x1004 ∧
    (slotAfterStep (State.reset.withFetchWord 32 0xE0A60601) 256).map (·.csr.causeCode) = some 0x12 := by decide +kernel

/-! Witnesses: for each statement a state and operands that meet its hypotheses. -/

/-- Every instruction of a list is admitted in a state. -/
abbrev admits (s : State) (l : List Instr) : Prop := ∀ i ∈ l, Admitted i s

/-- A ready thread of tile 0 in user mode, and one behind a prefix of KIND 00. -/
def plain : State := tester 0 false [(1, 5), (2, 7), (6, 0x100), (7, 0x10000000)]
def prefixed : State := plain.setTh { plain.th with pfx := some 0xFC000001 }

theorem witness_IntegerRegisterResults : admits plain
    [.add 0 1 2, .sub 3 1 2, .and 3 1 2, .or 3 1 2, .xor 3 1 2, .andn 3 1 2, .sll 3 1 2, .srl 3 1 2, .sra 3 1 2, .rol 3 1 2,
      .slt 3 1 2, .sltu 3 1 2, .min 3 1 2, .max 3 1 2, .minu 3 1 2, .maxu 3 1 2, .mul 3 1 2, .mulh 3 1 2, .mulhu 3 1 2,
      .bfx 3 1 2, .bfi 3 1 2] := by decide +kernel

theorem witness_DivisionResults : admits plain [.div 3 1 2, .rem 3 1 2, .divu 3 1 2, .remu 3 1 2, .div 3 1 0] := by decide +kernel

theorem witness_UnaryAndImmediateResults : admits plain
    [.addi 0 1 5, .andi 3 1 5, .ori 3 1 5, .xori 3 1 5, .slti 3 1 5, .sltiu 3 1 5, .clz 3 1, .ctz 3 1, .popc 3 1, .sextB 3 1,
      .sextH 3 1, .zextB 3 1, .zextH 3 1, .lui 3 5, .slli 3 1 31, .srli 3 1 31, .srai 3 1 31] ∧
    admits prefixed [.addi 3 1 5, .andi 3 1 5, .sltiu 3 1 5] := by decide +kernel

theorem witness_PairResults : admits plain [.addp 1 15 2, .subp 1 2 3, .movp 1 2, .addpi 1 2 5] ∧
    admits prefixed [.addpi 1 2 5] := by decide +kernel

theorem witness_BranchOutcomes : admits plain
    [.beq 1 1 4, .bne 1 2 4, .blt 1 2 4, .bge 1 2 4, .bltu 1 2 4, .bgeu 1 2 4, .bkany 0 4, .bkall 0 4, .bknone 0 4, .dbnz 1 4] ∧
    admits prefixed [.beq 1 2 4, .dbnz 0 4] := by decide +kernel

/-- A thread with only bit 31 of k2 set and all bits of k1 clear. -/
def masked : State := plain.setTh ((plain.th.setK 1 0).setK 2 0x80000000)

theorem witness_MaskBranchTests : admits masked [.bkany 2 4, .bkall 0 4, .bknone 1 4, .bkany 1 4, .bkall 2 4, .bknone 2 4] ∧
    (∃ i : Fin 32, (masked.k 2).getLsbD i = true) ∧ (∀ i : Fin 32, (masked.k 1).getLsbD i = false) ∧
    (∀ i : Fin 32, (masked.k 0).getLsbD i = true) ∧ (∃ i : Fin 32, (masked.k 2).getLsbD i = false) := by decide +kernel

theorem witness_JumpOutcomes : admits plain [.j 4, .jal 4, .jalr 0 1 4, .jalr 3 1 4, .jalrFar 0 1 4, .jalrFar 15 1 4] := by
  decide +kernel

theorem witness_MaskResults : admits plain [.kand 0 1 2, .kor 3 1 2, .kxor 3 1 2, .knot 3 1, .kmovK 3 1, .kgen 3 1, .kmovX 3 1,
    .kpopc 3 1, .kfirst 3 1] := by decide +kernel

/-- A load from the thread's own scratchpad reads what stands there, at its lowest address as well. -/
theorem witness_LoadResults : admits plain [.lb 3 3 0, .lbu 3 3 0, .lh 3 3 0, .lhu 3 3 0, .lw 3 3 0, .ld 3 3 0] ∧
    LoadReads plain 3 0 1 [0] plain ∧ LoadReads plain 3 0x7F80 2 [0, 0] plain ∧ LoadReads plain 3 0 4 [0, 0, 0, 0] plain ∧
    LoadReads plain 3 0 8 [0, 0, 0, 0, 0, 0, 0, 0] plain := by
  refine ⟨by decide +kernel, ⟨by decide +kernel, 0x1000000000000100, .mem (sramLoc 0 0x100), ?_⟩,
    ⟨by decide +kernel, 0x1000000000000000, .mem (sramLoc 0 0), ?_⟩,
    ⟨by decide +kernel, 0x1000000000000100, .mem (sramLoc 0 0x100), ?_⟩,
    ⟨by decide +kernel, 0x1000000000000100, .mem (sramLoc 0 0x100), ?_⟩⟩ <;>
  exact ⟨by decide +kernel, by decide +kernel, by decide +kernel, rfl⟩

/-- What a store of a kind leaves, where it is taken. -/
def stored (size v : Nat) : State :=
  match plain.writePlace plain.issuer (.mem (sramLoc 0 0x100)) ((List.range size).zip (leBytes size v)) with
  | .ok t => t
  | _ => plain

theorem witness_StoreResults : admits plain [.sb 1 3 0, .sh 1 3 0, .sw 1 3 0, .sd 1 3 0] ∧
    StoreTakes plain 3 0 1 (plain.x 1).toNat (.mem (sramLoc 0 0x100)) (stored 1 5) ∧
    StoreTakes plain 3 0 8 (plain.p 1).toNat (.mem (sramLoc 0 0x100)) (stored 8 (plain.p 1).toNat) := by
  refine ⟨by decide +kernel, ⟨by decide +kernel, 0x1000000000000100, ?_⟩, ⟨by decide +kernel, 0x1000000000000100, ?_⟩⟩ <;>
  exact ⟨by decide +kernel, by decide +kernel, by decide +kernel, rfl⟩

/-- A thread whose p4 names a word of a page that the tile has translated, with one store waiting in its store buffer. -/
def paged : State :=
  let s := tester 0 false [(8, 0x2000), (1, 5), (2, 7), (12, 0x2010)]
  s.modCore 0 fun k => { k with tlb := [{ root := 0, asid := 0, level := 0, page := 2, leaf := 0x206F }] }
def buffered : State := paged.setTh { paged.th with sbuf := [[(dramLoc 0x2000, 5)]] }

theorem witness_StorePlaces : paged.translate paged.issuer.core paged.issuer.asid 0 0x2000 .store = .hit (dramLoc 0x2000) ∧
    (∃ t, paged.writePlace paged.issuer (.virt 0 0x2000) [(0, 5)] = .ok t) ∧
    (∃ t, plain.writePlace plain.issuer (.mem (sramLoc 0 0)) [(0, 5)] = .ok t) ∧
    ∃ rest, (buffered.thread 0 0).sbuf = [(dramLoc 0x2000, 5)] :: rest :=
  ⟨by decide +kernel, ⟨_, rfl⟩, ⟨_, rfl⟩, ⟨[], rfl⟩⟩

/-- A thread whose p3 names an address that no access of two bytes or more is aligned at. -/
def skewed : State := tester 0 false [(6, 0x101), (7, 0x10000000)]

theorem witness_MisalignedAccessTraps :
    admits skewed [.lh 1 3 0, .lhu 1 3 0, .lw 1 3 0, .ld 1 3 0, .sh 1 3 0, .sw 1 3 0, .sd 1 3 0] ∧ skewed.basePath 3 = 0x10 ∧
    (∀ n ∈ [2, 4, 8], skewed.mAddr 3 0 n = some 0x1000000000000101 ∧ skewed.ownClass skewed.issuer 0x101 (0x101 + n) = 0) ∧
    (∀ n ∈ [2, 4, 8], skewed.l1Busy skewed.cur 0x101 (0x101 + n) = false) ∧ skewed.act.queueOf = none := by decide +kernel

/-- What an atomic on the paged word leaves before its effect. -/
def touched : State := paged.touchTlb 0 0 0 0x2000 .atomic

theorem witness_AtomicResults : admits paged
    [.amoaddW 1 4 2 2 0 0, .amoaddD 1 4 2 2 0 0, .amoswapW 1 4 2 2 1 1, .amoswapD 1 4 2 2 0 0, .amoandW 1 4 2 2 0 0,
      .amoandD 1 4 2 2 0 0, .amoorW 1 4 2 2 0 0, .amoorD 1 4 2 2 0 0, .amoxorW 1 4 2 2 0 0, .amoxorD 1 4 2 2 0 0,
      .amominW 1 4 2 2 0 0, .amominD 1 4 2 2 0 0, .amomaxW 1 4 2 2 0 0, .amomaxD 1 4 2 2 0 0, .amominuW 1 4 2 2 0 0,
      .amominuD 1 4 2 2 0 0, .amomaxuW 1 4 2 2 0 0, .amomaxuD 1 4 2 2 0 0] ∧
    AtomicReads paged (paged.p 4) 4 2 false (dramLoc 0x2000) touched ∧ AtomicReads paged (paged.p 4) 8 2 true (dramLoc 0x2000) touched ∧
    portRefuses (paged.p 4) = false := by
  refine ⟨by decide +kernel, ⟨by decide +kernel, touched, ⟨by decide +kernel, by decide +kernel, .inr ⟨0, 0x2000, ?_⟩⟩, rfl⟩,
    ⟨by decide +kernel, touched, ⟨by decide +kernel, by decide +kernel, .inr ⟨0, 0x2000, ?_⟩⟩, rfl⟩, by decide +kernel⟩ <;>
  exact ⟨by decide +kernel, by decide +kernel, rfl⟩

theorem witness_FloatAddAndSwapResults : admits paged [.amofadd 1 4 2 2 0 0, .casW 1 4 2 2 0 0, .casD 1 4 2 2 0 0] := by
  decide +kernel

/-- The same thread with a reservation on the word, and with none. -/
def reserved : State := { paged with resvs := [(0, ⟨0, resvGranule 0 (dramLoc 0x2000) 4, 4, 0⟩)] }

theorem witness_ReservationPairs : admits paged [.lrW 1 4 2 0 0, .lrD 1 4 2 0 0, .scW 1 4 2 2 0 0, .scD 1 4 2 2 0 0] ∧
    admits reserved [.scW 1 4 2 2 0 0] ∧ (reserved.holdsResv 0 (dramLoc 0x2000) 4).isSome = true ∧
    paged.holdsResv 0 (dramLoc 0x2000) 4 = none ∧ reserved.holdsResv 0 (dramLoc 0x2000) 8 = none := by decide +kernel

/-- Threads that have waited in `wrs`: without a reservation, with one whose limit has come, and still within it. -/
def lost : State := paged.setTh { paged.th with timer := some 0 }
def expired : State :=
  { reserved.setTh { paged.th with timer := some 9 } with clock := { reserved.clock with now := 9 } }

theorem witness_OrderingAndWaiting : admits paged [.fence 2 1 2, .fencei, .wrs 1 2, .pf 4 0 0, .yield] ∧
    paged.drained = true ∧ admits buffered [.fence 2 3 2, .fence 1 1 2] ∧ buffered.drained = false ∧
    (1#2).getLsbD 1 = false ∧ FMap.find paged.resvs (slotKey 0 0) = none ∧ paged.th.timer = none ∧
    admits lost [.wrs 1 2] ∧ lost.th.timer = some 0 ∧
    admits expired [.wrs 1 2] ∧ (FMap.find expired.resvs (slotKey 0 0)).isSome = true ∧ expired.th.timer = some 9 ∧
    9 ≤ expired.clock.now := by decide +kernel

/-- A thread that names an empty cell, one that names a full cell, and one that a value has woken. -/
def fullCell : State := { paged with mem := memWrite [] (dramLoc 0x2008) [1] }
def woken : State := paged.setTh { paged.th with wake := some 7 }

theorem witness_FutureOperations :
    admits paged [.fput 1 4 6, .fget 1 4, .freset 1 4] ∧ admits fullCell [.fput 1 4 6, .fget 1 4, .freset 1 4] ∧
    admits woken [.fget 1 4] ∧ paged.th.wake = none ∧ (∀ s ∈ [paged, fullCell], s.safeRule false true 0 = 0) ∧
    (∀ s ∈ [paged, fullCell, woken], CellAt s (s.p 4) (dramLoc 0x2000)
      ((s.touchTlb s.cur s.act.asid 0 0x2000 .atomic).loseOthers s.issuer (dramLoc 0x2000) (dramLoc 0x2000 + 16))) ∧
    (fullCell.readNat (dramLoc 0x2008) 1 % 2 = 1 ∧ paged.readNat (dramLoc 0x2008) 1 % 2 = 0) := by
  refine ⟨by decide +kernel, by decide +kernel, by decide +kernel, by decide +kernel, by decide +kernel, ?_, by decide +kernel⟩
  intro s hs
  simp only [List.mem_cons, List.mem_nil_iff, or_false] at hs
  rcases hs with rfl | rfl | rfl <;>
  exact ⟨by decide +kernel, by decide +kernel, by decide +kernel, ⟨.virt 0 0x2000, by decide +kernel⟩, by decide +kernel,
    by decide +kernel, rfl⟩

/-- A vector instruction is admitted and its operands are ready. -/
abbrev vreads (s : State) (l : List (Instr × List Nat × List Nat)) : Prop :=
  ∀ e ∈ l, Admitted e.1 s ∧ s.vecCheck e.2.1 e.2.2 = .go

theorem witness_LanesOfAResult : (31 : Nat) < 32 / 1 ∧ (15 : Nat) < 32 / 2 ∧ (7 : Nat) < 32 / 4 := by decide

theorem witness_VectorIntegerResults : vreads plain [
    (.vadd 3 1 2 0 2 1, [1, 2], [3]), (.vsub 3 1 2 0 0 0, [1, 2], [3]), (.vmul 3 1 2 0 6 0, [1, 2], [3]),
    (.vmin 3 1 2 1 1 1, [1, 2], [3]), (.vmax 3 1 2 0 1 0, [1, 2], [3]), (.vand 3 1 2 0 2, [1, 2], [3]),
    (.vor 3 1 2 0 2, [1, 2], [3]), (.vxor 3 1 2 0 2, [1, 2], [3]), (.vandn 3 1 2 0 2, [1, 2], [3]),
    (.vsll 3 1 2 0 0, [1, 2], [3]), (.vsrl 3 1 2 0 1, [1, 2], [3]), (.vsra 3 1 2 0 2, [1, 2], [3]), (.vabs 3 1 0 0, [1], [3]),
    (.vneg 3 1 0 0, [1], [3]), (.vpopc 3 1 0 0, [1], [3]), (.vclamp 3 1 2 0 2 1, [1, 2, 3], [3]),
    (.vdot 3 1 2 0 0 0, [1, 2, 3], [3])] := by decide +kernel

theorem witness_VectorFloatResults : vreads plain [
    (.vaddF 3 1 2 0 3, [1, 2], [3]), (.vsubF 3 1 2 0 4, [1, 2], [3]), (.vmulF 3 1 2 0 5, [1, 2], [3]),
    (.vminF 3 1 2 0 3, [1, 2], [3]), (.vmaxF 3 1 2 0 3, [1, 2], [3]), (.vabsF 3 1 0 3, [1], [3]), (.vnegF 3 1 0 3, [1], [3]),
    (.vfma 3 1 2 0 3, [1, 2, 3], [3]), (.vfms 3 1 2 0 3, [1, 2, 3], [3]), (.vclampF 3 1 2 0 3, [1, 2, 3], [3]),
    (.vdotF 3 1 2 0 4, [1, 2, 3], [3]), (.vexp2 3 1 0 3, [1], [3]), (.vlog2 3 1 0 3, [1], [3]), (.vrcp 3 1 0 3, [1], [3]),
    (.vrsqrt 3 1 0 3, [1], [3])] := by decide +kernel

theorem witness_VectorComparisons : vreads plain [
    (.vcmpEq 0 1 2 0 2 1, [1, 2], []), (.vcmpNe 1 1 2 0 3 0, [1, 2], []), (.vcmpLt 1 1 2 0 2 0, [1, 2], []),
    (.vcmpLe 1 1 2 1 2 0, [1, 2], []), (.vcmpGt 1 1 2 0 2 0, [1, 2], []), (.vcmpGe 7 1 2 0 2 0, [1, 2], [])] := by decide +kernel

/-- A thread whose x2 names the last lane of 32 bits, and one whose x2 names the lane behind it. -/
def lastLane : State := tester 0 false [(2, 7)]
def pastLane : State := tester 0 false [(2, 8)]

theorem witness_VectorMoves : vreads lastLane [
    (.vsel 3 1 2 0 2, [1, 2], [3]), (.vperm 3 1 2 0 2, [1, 2], [3]), (.vslide 3 1 2 0 2, [1], [3]), (.vbcast 3 1 0 2, [], [3]),
    (.vmov 3 1 0 2, [1], [3]), (.vmvx 3 1 2 2, [1], []), (.vins 3 1 2 2, [3], [3])] ∧
    vreads pastLane [(.vmvx 3 1 2 2, [1], []), (.vins 3 1 2 2, [3], [3])] ∧
    (lastLane.x 2).toNat < 32 / (elemOf 2 0).bytes ∧ 32 / (elemOf 2 0).bytes ≤ (pastLane.x 2).toNat := by decide +kernel

theorem witness_VectorConversion : vreads plain [
    (.vcvt 3 1 9 0 4, [1], [3]), (.vcvt 3 1 4 0 9, [1], [3]), (.vcvt 3 1 0 1 3, [1], [3])] := by decide +kernel

theorem witness_VectorReductions : vreads plain [
    (.vredsum 3 1 0 4 0, [1], [3]), (.vredmax 3 1 0 2 1, [1], [3]), (.vredmin 3 1 0 0 0, [1], [3]), (.vargmax 3 1 0 3 0, [1], []),
    (.vscan 3 1 0 2, [1], [3]), (.vtopk 2 4 5 0 3 0, [4, 5, 2, 3], [2, 3])] := by decide +kernel

/-- A thread whose p3 names its scratchpad and whose k1 selects no lane. -/
def noLanes : State := plain.setTh ((plain.th.setX 6 0x100).setK 1 0)

theorem witness_VectorMemoryResults :
    vreads noLanes [(.vld 2 3 1 0, [], [2]), (.vst 2 3 1 0, [2], []), (.vldg 2 3 4 1 2, [4], [2]), (.vsts 2 3 4 1 2, [2, 4], []),
      (.vld 2 3 0 0, [], [2]), (.vst 2 3 0 0, [2], []), (.vldg 2 3 4 0 2, [4], [2]), (.vsts 2 3 4 0 2, [2, 4], [])] ∧
    activeOffs (noLanes.k 1) (pathLane (noLanes.basePath 3)) = [] ∧ noLanes.opt = 0 ∧
    VectorLeads noLanes 3 (noLanes.k 0) 0 .load (loadBlocks 0x10) 0x1000000000000100 (.mem (sramLoc 0 0x100)) ∧
    VectorLeads noLanes 3 (noLanes.k 0) 0 .store (storeBlocks 0x10) 0x1000000000000100 (.mem (sramLoc 0 0x100)) ∧
    (∃ l t, noLanes.readPlace noLanes.issuer 0x1000000000000100 (.mem (sramLoc 0 0x100)) (activeOffs (noLanes.k 0) 1) =
      .bytes l t) ∧
    (∃ l, noLanes.checkLanes (noLanes.p 3) 4 (fun _ => 0) .load (List.range 8) = .ok l ∧ noLanes.laneWalk .load l = none) ∧
    (∃ l, noLanes.checkLanes (noLanes.p 3) 4 (fun _ => 0) .store (List.range 8) = .ok l ∧ noLanes.laneWalk .store l = none) :=
  ⟨by decide +kernel, by decide +kernel, by decide +kernel, by unfold VectorLeads; decide +kernel,
    by unfold VectorLeads; decide +kernel, ⟨_, _, rfl⟩, ⟨_, rfl, by decide +kernel⟩, ⟨_, rfl, by decide +kernel⟩⟩

/-! Counters, barriers, messages, bindings and exits. -/

/-- A thread of tile 0 with x registers, and one whose activation is member 0 of a gang of two on tiles 0 and 1. -/
def withX (l : List (Nat × Word)) : State := tester 0 false l
def twoMembers : Gang :=
  { no := 1, n := 2, st := .live, members := [(0, { tile := 0, home := 0, slot := 0 }), (1, { tile := 1, home := 1, slot := 0 })] }
def ganged (l : List (Nat × Word)) : State :=
  ({ withX l with gangs := [twoMembers] } : State).modTh fun t => { t with act := some { gang := some (1, 0) } }

theorem witness_CounterOperations :
    admits (withX [(1, 63), (2, 0)]) [.cwait 3 1 2, .cset 1 2, .crd 3 1, .cadd 1 2] ∧ (withX [(1, 63)]).hasCounter 63 = true ∧
    (0 : Int) ≤ ((withX [(1, 63)]).counter 63 - (withX [(1, 63), (2, 0)]).x 2).toInt ∧
    ((withX [(1, 63)]).counter 63 - (withX [(1, 63), (2, 1)]).x 2).toInt < 0 ∧
    admits (ganged [(1, 0x30105)]) [.cadd 1 2] ∧
    (ganged [(1, 0x30105)]).caddTarget (encode (.cadd 1 2)) 0x30105 = .inl 1 ∧
    admits (tester 0 true [(1, 0x2FF05)]) [.cadd 1 2] ∧
    (tester 0 true [(1, 0x2FF05)]).caddTarget (encode (.cadd 1 2)) 0x2FF05 = .inl 255 := by decide +kernel

theorem witness_BarriersAndDependences :
    admits (withX [(1, 0x303), (2, 0)]) [.barv 3 1 0, .barv 3 1 1, .barv 3 1 2, .barw 1 2 0, .barw 1 2 1, .barw 1 2 2] ∧
    (withX []).myGang = none ∧ admits (ganged [(1, 15)]) [.barv 3 1 1, .barv 3 1 2, .barw 1 2 1, .trig, .waitdep 3] ∧
    (ganged [(1, 15)]).drain.myGang = some (twoMembers, 0) ∧ (ganged []).act.gang = some (1, 0) ∧
    (ganged []).allTriggered twoMembers = true ∧ (ganged []).allTriggered { twoMembers with prods := [2] } = true ∧
    (BitVec.ofNat 32 ((withX [(2, 0)]).barPhase 0 0) - ((withX [(2, 0)]).x 2 + 1)).toInt < 0 ∧
    0 ≤ (BitVec.ofNat 32 ((withX [(2, 0)]).barPhase 0 0) - ((withX [(2, 0xFFFFFFFF)]).x 2 + 1)).toInt ∧
    admits (withX []) [.trig, .waitdep 3] ∧ (withX []).act.gang = none := by decide +kernel

/-- A gang that waits for a producer which runs on and has not triggered. -/
def depending : State :=
  { ganged [] with gangs := [{ twoMembers with prods := [2] }, { twoMembers with no := 2 }] }

theorem witness_BarriersAndDependences_waiting : admits depending [.waitdep 3] ∧
    depending.allTriggered { twoMembers with prods := [2] } = false ∧
    depending.myGang = some ({ twoMembers with prods := [2] }, 0) := by decide +kernel

/-- A thread with a message to core 64's neighbour in its gang in x1 and x2, with a row in its build registers; and the
same with no credit left. -/
def sender : State :=
  (ganged [(1, 1), (2, 0x10000)]).modTh fun t => (t.setM 1 0x00010000).setM 2 0x10
def spent : State := sender.modCx 0 fun x => { x with creditsUsed := [(0, 1000), (2, 1000)] }

theorem witness_MessageSends :
    admits sender [.mw 7 1, .send 3 1 2, .sendw 3 1 2, .qpost 3] ∧ admits spent [.send 3 1 2, .sendw 3 1 2, .qpost 3] ∧
    sender.sendRefuses (sender.x 1) (sender.x 2) sender.th.build = 0 ∧ spent.sendRefuses (spent.x 1) (spent.x 2) spent.th.build = 0 ∧
    rowBad sender.th.build = false ∧
    sender.sendRefuses 0x40000000 (BitVec.ofNat 32 (rowClass sender.th.build * 2 ^ 16)) sender.th.build = 0 ∧
    (sender.core 0).creditFree sender.isGust 0 = true ∧ (sender.core 0).creditFree sender.isGust 2 = true ∧
    (spent.core 0).creditFree spent.isGust 0 = false ∧ (spent.core 0).creditFree spent.isGust 2 = false := by decide +kernel

/-- A supervisor with a valid entry for tag 3 in p1 and p2 and the entry it stands for; and the same with the entry bound,
idle and busy, and with an entry whose keep region lies beyond the scratchpad. -/
def entry3 : BitVec 128 := 0x80000003000000000000000000001000
def binder : State := tester 0 true [(2, 0x1000), (3, 0), (4, 0), (5, 0x80000003), (6, 3)]
def bound3 : State := binder.modCx 0 fun x => { x with binds := [(0, entry3)] }
def keeper : State := tester 0 true [(2, 0x1000), (3, 0), (4, 0x0001FFFF), (5, 0x80000003)]

/-- A supervisor whose entry's keep region 0x10000 to 0x10040 lies in the spill ring, or in another entry's keep region. -/
def keeping : State := tester 0 true [(2, 0x1000), (3, 0), (4, 0x00010400), (5, 0x80000003)]
def ringed : State := keeping.modCore 0 fun k => { k with spbase := 0x10000, spsize := 0x1000 }
def shared : State := keeping.modCx 0 fun x => { x with binds := [(1, 0x80000004000203FF0000000000001000)] }
def keepsOver (s : State) : Bool :=
  let w := s.p 2 ++ s.p 1
  let k := s.core 0
  let lo := 64 * bindKeepOff w
  let hi := lo + 64 * bindKeepSize w
  (s.refuses (.bind 7 1 2)).isNone && (k.cx.bindIndex (bindTag w) == some 0) && bindKeepSize w != 0 &&
    decide ((k.spbase.toNat < hi ∧ lo < k.spbase.toNat + k.spsize.toNat) ∨ ∃ f ∈ k.cx.binds, f.1 ≠ 0 ∧ bindValid f.2 = true ∧
      bindKeepSize f.2 ≠ 0 ∧ bindKeepOff f.2 ≠ bindKeepOff w ∧ 64 * bindKeepOff f.2 < hi ∧
        lo < 64 * bindKeepOff f.2 + 64 * bindKeepSize f.2)

theorem witness_BindingTableOperations :
    admits binder [.bind 7 1 2, .unbind 7 6, .bind 7 2 1] ∧ binder.p 2 ++ binder.p 1 = entry3 ∧
    (binder.core 0).cx.bindIndex (bindTag entry3) = some 0 ∧ entryRefuses (coreType 0) entry3 = false ∧
    bindKeepSize entry3 = 0 ∧ entryRefuses (coreType 0) (binder.p 1 ++ binder.p 2) = true ∧
    admits keeper [.bind 7 1 2] ∧ keeper.scratchEnd 0 < 64 * bindKeepOff (keeper.p 2 ++ keeper.p 1) +
      64 * bindKeepSize (keeper.p 2 ++ keeper.p 1) ∧ bindKeepSize (keeper.p 2 ++ keeper.p 1) ≠ 0 ∧
    (keeper.core 0).cx.bindIndex (bindTag (keeper.p 2 ++ keeper.p 1)) = some 0 ∧ keepsOver ringed = true ∧ keepsOver shared = true ∧
    admits bound3 [.unbind 7 6] ∧ (bound3.core 0).cx.bound 3 = some (0, entry3) ∧ (binder.core 0).cx.bound 3 = none := by
  decide +kernel

/-- A thread with one successor of core 1 of its gang at 0x100 of its scratchpad, and the same behind sixteen others. -/
def succeeded : State :=
  match (ganged [(6, 0x100), (8, 1)]).writePlace (ganged []).issuer (.mem (sramLoc 0 0x100))
      ((List.range 64).zip ([1, 0, 0, 0, 0, 0, 1, 0] ++ List.replicate 56 0)) with
  | .ok t => t
  | _ => ganged []
def crowded : State := succeeded.modCore 0 fun k => { k with succQ := List.replicate 16 (.gang [] 0) }

theorem witness_ExitOutcomes :
    admits (withX []) [.exit 1 2] ∧ ((withX []).x 2).toNat = 0 ∧ admits succeeded [.exit 6 8] ∧ admits crowded [.exit 6 8] ∧
    (succeeded.x 8).toNat = 1 ∧ (succeeded.x 6).toNat = 0x100 ∧ succeeded.ownAllowed succeeded.issuer 0x100 64 = true ∧
    succeeded.badSuccessor (sramLoc 0 0x100) [succeeded.read (sramLoc 0 0x100) 64] = none ∧
    crowded.badSuccessor (sramLoc 0 0x100) [crowded.read (sramLoc 0 0x100) 64] = none ∧
    crowded.ownAllowed crowded.issuer 0x100 64 = true ∧
    16 < (crowded.core crowded.cur).succQ.length + 1 ∧ (succeeded.core succeeded.cur).succQ.length + 1 ≤ 16 := by decide +kernel

/-! The matrix engine, the movers, streams and channels. -/

/-- A thread of tile 0 with x1 and x2, descriptors for a product of a length and formats, and a full latch buffer. -/
def matrixReady (rs rt : Word) (k count : Nat) (formats : Dword) : State :=
  let s := (withX [(1, rs), (2, rt)]).modTh fun t =>
    ((((t.setE 0 (BitVec.ofNat 64 k)).setE 1 formats).setE 3 0x2000).setE 7 0x2000000).setE 8 1
  s.modCx 0 fun x => { x with mx := { x.mx with lat := 0x100010000, buf0 := { st := .full, count := count } } }

/-- A BF16 product of length 1, an FP8 vector product of length 32, and products that each check of R164 stops. -/
def oneProduct : State := matrixReady 0x1000 0 1 128 0x25
def vectorProduct : State := matrixReady 0x1000 0 32 32 0x02

theorem witness_MatrixCommands :
    admits oneProduct [.mma 1 2, .mst 1 2, .mzero 2] ∧ oneProduct.unitFree = true ∧
    (oneProduct.core 0).cx.mx.headFull = some 0 ∧
    oneProduct.mmaRefuses (oneProduct.matrixCmd .mma 0x1000 0 oneProduct.semiring) 0 128 = 0 ∧
    oneProduct.aBadRow (oneProduct.matrixCmd .mma 0x1000 0 oneProduct.semiring) (mxRows 0) = none ∧
    admits vectorProduct [.mmv 1 2] ∧ vectorProduct.unitFree = true ∧ (vectorProduct.core 0).cx.mx.headFull = some 0 ∧
    vectorProduct.mmvRefuses (vectorProduct.matrixCmd .mmv 0x1000 0 0) 0 32 = 0 ∧
    vectorProduct.aBadRow (vectorProduct.matrixCmd .mmv 0x1000 0 0) 1 = none ∧
    (oneProduct.matrixCmd .mst 0x1000 0 0).ofmt ≤ 6 ∧ oneProduct.mstBad (oneProduct.matrixCmd .mst 0x1000 0 0) = none ∧
    admits (withX [(1, 255), (2, 15)]) [.mrd 24 1 2] ∧ (withX []).fillingReg 24 = false ∧ (withX []).boundOf 24 = none ∧
    bits 255 0 5 < mxRows 0 ∧ bits 255 5 3 < mxCols 0 / 8 ∧ bits 0x7F 5 3 < mxCols 0 / 16 ∧ (withX []).unitFree = true ∧
    admits (withX [(2, 3)]) [.mzero 2] := by decide +kernel

theorem witness_MatrixCommands_refused :
    (∀ e ∈ [(1, 128, 0x06), (0, 128, 0x25), (4097, 128, 0x25), (4096, 0, 0x46), (1, 127, 0x25)],
      Admitted (.mma 1 2) (matrixReady 0x1000 0 e.1 e.2.1 e.2.2)) ∧
    (let m := (matrixReady 0x1000 0 1 128 0x06).matrixCmd .mma 0x1000 0 0;
      mmaPairing m.sr m.af m.bf = none) ∧
    (let m := (matrixReady 0x1000 0 4096 0 0x46).matrixCmd .mma 0x1000 0 0;
      mmaPairing m.sr m.af m.bf = some ⟨1, 2, 6⟩ ∧ m.shapeBad = false ∧ (withX []).lengthMax < 1 * ceilDiv m.k 2 * 6) ∧
    (let m := (matrixReady 0x1000 0 1 127 0x25).matrixCmd .mma 0x1000 0 0;
      mmaPairing m.sr m.af m.bf = some ⟨1, 2, 1⟩ ∧ m.shapeBad = false ∧ 127 ≠ m.k * rowBytes 0 m.bf) := by decide +kernel

/-- A thread of a gang with a 4 KiB pair of latch buffers, and the same with both in use. -/
def latched (l : List (Nat × Word)) : State :=
  (ganged l).modCx 0 fun x => { x with mx := { x.mx with lat := 0x100010000 }, bounds := [{ slot := 0, reg := 24, kind := .readStream 0 }] }
def latchless (l : List (Nat × Word)) : State :=
  (latched l).modCx 0 fun x => { x with mx := { x.mx with buf0 := { st := .full }, buf1 := { st := .filling } } }

theorem witness_LatchFillsAndRing :
    admits (latched [(1, 0x1000), (2, 4096)]) [.mldb 1 2, .mldbS 24 2] ∧
    admits (latchless [(1, 0x1000), (2, 4096)]) [.mldb 1 2, .mldbS 24 2] ∧ (latched []).latchOk 0 = true ∧
    ((latched []).core 0).cx.mx.bufSize = 4096 ∧ (latched []).rawOk 0x1000 4096 = true ∧
    ((latched []).core 0).cx.mx.emptyBuf = some 0 ∧ ((latchless []).core 0).cx.mx.emptyBuf = none ∧
    ((latchless []).latchOk 0 = true ∧ ((latched []).core 0).l1pending = none) ∧ ((latched []).boundOf 24).map (·.isSource) = some true ∧ (latched []).fillingReg 24 = false ∧
    admits (latched [(1, 0), (2, 2)]) [.mring 3 1 2] ∧ (latched []).myGang = some (twoMembers, 0) := by decide +kernel

/-- A thread whose channel descriptor copies 64 bytes of its scratchpad, or adds eight FP32 numbers, and the same with both
places of the channel taken. -/
def copying (l : List (Nat × Word)) (cfg : Dword) : State :=
  (withX l).modTh fun t => (((t.setE 16 0x1000000000000100).setE 17 0x1000000000000200).setE 18 0x0001000100010001).setE 23 cfg
def occupied (s : State) (c : Nat) : State :=
  s.modCx 0 fun x => x.setMover c { x.mover c with st := .running, run := some (s.moverCmd c false), queued := some (s.moverCmd c true) }

theorem witness_MoverCommands :
    admits (copying [] 0x2000000000) [.mvgo 3 0, .mvred 3 0, .mvst 3 0, .mvkill 0] ∧
    admits (occupied (copying [] 0x2000000000) 0) [.mvgo 3 0, .mvred 3 0] ∧
    (∀ red ∈ [false, true], let s := copying [] 0x2000000000
      let c := s.moverCmd 0 red
      s.basePathClass (c.e 0) .load = 0 ∧ s.basePathClass (c.e 1) .store = 0 ∧ s.noCounter c = false ∧ c.refuses = 0) ∧
    (((copying [] 0).core 0).cx.mover 0).run.isSome = false ∧ (((copying [] 0).core 0).cx.isStream 0) = false ∧
    admits (withX [(1, 3)]) [.mvst 3 1, .mvkill 1] := by decide +kernel

/-- A thread with a read stream, a write stream with and without bytes in it, and channel ends bound to a register. -/
def boundTo (l : List (Nat × Word)) (b : Bound) : State :=
  (ganged l).modCx 0 fun x => { x with bounds := [{ b with slot := 0, reg := 24, gang := some (1, 0) }] }

def toStream (dir : Word) (src dst : Dword) : State :=
  (withX [(2, dir)]).modTh fun t => (((t.setE 16 src).setE 17 dst).setE 18 0x0001000100010001).setE 23 0x2000000000

theorem witness_StreamBindings :
    (∀ s ∈ [toStream 0 0x1000000000000100 0, toStream 1 0 0x1000000000000100], Admitted (.sbind 24 0 2) s ∧
      s.fillingReg 24 = false ∧ s.boundOf 24 = none ∧ ((s.core 0).cx.mover 0).st = .idle ∧ (s.core 0).cx.streamOf 0 = none ∧
      s.noCounter (s.moverCmd 0 false) = false ∧ (s.moverCmd 0 false).bad = 0 ∧ (s.moverCmd 0 false).shape = 0) ∧
    (let s := toStream 0 0x1000000000000100 0;
      (s.x 2).toNat = 0 ∧ (s.moverCmd 0 false).e 1 = 0 ∧ s.basePathClass ((s.moverCmd 0 false).e 0) .load = 0) ∧
    (let s := toStream 1 0 0x1000000000000100;
      (s.x 2).toNat = 1 ∧ (s.moverCmd 0 false).e 0 = 0 ∧ s.basePathClass ((s.moverCmd 0 false).e 1) .store = 0) ∧
    (∀ b ∈ ([{ slot := 0, reg := 24, kind := .readStream 0 }, { slot := 0, reg := 24, kind := .writeStream 0 },
        { slot := 0, reg := 24, kind := .writeStream 0, part := [1] }, { slot := 0, reg := 24, kind := .chanOut (.member 1) 0 }] :
          List Bound), Admitted (.sunbind 24) (boundTo [] b) ∧ ((boundTo [] b).boundOf 24).map (·.kind) = some b.kind ∧
        (boundTo [] b).fillingReg 24 = false ∧ (((boundTo [] b).core 0).cx.mover 0).st ≠ .stopped) := by decide +kernel

/-- The ends of a channel to the gang's other member. -/
def inEnd : Bound := { slot := 0, reg := 24, kind := .chanIn (.member 1) 0 4, readBufs := 1, linked := true, fifo := [none] }
def outEnd (n : Nat) : Bound := { slot := 0, reg := 24, kind := .chanOut (.member 1) 0, credits := n, linked := true }

theorem witness_ChannelOperations :
    admits (ganged [(1, 1), (2, 0x41)]) [.cbind 24 1 0] ∧ (ganged []).peerOf 1 = some (.member 1) ∧
    cbindReserved 1 1 = false ∧ cbindReserved 1 0x40 = false ∧ admits (ganged [(1, 1), (2, 1)]) [.cbind 24 1 2] ∧
    admits (ganged [(1, 1), (2, 0x40)]) [.cbind 24 1 2] ∧ bits 0x40 4 3 = 4 ∧
    (ganged []).fillingReg 24 = false ∧ (ganged []).boundOf 24 = none ∧
    admits (boundTo [] inEnd) [.cret 24, .bceos 24 4] ∧ ((boundTo [] inEnd).boundOf 24).map (·.readBufs) = some 1 ∧
    (((boundTo [] inEnd).boundOf 24).bind (boundTo [] inEnd).creditTo).isSome = true ∧
    admits (boundTo [] { inEnd with linked := false }) [.cret 24] ∧ admits (boundTo [] { inEnd with fifo := [] }) [.bceos 24 4] ∧
    admits (boundTo [] (outEnd 1)) [.ceos 24] ∧ admits (boundTo [] (outEnd 0)) [.ceos 24] ∧
    ((boundTo [] (outEnd 1)).boundOf 24).map (fun b => (b.linked, b.credits)) = some (true, 1) ∧
    ((boundTo [] (outEnd 0)).boundOf 24).map (fun b => (b.linked, b.credits)) = some (true, 0) := by decide +kernel

/-! Mailbox, Gust, time, lines, queues, launches and system instructions. -/

/-- A task of reflex tile 0 that writes mailbox slot 0, whose versions have 64 bytes; and the same with a buffer open, and with
four copies under way. -/
def mbWriter (l : List (Nat × Word)) (k : MbSlot) : State :=
  ({ tester 256 false l with mbs := [(0, { k with reg := 0x80008000000000800000000000000000 })] } : State).modTh fun t =>
    { t with act := some {} }
def mbOpened : MbSlot := { b0 := { st := .latest, ver := 3 }, b1 := { st := .opened }, ver := 3 }
def mbCopying : State :=
  { mbWriter [] {} with snaps := List.replicate 4 ⟨0, 0, false, false, 0, 256, 0, 0, false, 256, 0, 0, none⟩ }

theorem witness_MailboxOperations :
    admits (mbWriter [(2, 0x520), (6, 8)] {}) [.mbopen 3 0, .mbld 24 0 6, .mbver 3 0, .mbsnap 3 0 0] ∧
    ((mbWriter [] {}).mbSlot 0).valid = true ∧ (mbWriter [] {}).mbDenied ((mbWriter [] {}).mbSlot 0) = false ∧
    ((mbWriter [] {}).mbSlot 0).openBuf = none ∧ (mbWriter [] {}).anyBound 24 8 = false ∧
    (mbWriter [] {}).anyFilling 24 8 = false ∧
    admits (mbWriter [(2, 0x520)] mbOpened) [.mbopen 3 0, .mbpub 3 0 2] ∧
    ((mbWriter [] mbOpened).mbSlot 0).openBuf = some 1 ∧ (mbWriter [] mbOpened).mbDenied ((mbWriter [] mbOpened).mbSlot 0) = false ∧
    bits 0x520 0 20 + 32 ≤ 2048 ∧ 32 + 32 ≤ ((mbWriter [] mbOpened).mbSlot 0).size ∧
    admits (mbWriter [(2, 32)] mbOpened) [.mbpub 3 0 2] ∧
    (mbWriter [] {}).ownAllowed (mbWriter [] {}).issuer 0 64 = true ∧ (mbWriter [] {}).snaps.length = 0 ∧
    admits mbCopying [.mbsnap 3 0 0] ∧ (mbCopying.mbSlot 0).valid = true ∧
    (mbCopying.snaps.filter fun c => c.core == mbCopying.cur && c.gust == mbCopying.isGust).length = 4 := by decide +kernel

/-- A task of reflex tile 0 that holds Gust profile 15, free and seized. -/
def holder (held : Bool) (v : Word) : State :=
  ({ tester 256 false [(1, v)] with gusts := [(15, { reg := 0x80000000000000000000000000000000, held := held })] } : State).modTh
    fun t => { t with act := some {} }

theorem witness_GustOperations :
    (∀ h ∈ [true, false], admits (holder h 15) [.gust 3 1, .gustrel 1, .gustq 3 1] ∧ (holder h 15).gustRefuses 15 = 0 ∧
      ((holder h 15).gustAt 15).held = h) ∧
    admits (holder false 31) [.gustq 3 1, .gustrel 1] ∧ (holder false 31).gustRefuses 31 ≠ 0 := by decide +kernel

/-- A tile with eight timers armed, one with a timed stream, and a slice agent whose x2, x3 name a line of its slice. -/
def armed : State := (withX [(1, 63)]).modCx 0 fun x => { x with timers := List.replicate 8 ⟨5, 0, 0⟩ }
def windowed (v : Word) : State :=
  { withX [(1, v)] with streams := [(127, { reg := 0x80000000000000000000000000000000 }), (0, { reg := 0x80000000000000000000000000000000 })] }
def agentAt (l : List (Nat × Word)) : State := tester 288 true l

theorem witness_TimeStreamsAndLines :
    admits (withX [(1, 63)]) [.tnow 2, .tuntil 3 2 1] ∧ admits armed [.tuntil 3 2 1] ∧ armed.hasCounter 63 = true ∧
    (armed.core armed.cur).cx.timers.length = 8 ∧ ((withX []).core 0).cx.timers.length < 8 ∧
    admits (windowed 255) [.swget 3 2 1] ∧ admits (windowed 127) [.swget 3 2 1, .swadv 3 2 1] ∧
    ((windowed 0).streamAt 127).valid = true ∧ bits 255 0 7 = 127 ∧
    admits (agentAt [(7, 1)]) [.lpin 3 1, .lunpin 3 1, .lprobe 3 1, .ldrop 3 1 7] ∧ (agentAt []).lineRefuses 0 true true = 0 ∧
    (agentAt []).lineRefuses 0x10000000000 true true ≠ 0 ∧ admits (agentAt [(3, 0x100)]) [.lpin 3 1, .lprobe 3 1] := by decide +kernel

theorem witness_TimeStreamsAndLines_fill :
    admits (agentAt [(7, 0x80000080)]) [.lfill 3 1 7] ∧ admits (agentAt [(7, 0x40000080)]) [.lfill 3 1 7] ∧
    bits 0x80000080 17 13 = 0 ∧ bits 0x80000080 0 17 % 128 = 0 ∧ bit 0x80000080 31 = true ∧ bit 0x40000080 31 = false ∧
    (agentAt []).ownAllowed (agentAt []).issuer 128 128 = true ∧
    (agentAt []).poisoned (sramLoc 288 128) (sramLoc 288 128 + 128) = none := by decide +kernel

/-- A tile's claimer with an entry of class 1 in the sampling queue, and the owner of the generation block. -/
def claimer : State :=
  { withX [(1, 7), (2, 8)] with queue := [⟨0, 1, [1, 2]⟩], gen := { owner := some 0 } }

theorem witness_QueuesAndLaunches :
    admits claimer [.qclaim 3 1, .hacc 1 2] ∧ claimer.claimable claimer.cur claimer.slot claimer.act.asid 7 = some 0 ∧
    claimer.queue[0]? = some ⟨0, 1, [1, 2]⟩ ∧ claimer.boundOf 3 = none ∧ claimer.fillingReg 3 = false ∧
    claimer.gen.owner = some claimer.act.asid ∧ admits (withX [(1, 6)]) [.qclaim 3 1] ∧
    (withX []).claimable 0 0 (withX []).act.asid 6 = none := by decide +kernel

/-- A supervisor on the front end's core with a descriptor in its own SRAM, and with four launches staged. -/
def launcher (n : Nat) : State :=
  (tester 352 true [(2, 0), (3, 0x10000000)]).modTh fun t => { t with staged := List.replicate n [] }

theorem witness_QueuesAndLaunches_launch :
    ∀ n ∈ [0, 4], Admitted (.glaunch 5 1) (launcher n) ∧ (launcher n).safeRule true true 0x10 = 0 ∧
      (launcher n).windowAllows false ((launcher n).p 1) 0 60 = true ∧ ((launcher n).p 1) = 0x1000000000000000 ∧
      (match (launcher n).checkLanes ((launcher n).p 1) 4 (fun i => (i : Int)) .load (List.range 15) with
        | .ok l => (launcher n).laneWalk .load l == none && (match (launcher n).readLanes 4 l with
          | .bytes _ u => u.th.staged.length == n
          | _ => false)
        | _ => false) = true := by decide +kernel

/-- The front end with a live gang. -/
def aborter : State := { launcher 0 with gangs := [{ no := 1, name := 0, st := .live }] }

theorem witness_QueuesAndLaunches_abort : admits aborter [.gabort 5 0 0] ∧ (aborter.liveGang 0 0).isSome = true ∧
    aborter.sup = true ∧ admits (launcher 0) [.gabort 5 0 0] ∧ (launcher 0).liveGang 0 0 = none := by decide +kernel

theorem witness_ControlRegisterAccesses :
    admits (tester 0 true [(1, 3)]) [.csrr 3 0x61, .csrw 1 0x43, .csrs 1 3, .csrc 1 3, .csrs 1 0x40, .csrc 1 0x40, .erd 2 16, .ewr 2 47,
      .erd 2 0] ∧ (tester 0 true []).csrRefuses 0x43 = 0 ∧ (tester 0 true []).csrRefuses 3 = 0 ∧
    ((tester 0 true []).core 0).l1pending = none ∧ ((tester 0 true [(1, 3)]).csrWrite 0 0 0x43 3).2 = true ∧
    ((tester 0 true [(1, 3)]).csrWrite 0 0 3 3).2 = false ∧
    admits (tester 0 false []) [.csrr 3 0x40, .csrw 1 0x40, .csrs 1 0x40, .csrc 1 0x40] ∧
    (tester 0 false []).csrRefuses 0x40 ≠ 0 ∧ hasEngine (coreType 0) 47 = true ∧ hasEngine (coreType 0) 0 = true ∧
    (16 : Nat) ≤ 47 := by decide +kernel

/-- A slot that was released from the debugger's stop, one whose `ebreak` the debugger claims, and one with a live map. -/
def released : State := (withX []).modTh fun t => { t with ebkStop := true }
def claimed : State := (withX []).modCore 0 fun k => { k with dbg := { k.dbg with ebkclm := true } }
def mapped : State := (withX []).modTh fun t => { t with csr := { t.csr with lmcnt := 1 } }

theorem witness_SystemInstructions :
    admits (withX []) [.ecall, .ebreak, .safe 0 0, .pfxExt 0xFFFF, .pfxOpt 1, .illegalEncoding 0, .illegalEncoding 0xFE000000] ∧
    admits released [.ebreak] ∧ released.th.ebkStop = true ∧ admits claimed [.ebreak] ∧
    (claimed.core claimed.cur).dbg.ebkclm = true ∧ claimed.isGust = false ∧ claimed.th.ebkStop = false ∧
    admits (tester 0 true [(1, 0xFFFF0001)]) [.eret, .halt, .tinv 2 1] ∧ admits (tester 0 true [(1, 0)]) [.tinv 2 1] ∧
    isTranslated (pathByte ((tester 0 true []).p 2)) = true ∧ bits 0xFFFF0001 2 14 = 0 ∧ (0xFFFF0001 : Nat) % 4 = 1 ∧
    admits mapped [.safe 0 0, .safe 0 1] ∧ mapped.th.csr.lmcnt.toNat = 1 ∧ (withX []).th.csr.lmcnt.toNat = 0 ∧
    decode 0 = none ∧ decode 0xFE000000 = none ∧ (0xFE000000 : Word).extractLsb' 26 6 = 63 ∧ (0 : Word).extractLsb' 26 6 ≠ 63 := by
  decide +kernel

/-! Events. Where a unit's number is in range, and where it is one too large, the event has its effect and does not exist. -/

theorem witness_ArrivalEvents : (359 : Nat) < 360 ∧ ¬(360 : Nat) < 360 ∧ ((255 : Nat) < 256 ∧ (3 : Nat) < 4) ∧
    ¬((256 : Nat) < 256 ∧ (3 : Nat) < 4) := by decide

/-- A line of slice 0 and a state in which its die cache holds it. -/
def lineAt : LineEvent := { slice := 0, pa := 0, va := 0, way := 0, requester := 0, asid := 0, dirty := false }
def caching (l : Line) : State := { State.reset with slices := [(0, { lines := [(lineKey 0, l)] })] }

theorem witness_MemoryAndEngineEvents :
    (lineAt.slice < 64 ∧ isBacked lineAt.pa.toNat = true ∧ homeSlice lineAt.pa.toNat = lineAt.slice) ∧
    ¬(homeSlice lineAt.pa.toNat = 63) ∧ FMap.find (State.reset.sliceAt 0).lines (lineKey 0) = none ∧
    (State.reset.raiseLine 0 0 0 lineAt).2 = none ∧ ((caching {}).sliceAt 0).freeWay (lineKey 0) ≠ none ∧
    FMap.find ((caching { filling := true, present := false }).sliceAt 0).lines (lineKey 0) = some { filling := true, present := false } ∧
    ((caching { filling := true, present := false }).sliceAt 0).freeWay (lineKey 0) = some 0 ∧
    (caching {}).sinkLine (lineKey 0) = false ∧ State.reset.sinkLine (lineKey 0) = false ∧ FMap.find ((caching {}).sliceAt 0).lines (lineKey 0) = some {} := by decide +kernel

/-- Slice 0 with each of the sixteen ways of the line's set in use. -/
def crowdedSet : State :=
  { State.reset with slices := [(0, { lines := (List.range 16).map fun w => (lineKey 0 + 8192 * (w + 1), { way := w }) })] }

theorem witness_MemoryAndEngineEvents_full : (crowdedSet.sliceAt 0).freeWay (lineKey 0) = none := by decide +kernel

/-- A core with a timer that is due and one that is not, and an egress queue with a frame that is due. -/
def timed : State := { State.reset with clock := { now := 5 } }.modCx 359 fun x => { x with timers := [⟨5, 0, 0⟩, ⟨6, 0, 0⟩] }
/-- A seized tile whose Gust code has a timer that is due. -/
def seized : State := { State.reset with clock := { now := 5 } }.modCore 0 fun k =>
  { k with saved := some {}, cx := { k.cx with timers := [⟨5, 0, 0⟩] } }
def egressing : State := { State.reset with egress := [(15, { v := true, frames := [⟨0, [0]⟩] })] }

theorem witness_TimedEvents :
    (timed.core 359).timerLine[0]? = some ⟨5, 0, 0⟩ ∧ (timed.core 359).timerLine[1]? = some ⟨6, 0, 0⟩ ∧
    (timed.core 359).timerLine[2]? = none ∧ timed.clock.now = 5 ∧ (timed.core 359).ctx.timers.length = 2 ∧
    (seized.core 0).timerLine[0]? = some ⟨5, 0, 0⟩ ∧ (seized.core 0).ctx.timers.length = 0 ∧
    (egressing.egressAt 15).frames = [⟨0, [0]⟩] ∧ egressing.egressDue 15 = true ∧ (egressing.egressAt 14).frames = [] := by
  decide +kernel

/-- A request of firmware that waits, for a service by number. -/
def asking (n : Nat) : ServiceReq := { number := n, asid := 0, supervisor := false, driver := false, words := [] }

theorem witness_ServiceAndPartitionEvents :
    (∀ n ∈ [0x02, 0x20, 0x99], (({ State.reset with services := [asking n], boot := { stage := 3 } } : State).takeService (asking n)).isSome = true) ∧
    (asking 0x20).number ∈ [0x20, 0x30, 0x31, 0x32] ∧ (asking 0x02).supervisor = false ∧
    (({ State.reset with flight := { messages := [(queueDest, {})] } } : State).flight.messages[0]?).map (·.1) = some queueDest ∧
    FMap.find State.reset.programs 0 = none ∧ State.reset.flight.messages[0]? = none ∧ errUnitOk ⟨.reasoning, 255⟩ = true ∧ errUnitOk ⟨.reasoning, 256⟩ = false := by
  decide +kernel

/-- A device whose boot ROM verifies an image. -/
def booting : State := { State.reset with boot := { stage := 2 } }

theorem witness_RegisterAndBootEvents : (4096 : Nat) ≤ 4096 ∧ ¬(4097 : Nat) ≤ 4096 ∧ ((63 : Nat) < 64 ∧ (15 : Nat) < 16) ∧
    ¬(64 : Nat) < 64 ∧ State.reset.boot.stage ≠ 2 ∧ booting.boot.stage = 2 ∧ (booting.bootCopy 0x80001).isNone = true ∧
    (booting.bootCopy 64).isSome = true ∧ (State.reset.core 359).gust = none ∧ (State.reset.thread 359 3).run = .idle := by
  decide +kernel

/-! The machine as a whole. -/

/-- The state in which a thread's turn has begun, what stands before its fetch, and where its word lies; the word is fetched
anew. -/
def turnOf (s : State) (c n : Nat) : Option (State × Nat) :=
  let begun := ({ s with agenda := [] } : State).advance
  let turn := ({ begun with cur := c, slot := n } : State).modCore c fun k => { k with lastTry := n }
  if (begun.core c).canTurn n then
    match turn.before c n with
    | .go u =>
      match u.fetchHeader c n with
      | .inl v =>
        match v.fetchLoc c n (v.thread c n).bank.pc 4 with
        | .inl loc => some (v.touchTlb c ((v.thread c n).act.getD {}).asid 0 (v.thread c n).bank.pc.toNat .fetch, loc)
        | .inr _ => none
      | .inr _ => none
    | .settle _ => none
  else none

/-- A state whose next turn fetches a word, with nothing scheduled, or with the word fetched before. -/
def word (x : Nat) (brk : Bool) : FetchedWord := { word := BitVec.ofNat 32 x, pc := 0x1000, brk := brk }
def placed (w : Nat) : State := State.reset.withFetchWord 32 w
def unscheduled (w : Nat) : State := { placed w with agenda := [], clock := { cc := 9 } }
def cached (w x : Nat) : State :=
  (placed w).modCore 0 fun k => { k with icache := [(dramLoc 0x1000, word x false)] }

def fetchedBefore (w x : Nat) (brk : Bool) : State :=
  (placed w).modThread 0 0 fun t => { t with fetched := [(dramLoc 0x1000, word x brk)] }
def held (e : State × Nat) : Option Nat := ((e.1.core 0).icache.find? (·.1 == e.2)).map (·.2.word.toNat)
def own (e : State × Nat) : Option Nat := (FMap.find (e.1.thread 0 0).fetched e.2).map (·.word.toNat)

theorem witness_StepRunsTheDecodedInstruction :
    (placed 0x04A63800).agenda = [.thread 0 0] ∧ (unscheduled 0x04A63800).advance.periodic = none ∧
    (unscheduled 0x04A63800).advance.duty = none ∧ (unscheduled 0x04A63800).advance.nextTurn = some (.thread 0 0) ∧
    (∀ s ∈ [placed 0x04A63800, unscheduled 0x04A63800],
      (turnOf s 0 0).map (fun e => (own e, held e, wordOfBytes (e.1.read e.2 4))) = some (none, none, 0x04A63800)) ∧
    (turnOf (placed 0) 0 0).map (fun e => (held e, decode (wordOfBytes (e.1.read e.2 4)))) = some (none, none) ∧
    (turnOf (cached 0 0x04A63800) 0 0).map (fun e => (own e, held e)) = some (none, some 0x04A63800) ∧
    (turnOf (fetchedBefore 0 0x04A63800 false) 0 0).map own = some (some 0x04A63800) ∧
    (turnOf ((fetchedBefore 0 0x04A63800 true).modCore 0 fun k => { k with dbg := { bken := true } }) 0 0).map (fun e => e.1.breakAt 0 0 (word 0x04A63800 true)) = some true ∧
    (turnOf (fetchedBefore 0 0x04A63800 false) 0 0).map (fun e => e.1.breakAt 0 0 (word 0x04A63800 false)) = some false ∧
    (turnOf ((placed 0x04A63800).modThread 0 0 fun t => { t with run := .blocked .successors }) 0 0).map
      (fun e => decide ((e.1.thread 0 0).run = .ready)) = some false ∧
    decode 0x04A63800 = some (.add 5 6 7) ∧ groupOf .heartbeatSend = .event := by decide +kernel

/-- Threads that each check before an instruction stops: a mover command on the front end's core, a return in user mode, the
513th instruction behind a `safe`, and an instruction that only the head of an interval may be. -/
def late : State := (withX []).modTh fun t => { t with ic := 512, csr := { t.csr with gelig := true } }
def inside : State := (withX []).modTh fun t => { t with sp := false }

theorem witness_InstructionChecks :
    (tester 352 false []).illegal (.mvgo 3 0) = true ∧ prefixed.illegal (.pfxExt 1) = true ∧
    (withX []).illegal .eret = false ∧ availability (groupOf .eret) (coreType 0) = .sup ∧ (withX []).sup = false ∧
    late.illegal (.add 5 6 7) = false ∧ availability (groupOf (.add 5 6 7)) (coreType 0) ≠ .sup ∧ 512 ≤ late.th.ic ∧
    late.th.csr.gelig = true ∧ inside.illegal (.qclaim 3 1) = false ∧ needsSafe (.qclaim 3 1) = true ∧
    availability (groupOf (.qclaim 3 1)) (coreType 0) ≠ .sup ∧ inside.th.csr.gelig = false ∧ inside.th.sp = false ∧
    late.illegal (.pfxExt 1) = false ∧ late.namesRefused (.csrw 1 0x43) = true ∧ late.namesRefused (.add 5 6 7) = false ∧
    inside.namesRefused (.qclaim 3 1) = false ∧ groupOf (.add 5 6 7) ≠ .event := by decide +kernel

theorem witness_EveryInstructionAnswers : groupOf (.add 5 6 7) ≠ .event ∧ groupOf (.dbgHaltreq 360) = .event ∧
    wellFormed (.dbgHaltreq 360) = false ∧ wellFormed (.dbgHaltreq 359) = true := by decide

theorem witness_RetirementEffects : plain.th.stopWhy = 0 ∧ plain.stopWanted plain.cur plain.slot = none := by decide +kernel

/-- A thread with a vector that can be fetched, one with a vector outside its core's memory, and one without. -/
def vectored (v : Dword) : State := (withX []).modTh fun t => { t with csr := { t.csr with tvec := v } }
def saving (s : State) : State := (s.modTh fun h => { h with csr := { h.csr with mode := true } }).dropResv s.cur s.slot

theorem witness_TrapEntryAndReturn :
    (∀ s ∈ [vectored 0x1000, vectored 0, vectored 0x0200000000000000], (s.core s.cur).dbg.trapstop = false ∧ s.th.stopWhy = 0 ∧
      s.act.kind = .task) ∧ (vectored 0x1000).th.csr.tvec ≠ 0 ∧ (vectored 0).th.csr.tvec = 0 ∧
    (saving (vectored 0x0200000000000000)).vectorFaults 0 0 0x0200000000000000 = true := by decide +kernel

/-- A thread of a reflex tile, whose code stands in its own SRAM. -/
def vectoredReflex : State := (tester 256 false []).modTh fun t => { t with csr := { t.csr with tvec := 0x1000 } }

theorem witness_TrapEntryAndReturn_vector : (saving vectoredReflex).vectorFaults 256 0 0x1000 = false ∧
    vectoredReflex.act.kind = .task ∧ vectoredReflex.th.csr.tvec ≠ 0 ∧ (vectoredReflex.core 256).dbg.trapstop = false ∧
    vectoredReflex.th.stopWhy = 0 := by decide +kernel

theorem witness_StepKeepsMemoryForm : Memory.wf State.reset.mem ∧ (∃ t, step State.reset = .next t) ∧
    Memory.wf (placed 0x04A63800).mem ∧ ∃ t, step (placed 0x04A63800) = .next t :=
  ⟨by decide, ⟨_, rfl⟩, by decide +kernel, ⟨_, rfl⟩⟩

/-- An instruction answers a next state. -/
abbrev answers (s : State) (i : Instr) : Prop := (match exec i s with | .next _ => true | _ => false) = true

theorem witness_RegisterInstructionFrames : plain.th.stopWhy = 0 ∧ masked.th.stopWhy = 0 ∧
    (∀ i ∈ ([.add 0 1 2, .jalrFar 15 1 4, .bkany 0 4, .dbnz 1 4, .jal 4, .lw 3 3 0, .ld 3 3 0, .kand 0 1 2] : List Instr),
      Admitted i plain ∧ answers plain i) ∧ LoadReads plain 3 0 4 [0, 0, 0, 0] plain ∧
    LoadReads plain 3 0 8 [0, 0, 0, 0, 0, 0, 0, 0] plain :=
  ⟨by decide +kernel, by decide +kernel, by decide +kernel, witness_LoadResults.2.2.2.1, witness_LoadResults.2.2.2.2⟩

theorem witness_StoreFrames : plain.th.stopWhy = 0 ∧ Memory.wf plain.mem ∧ Admitted (.sb 1 3 0) plain ∧ answers plain (.sb 1 3 0) ∧
    Admitted (.sd 1 3 0) plain ∧ answers plain (.sd 1 3 0) ∧
    StoreTakes plain 3 0 1 (plain.x 1).toNat (.mem (sramLoc 0 0x100)) (stored 1 5) ∧
    StoreTakes plain 3 0 8 (plain.p 1).toNat (.mem (sramLoc 0 0x100)) (stored 8 (plain.p 1).toNat) :=
  ⟨by decide +kernel, by decide +kernel, by decide +kernel, by decide +kernel, by decide +kernel, by decide +kernel,
    witness_StoreResults.2.1, witness_StoreResults.2.2⟩

theorem witness_VectorFrames : plain.th.stopWhy = 0 ∧
    vreads plain [(.vadd 3 1 2 0 2 1, [1, 2], [3]), (.vabs 3 1 0 0, [1], [3]), (.vbcast 3 1 0 2, [], [3]),
      (.vfma 3 1 2 0 3, [1, 2, 3], [3])] ∧
    ∀ i ∈ ([.vadd 3 1 2 0 2 1, .vabs 3 1 0 0, .vbcast 3 1 0 2, .vfma 3 1 2 0 3] : List Instr), answers plain i := by
  decide +kernel

theorem witness_AtomicFrames : paged.th.stopWhy = 0 ∧ Memory.wf paged.mem ∧ Admitted (.amoaddW 1 4 2 2 0 0) paged ∧
    (∀ i ∈ ([.amoaddW 1 4 2 2 0 0, .lrW 1 4 2 0 0, .lrD 1 4 2 0 0, .scW 1 4 2 2 0 0] : List Instr), answers paged i) ∧
    AtomicReads paged (paged.p 4) 4 2 false (dramLoc 0x2000) touched ∧ pathByte (paged.p 4) = 0 :=
  ⟨by decide +kernel, by decide +kernel, by decide +kernel, by decide +kernel, witness_AtomicResults.2.1, by decide +kernel⟩

/-- A MatrixCommands witness for the checks behind the fill: a hand-off without a ring, and a latch that breaks R157. -/
def ringless : State := matrixReady 0x1000 4 1 128 0x25
def unlatched : State := (matrixReady 0x1000 0 1 128 0x25).modCore 0 fun k => { k with spbase := 0x10000, spsize := 0x1000 }

theorem witness_MatrixCommands_latch : Admitted (.mma 1 2) ringless ∧ Admitted (.mma 1 2) unlatched ∧
    (let m := ringless.matrixCmd .mma 0x1000 4 0;
      mmaPairing m.sr m.af m.bf = some ⟨1, 2, 1⟩ ∧ m.shapeBad = false ∧ 128 = m.k * rowBytes 0 m.bf) ∧ bit 4 2 = true ∧
    bit (ringless.core 0).cx.mx.ring.toNat 63 = false ∧ unlatched.latchOk 0 = false ∧ (oneProduct.core 0).l1pending = none := by
  decide +kernel

/-- Slots of the mailbox without a version, with a clean latest one, and with one that is BAD beside a clean older one. -/
def versions (k : MbSlot) : State := mbWriter [] k
def badLatest : MbSlot := { b0 := { ver := 3 }, b1 := { st := .latest, ver := 4, bad := true }, ver := 4 }

theorem witness_MailboxOperations_versions :
    ((versions {}).mbSlot 0).latest = none ∧ ((versions mbOpened).mbSlot 0).latest = some 0 ∧
    (versions mbOpened).mbClean 0 0 64 = true ∧ ((versions badLatest).mbSlot 0).latest = some 1 ∧
    ((versions badLatest).mbSlot 0).newestClean = some 0 ∧ (versions badLatest).mbClean 0 0 64 = true ∧
    ((versions {}).mbSlot 0).size = 64 ∧
    ((List.range 4).filter fun b => (mbOpened.buf b).st != .latest && (mbOpened.buf b).pins == 0) = [1, 2, 3] := by decide +kernel

/-- A `pf` through the scratchpad's path, which names no line. -/
theorem witness_OrderingAndWaiting_pf : Admitted (.pf 3 0 0) plain ∧ plain.mAddr 3 0 128 = some 0x1000000000000100 ∧
    isTranslated (pathByte 0x1000000000000100) = false := by decide +kernel

/-! Single instructions, and the loader's checks on the object of spec/18's example. -/

/-- The words of the example of spec/18: an entry header, then a loop that adds eight numbers. -/
def sum8 : List (BitVec 32) :=
  [0, 0, 1, 0, 0x0A400000, 0x0A600008, 0x22800001, 0x22A01000, 0xE4000700, 0x90B40000, 0x06522800, 0x294A0004, 0xE4000700,
    0x6A60FFFB, 0xA2404010, 0xE4000700, 0xE0000304]
def object (l : List (BitVec 32)) : CodeObject :=
  { core := 0, base := 0x1000, words := l, handlers := [4], liveMap := [0x3C0000], sections := [], gustEligible := true, handle := 1 }

/-- The loader takes the example with an `addi` in place of its load (R71, R361), and refuses it without the `safe` before its
backward branch. -/
theorem test_loader_safe : (object (sum8.set 9 0x08000000)).safesStand = true ∧ (object sum8).gustShort = true ∧
    (object sum8).straddles = false ∧ (object ((sum8.set 9 0x08000000).set 12 0x08000000)).safesStand = false := by decide +kernel

/-- A loop of a queue program is bounded by an `addi` from x0 of 1 to 4,096, and not by one of 0 (R276). -/
theorem test_loader_loop : (object sum8).loopBounded 13 = true ∧ (object (sum8.set 5 0x0A600000)).loopBounded 13 = false := by
  decide +kernel

/-- An object that crosses a 4 GiB boundary is refused (R346). -/
theorem test_loader_straddle : ({ object sum8 with base := 0xFFFFFFF0 } : CodeObject).straddles = true := by decide +kernel

/-- `mbpub` writes the header without clearing the poison under it (R206). -/
theorem test_mbpub_keeps_poison :
    let s : State := { mbWriter [(2, 32)] mbOpened with poison := [mbLoc ((mbOpened).base 1)] }
    let at_ := mbLoc ((s.mbSlot 0).base 1)
    let t := ({ s with poison := [at_] } : State)
    ((after (.mbpub 3 0 2) t).poisoned at_ (at_ + 32)).isSome = true ∧ (after (.mbpub 3 0 2) t).readNat at_ 8 = 4 := by decide +kernel

/-- `pf` on a translated line that the home slice does not hold asks for it (R435). -/
theorem test_pf_fills : ((after (.pf 4 0 0) paged).slices.any fun e => e.2.lines.any fun l => l.2.filling) = true := by decide +kernel

/-- `fencei` forgets what its own slot fetched, and not what another slot did (R125). -/
theorem test_fencei_own :
    let s := (plain.modThread 0 0 fun t => { t with fetched := [(0, word 1 false)], sp := true }).modThread 0 1 fun t => { t with fetched := [(0, word 1 false)] }
    ((after .fencei s).thread 0 0).fetched = [] ∧ ((after .fencei s).thread 0 1).fetched = [(0, word 1 false)] := by decide +kernel

/-- On a slice agent a remote `cadd` to counter 16 traps MOVER 1 as a local one does (R261). -/
theorem test_cadd_agent : ((after (.cadd 1 2) ((tester 288 true [(1, 0x20010)]).modTh fun t =>
    { t with csr := { t.csr with tvec := 0x100 } })).th.csr.causeCode) = BitVec.ofNat 8 causeMover := by decide +kernel

/-- A bad descriptor before a poisoned one traps MSG with its own offset (R393). -/
theorem test_exit_order :
    let s := (withX [(6, 0x100), (8, 2)]).modTh fun t => { t with csr := { t.csr with tvec := 0x1000 } }
    let t : State := { s.storeNat (sramLoc 0 (0x100 + 60)) 1 1 with poison := [sramLoc 0 0x140] }
    t.badSuccessor (sramLoc 0 0x100) [t.read (sramLoc 0 0x100) 64, t.read (sramLoc 0 0x140) 64] = some (0, some causeMsg) := by
  decide +kernel

/-- Before the boot ROM runs, an access of the host reaches nothing, and afterwards a read of no register is zero and counted
(R333, R337). -/
theorem test_host_gate :
    let read : HostAccess := ⟨false, barBase + 0x10068, .read 4⟩
    let up : State := { State.reset with boot := { stage := 1 } }
    (after (.hostMemoryAccess read) State.reset).link.hostbad = 0 ∧ (after (.hostMemoryAccess read) up).link.hostbad = 1 ∧
    (after (.hostMemoryAccess read) up).link.reply = [0, 0, 0, 0] := by decide +kernel

/-- An AtomicOp of the host on device memory answers the old value and leaves the sum (R332). -/
theorem test_host_fetch_add :
    let up : State := { State.reset with boot := { stage := 1 }, mem := memWrite [] (dramLoc 0x2000) [5] }
    let t := after (.hostMemoryAccess ⟨false, 0x2000, .fetchAdd false 3⟩) up
    t.link.reply = [5, 0, 0, 0] ∧ t.readNat (dramLoc 0x2000) 4 = 8 := by decide +kernel

/-! Witnesses for the clauses beside the main ones. -/

/-- A thread whose p4 names a halfword of the translated page that no access is aligned at, and one whose p4 names element 3 of
an FP32 view of its scratchpad. -/
def skewedPage : State := paged.setTh (paged.th.setX 8 0x2001)
def viewing : State := tester 0 false [(8, 3), (9, 0x11000000)]

theorem witness_MisalignedAccessTraps_paths :
    admits skewedPage [.lh 1 4 0, .ld 1 4 0, .sh 1 4 0, .sd 1 4 0] ∧
    (∀ n ∈ [2, 4, 8], skewedPage.mAddr 4 0 n = some 0x2001) ∧ skewedPage.pathCheck skewedPage.issuer 0 = 0 ∧
    isTranslated 0 = true ∧ skewedPage.safeRule (loadBlocks (skewedPage.basePath 4)) true (skewedPage.basePath 4) = 0 ∧
    skewedPage.safeRule (storeBlocks (skewedPage.basePath 4)) false (skewedPage.basePath 4) = 0 ∧ skewedPage.act.queueOf = none ∧
    admits viewing [.lb 1 4 0, .lw 1 4 0] ∧ viewing.mAddr 4 0 1 = some 0x1100000000000003 ∧
    viewing.mAddr 4 0 4 = some 0x1100000000000003 ∧
    (∀ n ∈ [1, 4], (viewing.region viewing.issuer 0x1100000000000003 0 n).1 = 0 ∧
      viewing.l1Waits viewing.issuer 0x1100000000000003 0 n = false ∧
      ∀ x ∈ viewElements 3 0 n, viewing.viewAllowed viewing.issuer (viewOf 0x11) x = true) ∧
    viewing.pathCheck viewing.issuer 0x11 = 0 ∧ viewing.dirClass 0x11 .load = 0 ∧
    viewing.safeRule (loadBlocks (viewing.basePath 4)) true (viewing.basePath 4) = 0 ∧ viewing.act.queueOf = none := by decide +kernel

/-- The home slice of the cell with its wait table full, without an overflow list and with one. -/
def tabled (ovf : BitVec 64) : State :=
  { paged with slices := [(sliceOfLoc (dramLoc 0x2000), { waiters := List.replicate 256 { core := 1, slot := 0, asid := 0, cell := 0 }, wtovf := ovf })] }
def overflowing : State := tabled 0x8000000000000000

theorem witness_FutureOperations_parks :
    (∀ s ∈ [paged, tabled 0, overflowing], Admitted (.fget 1 4) s ∧ s.th.wake = none ∧ s.safeRule false true 0 = 0 ∧
      s.readNat (dramLoc 0x2008) 1 % 2 = 0 ∧ isTranslated (pathByte (s.p 4)) = true) ∧
    (((paged.sliceAt (sliceOfLoc (dramLoc 0x2000))).waiters.filter fun w => w.image.isNone).length < 256) ∧
    (∀ s ∈ [tabled 0, overflowing],
      ¬((s.sliceAt (sliceOfLoc (dramLoc 0x2000))).waiters.filter fun w => w.image.isNone).length < 256) ∧
    ((tabled 0).sliceAt (sliceOfLoc (dramLoc 0x2000))).wtovf.getLsbD 63 = false ∧
    (overflowing.sliceAt (sliceOfLoc (dramLoc 0x2000))).wtovf.getLsbD 63 = true ∧
    ((overflowing.sliceAt (sliceOfLoc (dramLoc 0x2000))).freeEntry (sliceOfLoc (dramLoc 0x2000))
      (bucketOf (overflowing.cellPa 0x2000))).isSome = true := by decide +kernel

/-- Lists with and without a number among them, for the extremes and for `vargmax`. -/
theorem witness_VectorReductions_lists : (([(0, 0x3F800000), (2, 0x7FC00000), (5, 0x40000000)] : List (Nat × Nat)).map (·.1)).Pairwise (· < ·) ∧
    (decodeFloat .fp32 0x7FC00000).isNaN = true ∧ (decodeFloat .fp32 0x3F800000).isNaN = false := by decide +kernel

/-- Threads that end an activation: one of a gang, a program of a queue, and Gust code whose profile names another tile. -/
def ending (a : Activation) : State :=
  { (withX []).modTh fun t => { t with act := some a } with
    gangs := [twoMembers], gusts := [(15, { reg := BitVec.ofNat 128 (2 ^ 127 + 3 * 2 ^ 110 + 2 ^ 104) })] }

theorem witness_ExitOutcomes_ends :
    (∀ a ∈ [({} : Activation), { gang := some (1, 0) }, { kind := .queueProgram 5 }, { kind := .gust 15 0 }],
      Admitted (.exit 1 2) (ending a) ∧ ((ending a).x 2).toNat = 0 ∧ (ending a).th.act = some a ∧ (ending a).th.stopWhy = 0 ∧
        (ending a).th.shadow = none ∧ ((ending a).core 0).cx.clearing = []) ∧
    (FMap.find twoMembers.members 0).map (·.st) = some .running ∧ coreType 0 ≠ .agent ∧
    256 + bits ((ending {}).gustAt 15).reg.toNat 110 5 ≠ 0 ∧ ((ending {}).core 259).saved = none ∧
    succeeded.th.act.isSome = true ∧ succeeded.th.stopWhy = 0 ∧ succeeded.th.shadow = none := by decide +kernel

/-- Vector products that each check of R164 stops: its formats, its length, the engine's length, its buffer, its ring, its latch
and its reserved bits. -/
theorem witness_MatrixCommands_vector :
    (∀ s ∈ [matrixReady 0x1000 0 32 32 0x06, matrixReady 0x1000 0 0 32 0x02, matrixReady 0x1000 0 32 31 0x02,
        matrixReady 0x1000 4 32 32 0x02, matrixReady 0x1000 8 32 32 0x02],
      Admitted (.mmv 1 2) s ∧ s.unitFree = true ∧ (s.core 0).cx.mx.headFull = some 0) ∧
    mmvStep 0 6 0 = none ∧ mmvStep 0 2 0 ≠ none ∧
    (let m := vectorProduct.matrixCmd .mmv 0x1000 0 0;
      m.sr = 0 ∧ m.k = 32 ∧ m.k % aMultiple m.af = 0 ∧ baseBad m.af m.base = false ∧ firstElem m.af m.base % aMultiple m.af = 0 ∧
        m.astr % aMultiple m.af = 0 ∧ m.nout ≠ 0 ∧ m.nout ≤ 2048 ∧ 32 = m.k * bSize m.bf) := by decide +kernel

/-- A task of another reflex tile, which does not hold the profile. -/
def stranger : State :=
  ({ tester 257 false [(1, 15)] with gusts := (holder false 15).gusts } : State).modTh fun t => { t with act := some {} }

theorem witness_GustOperations_checks :
    (∀ i ∈ ([.gust 3 1, .gustrel 1] : List Instr), Admitted i (holder false 16) ∧ Admitted i (holder false 14) ∧
      Admitted i stranger) ∧ ((holder false 14).x 1).toNat = 14 ∧ ((holder false 14).gustAt 14).valid = false ∧
    (holder false 15).isHolder (holder false 15).issuer 15 = true ∧ (stranger.gustAt 15).valid = true ∧
    (stranger.x 1).toNat = 15 ∧ stranger.isHolder stranger.issuer 15 = false := by decide +kernel

theorem witness_ControlRegisterAccesses_l1cfg :
    (tester 0 true []).csrRefuses 0x43 = 0 ∧ (tester 0 true []).l1Fits 0 ((3 : Word).setWidth 2) = true ∧ coreType 0 = .reasoning ∧
    ((tester 0 true []).core 0).l1pending = none ∧ ((tester 0 true []).core 0).pending = [] ∧
    (tester 0 true []).ringLimit 0 ≠ 0 ∧ coreType 256 ≠ .reasoning := by decide +kernel

/-- Vector forms that write other destinations than a vector register, and the ones that reach memory, with every lane on and
with none. -/
theorem witness_VectorFrames_forms : noLanes.th.stopWhy = 0 ∧ Memory.wf noLanes.mem ∧
    vreads noLanes [(.vtopk 2 4 5 0 3 0, [4, 5, 2, 3], [2, 3]), (.vins 3 1 2 2, [3], [3]), (.vmvx 3 1 2 2, [1], []),
      (.vargmax 3 1 0 3 0, [1], []), (.vcmpEq 1 1 2 0 2 1, [1, 2], []), (.vcmpGe 7 1 2 0 2 0, [1, 2], [])] ∧
    (∀ i ∈ ([.vtopk 2 4 5 0 3 0, .vins 3 1 2 2, .vmvx 3 1 2 2, .vargmax 3 1 0 3 0, .vcmpEq 1 1 2 0 2 1, .vld 2 3 0 0, .vld 2 3 1 0,
      .vst 2 3 0 0, .vst 2 3 1 0, .vldg 2 3 4 0 2, .vldg 2 3 4 1 2, .vsts 2 3 4 0 2, .vsts 2 3 4 1 2] : List Instr),
      answers noLanes i) ∧
    ((List.range 8).filter fun i => (noLanes.k 0).getLsbD (4 * i)) ≠ [] ∧
    (∃ r, noLanes.writePlace noLanes.issuer (.mem (sramLoc 0 0x100)) [(0, 0)] false = .ok r) ∧
    VectorLeads noLanes 3 (noLanes.k 0) 0 .store (storeBlocks 0x10) 0x1000000000000100 (.mem (sramLoc 0 0x100)) ∧
    (∃ l r, noLanes.checkLanes (noLanes.p 3) 4 (fun _ => 0) .store [0] = .ok l ∧ l.map (·.2.2) = [.mem (sramLoc 0 0x100)] ∧
      noLanes.laneWalk .store l = none ∧ noLanes.writeLanes 4 0 l = .ok r) :=
  ⟨by decide +kernel, by decide +kernel, by decide +kernel, by decide +kernel, by decide +kernel, ⟨_, rfl⟩,
    witness_VectorMemoryResults.2.2.2.2.1, ⟨_, _, rfl, by decide +kernel, by decide +kernel, rfl⟩⟩

/-- A channel that has just taken a command which copies 64 bytes of the scratchpad. -/
def moving : State := after (.mvgo 3 0) (copying [] 0x2000000000)

theorem witness_MemoryAndEngineEvents_mover :
    (moving.core 0).enginesRun = true ∧ moving.chanWalk 0 0 = none ∧ ((moving.core 0).cx.mover 0).st = .running ∧
    (moving.core 0).cx.streamOf 0 = none ∧
    (match ((moving.core 0).cx.mover 0).run with
      | some m => (match moving.elemGet m { m.issuer with core := 0 } m.idx with
        | .inl l => (match (moving.touchSource m { m.issuer with core := 0 } m.idx).elemPut m { m.issuer with core := 0 } m.idx l with
          | .inl _ => true
          | .inr _ => false)
        | .inr _ => false)
      | none => false) = true := by decide +kernel

/-! What the machine does around an instruction, where the specification says it of one step. -/

/-- A waiting slot whose condition does not hold takes no issue slot: the rotation of its core stays (R54). -/
theorem test_failed_retry_keeps_rotation :
    let s := (placed 0xE0A63A01).modThread 0 0 fun t => { (t.setX 6 3).setX 7 5 with run := .blocked .counter }
    (match step s with | .next t => ((t.core 0).lastSlot, (t.core 0).lastTry, (t.thread 0 0).run) | _ => (9, 9, .idle)) =
      ((State.reset.core 0).lastSlot, 0, .blocked .counter) := by decide +kernel

/-- Gust code that sends KIND 0x1 traps MSG, not PRIV (R218, R220). -/
theorem test_gust_sends_supervisor_kind :
    let s : State := (tester 256 false [(2, 0x10000)]).modTh fun t => { t with act := some { kind := .gust 15 0 } }
    s.sendRefuses 0x10000000 0x10000 s.th.build = causeMsg := by decide +kernel
end

section
/-! PROOFS. The binding table's instructions: the keep-region check of R38, and what `bind` and `unbind` answer in each of their
cases (R383, R464). -/

namespace Sys2Proof.Machine

/-! The keep region. -/

/-- The keep region of an entry does not lie in scratchpad. -/
def State.KeepOutside (s : State) (c : Nat) (w : BitVec 128) : Prop :=
  s.scratchEnd c < 64 * bindKeepOff w + 64 * bindKeepSize w

/-- The keep region of an entry overlaps the spill ring. -/
def Core.KeepInRing (k : Core) (w : BitVec 128) : Prop :=
  k.spbase.toNat < 64 * bindKeepOff w + 64 * bindKeepSize w ∧ 64 * bindKeepOff w < k.spbase.toNat + k.spsize.toNat

/-- The keep region of an entry at index `i` overlaps that of another valid entry with a different start. -/
def Core.KeepInOther (k : Core) (i : Nat) (w : BitVec 128) : Prop :=
  ∃ f ∈ k.cx.binds, f.1 ≠ i ∧ bindValid f.2 = true ∧ bindKeepSize f.2 ≠ 0 ∧ bindKeepOff f.2 ≠ bindKeepOff w ∧
    64 * bindKeepOff f.2 < 64 * bindKeepOff w + 64 * bindKeepSize w ∧
      64 * bindKeepOff w < 64 * bindKeepOff f.2 + 64 * bindKeepSize f.2

/-- The check of R38 fails exactly for an entry that has a keep region and meets one of the three cases of the rule. -/
theorem keepRefuses_iff (s : State) (c i : Nat) (w : BitVec 128) :
    s.keepRefuses c i w = true ↔
      bindKeepSize w ≠ 0 ∧ (s.KeepOutside c w ∨ (s.core c).KeepInRing w ∨ (s.core c).KeepInOther i w) := by
  by_cases h : bindKeepSize w = 0
  · simp [State.keepRefuses, h]
  · simp [State.keepRefuses, State.KeepOutside, Core.KeepInRing, Core.KeepInOther, h, Nat.mul_add, and_assoc, or_assoc]

/-! `bind` and `unbind` as the instructions they are. -/

theorem exec_bind (d p t : Reg) (s : State) : exec (.bind d p t) s = execBind d p t s := rfl

theorem exec_unbind (d p : Reg) (s : State) : exec (.unbind d p) s = execUnbind d p s := rfl

/-! The cases of `bind` (R383). -/

/-- The entry that `bind` presents in a pair of pair registers (R383). -/
abbrev State.presented (s : State) (p t : Reg) : BitVec 128 := s.p t ++ s.p p

section
variable {s : State} {d p t : Reg} {i : Nat}

theorem bind_retires_zero_of_refused (adm : Admitted (.bind d p t) s)
    (h : entryRefuses (coreType s.cur) (s.presented p t) = true ∨ (s.core s.cur).cx.bindIndex (bindTag (s.presented p t)) = none) :
    Retires (.bind d p t) s (s.setX d 0) := by
  rw [Retires, exec_bind, execBind, issue_admitted adm]
  rcases h with h | h <;> simp [h, State.retX]

theorem bind_retires_zero_of_keepRefuses (adm : Admitted (.bind d p t) s)
    (hi : (s.core s.cur).cx.bindIndex (bindTag (s.presented p t)) = some i)
    (hk : s.keepRefuses s.cur i (s.presented p t) = true) :
    Retires (.bind d p t) s (s.setX d 0) := by
  by_cases he : entryRefuses (coreType s.cur) (s.presented p t) = true
  · exact bind_retires_zero_of_refused adm (.inl he)
  · rw [Retires, exec_bind, execBind, issue_admitted adm]
    simp [he, hi, hk, State.retX]

theorem bind_retires_index_of_placed (adm : Admitted (.bind d p t) s)
    (he : entryRefuses (coreType s.cur) (s.presented p t) = false)
    (hi : (s.core s.cur).cx.bindIndex (bindTag (s.presented p t)) = some i)
    (hk : s.keepRefuses s.cur i (s.presented p t) = false) :
    Retires (.bind d p t) s
      (((s.modCore s.cur fun k => { k with cx := { k.cx with binds := FMap.put k.cx.binds i (s.presented p t) } }).releaseHeld
        s.cur (bindTag (s.presented p t))).setX d (BitVec.ofNat 32 (1 + i))) := by
  rw [Retires, exec_bind, execBind, issue_admitted adm]
  simp [he, hi, hk, State.retX]

/-! The cases of `unbind` (R464). -/

/-- The tag that `unbind` names in a register (R464). -/
abbrev State.tagIn (s : State) (a : Reg) : Nat := bits (s.x a).toNat 0 16

theorem unbind_retires_zero_of_unbound (adm : Admitted (.unbind d p) s)
    (h : bits (s.x p).toNat 16 16 ≠ 0 ∨ (s.core s.cur).cx.bound (s.tagIn p) = none) :
    Retires (.unbind d p) s (s.setX d 0) := by
  rw [Retires, exec_unbind, execUnbind, issue_admitted adm]
  rcases h with h | h <;> simp [h, State.retX]

/-- The entry goes at once where no slot has a boundary still to come, else its clear is pending for those that have. -/
def Core.unbindAt (busy : List Nat) (i : Nat) (k : Core) : Core :=
  if busy = [] then { k with cx := { k.cx with binds := FMap.del k.cx.binds i } }
  else { k with cx := { k.cx with clearing := FMap.put k.cx.clearing i busy } }

theorem unbind_retires_index_of_bound {e : BitVec 128} (adm : Admitted (.unbind d p) s) (hz : bits (s.x p).toNat 16 16 = 0)
    (hb : (s.core s.cur).cx.bound (s.tagIn p) = some (i, e)) :
    Retires (.unbind d p) s
      (((s.modCore s.cur (Core.unbindAt ((s.core s.cur).busySlots s.cur (s.tagIn p)) i)).unpend s.cur
        (s.tagIn p)).setX d (BitVec.ofNat 32 (1 + i))) := by
  rw [Retires, exec_unbind, execUnbind, issue_admitted adm]
  by_cases h : (s.core s.cur).busySlots s.cur (s.tagIn p) = [] <;>
    simp [hz, hb, h, State.retX, State.modCore, Core.unbindAt]
end

end Sys2Proof.Machine

open Sys2Proof Sys2Proof.Machine

/-- Settles O30: each clause is a case of `bind` or `unbind`, with the three failures of R38 read off the keep-region check. -/
theorem bindingTableOperations : Obligations.BindingTableOperations := by
  intro s d p t i e w k refused tag busy put clear lo hi outside inRing inOther barred
  have keep : s.keepRefuses s.cur i w = true ↔ barred := keepRefuses_iff s s.cur i w
  refine ⟨bind_retires_zero_of_refused, fun adm hi hb => bind_retires_zero_of_keepRefuses adm hi (keep.mpr hb), ?_,
    unbind_retires_zero_of_unbound, unbind_retires_index_of_bound⟩
  intro adm hr hi hb
  have hk : s.keepRefuses s.cur i w = false := Bool.eq_false_iff.mpr (mt keep.mp hb)
  exact bind_retires_index_of_placed adm (Bool.eq_false_iff.mpr fun h => hr (.inl h)) hi hk
end

section
/-! PROOFS. The mask branches: whether `bkany`, `bkall` and `bknone` branch is read off the 32 bits of their mask (R60). -/

namespace Sys2Proof.Machine

/-! What a mask branch compares its mask with, bit by bit. -/

theorem word_eq_iff_bits_eq (v w : Word) : v = w ↔ ∀ i : Fin 32, v.getLsbD i = w.getLsbD i := by
  rw [BitVec.eq_of_getLsbD_eq_iff, Fin.forall_iff]

theorem word_eq_zero_iff_bits_clear (w : Word) : w = 0 ↔ ∀ i : Fin 32, w.getLsbD i = false := by
  simp only [word_eq_iff_bits_eq, BitVec.ofNat_eq_ofNat, BitVec.getLsbD_zero]

theorem word_eq_allOnes_iff_bits_set (w : Word) : w = BitVec.allOnes 32 ↔ ∀ i : Fin 32, w.getLsbD i = true := by
  simp only [word_eq_iff_bits_eq, BitVec.getLsbD_allOnes, Fin.is_lt, decide_true]

theorem word_ne_zero_iff_bit_set (w : Word) : w ≠ 0 ↔ ∃ i : Fin 32, w.getLsbD i = true := by
  simp only [ne_eq, word_eq_zero_iff_bits_clear, not_forall, Bool.not_eq_false]

theorem word_ne_allOnes_iff_bit_clear (w : Word) : w ≠ BitVec.allOnes 32 ↔ ∃ i : Fin 32, w.getLsbD i = false := by
  simp only [ne_eq, word_eq_allOnes_iff_bits_set, not_forall, Bool.not_eq_true]

/-! An instruction that branches on a test of the state (R382). -/

section
variable {i : Instr} {test : State → Bool} {o : BitVec 16} {s : State}

theorem branch_jumps_of_test (hx : exec i s = issue i (fun s => s.branch (test s) o) s) (adm : Admitted i s)
    (ht : test s = true) : Jumps i s (s.branchTo o) s := by
  rw [Jumps, hx, issue_admitted adm, ht, State.branch, if_pos rfl]

theorem branch_retires_of_not_test (hx : exec i s = issue i (fun s => s.branch (test s) o) s) (adm : Admitted i s)
    (ht : test s = false) : Retires i s s := by
  rw [Retires, hx, issue_admitted adm, ht, State.branch, if_neg Bool.false_ne_true]
end

/-! The three mask branches as the tests they make (R60). -/

theorem exec_bkany (k : BitVec 3) (o : BitVec 16) (s : State) :
    exec (.bkany k o) s = issue (.bkany k o) (fun s => s.branch (s.k k != 0) o) s := rfl

theorem exec_bkall (k : BitVec 3) (o : BitVec 16) (s : State) :
    exec (.bkall k o) s = issue (.bkall k o) (fun s => s.branch (s.k k == BitVec.allOnes 32) o) s := rfl

theorem exec_bknone (k : BitVec 3) (o : BitVec 16) (s : State) :
    exec (.bknone k o) s = issue (.bknone k o) (fun s => s.branch (s.k k == 0) o) s := rfl

end Sys2Proof.Machine

open Sys2Proof Sys2Proof.Machine

/-- Settles O6: each clause is one outcome of a branch, whose comparison of the whole mask is restated bit by bit. -/
theorem maskBranchTests : Obligations.MaskBranchTests := by
  intro s k o
  have zero := word_eq_zero_iff_bits_clear (s.k k)
  have nonzero := word_ne_zero_iff_bit_set (s.k k)
  have full := word_eq_allOnes_iff_bits_set (s.k k)
  have notFull := word_ne_allOnes_iff_bit_clear (s.k k)
  refine ⟨?anySet, ?anyClear, ?allSet, ?allClear, ?noneClear, ?noneSet⟩ <;> intro adm bits
  case anySet => exact branch_jumps_of_test (exec_bkany k o s) adm (bne_iff_ne.mpr (nonzero.mpr bits))
  case anyClear => exact branch_retires_of_not_test (exec_bkany k o s) adm (bne_eq_false_iff_eq.mpr (zero.mpr bits))
  case allSet => exact branch_jumps_of_test (exec_bkall k o s) adm (beq_iff_eq.mpr (full.mpr bits))
  case allClear => exact branch_retires_of_not_test (exec_bkall k o s) adm (beq_eq_false_iff_ne.mpr (notFull.mpr bits))
  case noneClear => exact branch_jumps_of_test (exec_bknone k o s) adm (beq_iff_eq.mpr (zero.mpr bits))
  case noneSet => exact branch_retires_of_not_test (exec_bknone k o s) adm (beq_eq_false_iff_ne.mpr (nonzero.mpr bits))
end

section
/-! PROOFS. The integer instructions with two source registers: what each writes to its destination, with the model's shift
amounts, comparisons, high products and fields in the terms of the spec (R367, R368, R421, R433). -/

namespace Sys2Proof.Machine

/-- An instruction whose meaning `m` writes a value to its destination, whatever registers it names, retires having written
it. -/
theorem retires_of_meaning {i : Instr} {s : State} {d a b : Reg} {f : State → Word} {v : Word}
    (m : Reg → Reg → Reg → State → Out) (hx : exec i s = m d a b s)
    (hm : m d a b s = issue i (fun s => s.retX d (f s)) s) (hv : f s = v) (adm : Admitted i s) :
    Retires i s (s.setX d v) := by
  rw [Retires, hx, hm, issue_admitted adm, State.retX, hv]

/-! Shift amounts, field widths and comparisons (R367, R368, R421, R433). -/

theorem bits_zero_five (v : Nat) : bits v 0 5 = v % 32 := by
  rw [bits, pow_zero, Nat.div_one]
  rfl

theorem bits_eight_six (v : Nat) : bits v 8 6 = v / 256 % 64 := rfl

theorem rotateLeft_eq_shifts (x : Word) (n : Nat) :
    x.rotateLeft (bits n 0 5) = (x <<< (n % 32)) ||| (x >>> (32 - n % 32)) := by
  rw [BitVec.rotateLeft_def, bits_zero_five, Nat.mod_mod]

theorem boolWord_decide (p : Prop) [Decidable p] : boolWord (decide p) = if p then 1 else 0 := by
  simp only [boolWord, decide_eq_true_eq]

/-! The quotient of a product by 2^32 that the model takes is the high word of the 64-bit product (R421). -/

theorem ofInt_mul_div_eq_high_signExtend_mul (x y : Word) :
    BitVec.ofInt 32 (x.toInt * y.toInt / 2 ^ 32) = (x.signExtend 64 * y.signExtend 64).extractLsb' 32 32 := by
  have product : x.signExtend 64 * y.signExtend 64 = BitVec.ofInt 64 (x.toInt * y.toInt) := (BitVec.ofInt_mul _ _).symm
  apply BitVec.eq_of_toNat_eq
  simp only [product, BitVec.extractLsb'_toNat, BitVec.toNat_ofInt, Nat.shiftRight_eq_div_pow]
  omega

theorem ofNat_mul_div_eq_high_setWidth_mul (x y : Word) :
    BitVec.ofNat 32 (x.toNat * y.toNat / 2 ^ 32) = (x.setWidth 64 * y.setWidth 64).extractLsb' 32 32 := by
  have product : x.setWidth 64 * y.setWidth 64 = BitVec.ofNat 64 (x.toNat * y.toNat) := by
    rw [BitVec.ofNat_mul, BitVec.ofNat_toNat, BitVec.ofNat_toNat]
  apply BitVec.eq_of_toNat_eq
  simp only [product, BitVec.extractLsb'_toNat, BitVec.toNat_ofNat, Nat.shiftRight_eq_div_pow]
  omega

/-! Fields (R368). -/

theorem fieldExtract_eq_shift_and (x c : Word) :
    fieldExtract x c = (x >>> (c.toNat % 32)) &&& BitVec.ofNat 32 (2 ^ min (c.toNat / 256 % 64) 32 - 1) :=
  calc fieldExtract x c
    _ = BitVec.ofNat 32 ((x >>> (c.toNat % 32)).toNat % 2 ^ min (c.toNat / 256 % 64) 32) := by
        rw [fieldExtract, bits_zero_five, bits_eight_six, bits, BitVec.toNat_ushiftRight, Nat.shiftRight_eq_div_pow]
    _ = (x >>> (c.toNat % 32)) &&& BitVec.ofNat 32 (2 ^ min (c.toNat / 256 % 64) 32 - 1) := by
        rw [← Nat.and_two_pow_sub_one_eq_mod, BitVec.ofNat_and, BitVec.ofNat_toNat, BitVec.setWidth_eq]

theorem fieldInsert_eq_mask (old x c : Word) :
    fieldInsert old x c =
      (old &&& ~~~BitVec.ofNat 32 ((2 ^ min (c.toNat / 256 % 64) 32 - 1) * 2 ^ (c.toNat % 32))) |||
        ((x <<< (c.toNat % 32)) &&& BitVec.ofNat 32 ((2 ^ min (c.toNat / 256 % 64) 32 - 1) * 2 ^ (c.toNat % 32))) := by
  rw [fieldInsert, bits_zero_five, bits_eight_six]

end Sys2Proof.Machine

open Sys2Proof Sys2Proof.Machine

/-- Settles O1: each instruction writes one word, and the model's word is the statement's, by the operation's lemma. -/
theorem integerRegisterResults : Obligations.IntegerRegisterResults := by
  intro s d a b x y n width
  simp only [List.forall_mem_cons]
  refine ⟨retires_of_meaning execAdd rfl rfl ?add, retires_of_meaning execSub rfl rfl ?sub,
    retires_of_meaning execAnd rfl rfl ?and, retires_of_meaning execOr rfl rfl ?or,
    retires_of_meaning execXor rfl rfl ?xor, retires_of_meaning execAndn rfl rfl ?andn,
    retires_of_meaning execSll rfl rfl ?sll, retires_of_meaning execSrl rfl rfl ?srl,
    retires_of_meaning execSra rfl rfl ?sra, retires_of_meaning execRol rfl rfl ?rol,
    retires_of_meaning execSlt rfl rfl ?slt, retires_of_meaning execSltu rfl rfl ?sltu,
    retires_of_meaning execMin rfl rfl ?min, retires_of_meaning execMax rfl rfl ?max,
    retires_of_meaning execMinu rfl rfl ?minu, retires_of_meaning execMaxu rfl rfl ?maxu,
    retires_of_meaning execMul rfl rfl ?mul, retires_of_meaning execMulh rfl rfl ?mulh,
    retires_of_meaning execMulhu rfl rfl ?mulhu, retires_of_meaning execBfx rfl rfl ?bfx,
    retires_of_meaning execBfi rfl rfl ?bfi, List.forall_mem_nil _⟩
  case add | sub | and | or | xor | andn | mul => rfl
  case sll | srl | sra => rw [bits_zero_five]
  case rol => exact rotateLeft_eq_shifts x y.toNat
  case slt | sltu => exact boolWord_decide _
  case min | max => exact if_congr BitVec.sle_iff_toInt_le rfl rfl
  case minu | maxu => exact if_congr BitVec.ule_iff_toNat_le rfl rfl
  case mulh => exact ofInt_mul_div_eq_high_signExtend_mul x y
  case mulhu => exact ofNat_mul_div_eq_high_setWidth_mul x y
  case bfx => exact fieldExtract_eq_shift_and x y
  case bfi => exact fieldInsert_eq_mask (s.x d) x y
end

section
/-! PROOFS. Vector conversion: the lanes that `vcvt` writes and the flags it raises, with the model's saturation as a clamp to
the integer format (R481, R482). -/

namespace Sys2Proof.Machine

/-! Saturation as a clamp (R155). -/

theorem IntFmt.lo_le_hi (f : IntFmt) : f.lo ≤ f.hi := by
  have narrow : (0 : Int) < 2 ^ (f.width - 1) := by positivity
  have wide : (0 : Int) < 2 ^ f.width := by positivity
  unfold IntFmt.lo IntFmt.hi
  split <;> omega

theorem satInt_eq_clamp (f : IntFmt) (v : Int) :
    satInt f v = (wrapTo (max f.lo (min f.hi v)) f.width, if f.lo ≤ v ∧ v ≤ f.hi then 0 else flagSAT) := by
  have range := f.lo_le_hi
  unfold satInt
  split
  next below =>
    have clamped : max f.lo (min f.hi v) = f.lo := by omega
    rw [clamped, if_neg (by omega)]
  next atLeast =>
    split
    next above =>
      have clamped : max f.lo (min f.hi v) = f.hi := by omega
      rw [clamped, if_neg (by omega)]
    next atMost =>
      have kept : max f.lo (min f.hi v) = v := by omega
      rw [kept, if_pos (by omega)]

/-! One conversion by the kinds of its two types (R482). -/

section
variable (mode : RoundMode) (wrap : Bool) (b : Nat)

theorem convert_to_float (src : Elem) (f : FloatFmt) :
    convert mode wrap src (.flt f) b = roundFloat f mode wrap (src.num b) := rfl

theorem convert_float_to_int (g : FloatFmt) (f : IntFmt) :
    convert mode wrap (.flt g) (.int f) b = toInt f mode wrap (Elem.num (.flt g) b) := rfl

theorem convert_int_to_int (g f : IntFmt) :
    convert mode wrap (.int g) (.int f) b =
      if wrap then (wrapTo (g.decode b) f.width, 0)
      else (wrapTo (max f.lo (min f.hi (g.decode b))) f.width,
        if f.lo ≤ g.decode b ∧ g.decode b ≤ f.hi then 0 else flagSAT) := by
  rw [← satInt_eq_clamp]
  rfl
end

/-! The vector operand rule (R468) and the flags of active lanes (R467). -/

/-- A vector instruction whose meaning retires with an effect retires with it where its bound operands are ready. -/
theorem vectorRetires_of_meaning {i : Instr} {srcs dsts : List Nat} {s t : State} {body : State → Res}
    (hx : exec i s = issue i (fun s => s.vector srcs dsts body) s) (hb : body s = .retire t) :
    VectorRetires i srcs dsts s t := by
  intro adm ready
  rw [Retires, hx, issue_admitted adm, State.vector, ready, hb]

/-- Gathering the flags of some entries in turn is the union of a list with no flag for the others. -/
theorem foldl_flags_eq_foldl_map (on : Nat → Bool) (fl : Nat → FlagSet) (l : List Nat) (a : FlagSet) :
    l.foldl (fun x i => if on i then x ||| fl i else x) a = (l.map fun i => if on i then fl i else 0).foldl (· ||| ·) a := by
  rw [List.foldl_map]
  congr 1
  funext x i
  split <;> simp

end Sys2Proof.Machine

open Sys2Proof Sys2Proof.Machine

/-- Settles O24: each converted lane is the statement's by the kinds of the two types, and the lanes and the flags are then
the model's, lane by lane. -/
theorem vectorConversion : Obligations.VectorConversion := by
  intro s d a q e k src dst n wrap num res on v
  have converted : res = fun i => convert s.effMode wrap src dst (lane (s.vsrc a.toNat) src.bytes i) := by
    funext i
    rcases hd : dst with f | f <;> rcases hs : src with g | g <;> simp only [res, num, hd, hs]
    case int.int => exact (convert_int_to_int _ _ _ g f).symm
    case int.flt => exact (convert_float_to_int _ _ _ g f).symm
    case flt.int | flt.flt => exact (convert_to_float _ _ _ _ f).symm
  refine vectorRetires_of_meaning rfl (congrArg Res.retire (congrArg₂ State.flag (congrArg _ (congrArg _ ?lanes)) ?flags))
  case lanes =>
    refine List.map_congr_left fun i _ => ?_
    rw [converted]
    by_cases low : i < n
    · rw [if_pos low]
      exact if_neg (Nat.not_le.mpr low)
    · rw [if_neg low]
      exact if_pos (Nat.not_lt.mp low)
  case flags =>
    rw [← foldl_flags_eq_foldl_map, converted]
    rfl
end

section
/-! PROOFS. Decoding and encoding agree (R342 to R357): the word of an instruction is put together from the fixed bits of a row and
from operands that lie apart, so each operand is read back from it; and no two rows of one opcode fit one word. -/

namespace Sys2Proof

/-! Rows of one opcode fit different words. -/

/-- The value that a row of the encoding tables fixes a bit at, if it fixes it. -/
def DecodeRow.fixedBit (r : DecodeRow) (b : Nat) : Option Bool :=
  (r.fixed.find? fun f => decide (f.1 ≤ b) && decide (b < f.1 + f.2.1)).map fun f => f.2.2.testBit (b - f.1)

/-- Two rows fix some bit at different values. -/
def DecodeRow.conflicts (r q : DecodeRow) : Bool :=
  (List.range 32).any fun b => (r.fixedBit b).isSome && (q.fixedBit b).isSome && r.fixedBit b != q.fixedBit b

theorem DecodeRow.fixedBit_eq_of_fits {r : DecodeRow} {w b : Nat} {v : Bool} (hw : r.fits w = true)
    (hb : r.fixedBit b = some v) : v = w.testBit b := by
  obtain ⟨f, hf, rfl⟩ := Option.map_eq_some_iff.mp hb
  have within : f.1 ≤ b ∧ b < f.1 + f.2.1 := by simpa using List.find?_some hf
  have field : wordField w f.1 f.2.1 = f.2.2 :=
    beq_iff_eq.mp (List.all_eq_true.mp hw f (List.mem_of_find?_eq_some hf))
  rw [← field, wordField, Nat.testBit_mod_two_pow, Nat.testBit_div_two_pow, Nat.sub_add_cancel within.1]
  simp; omega

theorem DecodeRow.not_fits_of_conflicts {r q : DecodeRow} {w : Nat} (h : r.conflicts q = true) (hr : r.fits w = true) :
    q.fits w = false := by
  by_contra hq
  rw [Bool.not_eq_false] at hq
  obtain ⟨b, -, hb⟩ := List.any_eq_true.mp h
  simp only [Bool.and_eq_true, Option.isSome_iff_exists, bne_iff_ne] at hb
  obtain ⟨⟨⟨x, hx⟩, y, hy⟩, ne⟩ := hb
  rw [hx, hy, fixedBit_eq_of_fits hr hx, fixedBit_eq_of_fits hq hy] at ne
  exact ne rfl

/-- Every two rows of a table conflict. -/
def rowsDisjoint : List DecodeRow → Bool
  | [] => true
  | r :: l => l.all (fun q => q.conflicts r) && rowsDisjoint l

theorem rowsOf_disjoint : ∀ op < 64, rowsDisjoint (rowsOf op) = true := by decide +kernel

theorem find?_fits_eq_of_mem {l : List DecodeRow} {r : DecodeRow} {w : Nat} (hl : rowsDisjoint l = true) (hr : r ∈ l)
    (hw : r.fits w = true) : l.find? (fun q => q.fits w) = some r := by
  induction l with
  | nil => cases hr
  | cons q l ih =>
    simp only [rowsDisjoint, Bool.and_eq_true, List.all_eq_true] at hl
    rcases List.mem_cons.mp hr with rfl | hr
    · simp [hw]
    · simp [DecodeRow.not_fits_of_conflicts (hl.1 r hr) hw, ih hl.2 hr]

theorem decode_eq_build {w : Word} {op : Nat} {r : DecodeRow} (hop : wordField w.toNat 26 6 = op) (hr : r ∈ rowsOf op)
    (hw : r.fits w.toNat = true) : decode w = some (r.build w.toNat) := by
  have small : op < 64 := hop ▸ Nat.mod_lt _ (by decide)
  rw [decode, hop, find?_fits_eq_of_mem (rowsOf_disjoint op small) hr hw, Option.map_some]

/-! Fields of a word. -/

theorem toNat_wordBits (w lo n : Nat) : (wordBits w lo n).toNat = wordField w lo n := by
  rw [wordBits, BitVec.toNat_ofNat, wordField, Nat.mod_mod]

theorem testBit_wordField (w lo n b : Nat) : (wordField w lo n).testBit b = (decide (b < n) && w.testBit (lo + b)) := by
  rw [wordField, Nat.testBit_mod_two_pow, Nat.testBit_div_two_pow, Nat.add_comm b lo]

/-! Words as the encoder puts them together. -/

/-- An operand of a word: the power of two it is multiplied by, its width and its value. -/
structure Operand where
  scale : Nat
  width : Nat
  value : Nat

/-- The scale and the width of an operand. -/
abbrev Operand.shape (f : Operand) : Nat × Nat := (f.scale, f.width)

/-- A sum of fixed bits `c` and of operands of given shapes, as the encoder forms it. -/
inductive Assembled (c : Nat) : List Operand → List (Nat × Nat) → Nat → Prop
  | fixed : Assembled c [] [] c
  | field {l g n w} (v : BitVec w) (k : Nat) :
      Assembled c l g n → Assembled c (⟨k, w, v.toNat⟩ :: l) ((k, w) :: g) (n + v.toNat * k)
  | low {l g n w} (v : BitVec w) : Assembled c l g n → Assembled c (⟨1, w, v.toNat⟩ :: l) ((1, w) :: g) (n + v.toNat)

theorem Assembled.shapes_eq {c n : Nat} {l : List Operand} {g : List (Nat × Nat)} (h : Assembled c l g n) :
    g = l.map Operand.shape := by
  induction h with
  | fixed => rfl
  | field v k _ ih | low v _ ih => rw [ih]; rfl

/-- A shape covers a bit. -/
def covers (f : Nat × Nat) (b : Nat) : Bool := decide (f.1.log2 ≤ b) && decide (b < f.1.log2 + f.2)

/-- No shape covers any of the `w` bits from `lo` upward, all within the word. -/
def clearBits (g : List (Nat × Nat)) (lo w : Nat) : Bool :=
  decide (lo + w ≤ 32) && (List.range w).all fun b => g.all (!covers · (lo + b))

/-- Each operand is multiplied by a power of two and lies where neither fixed bits that are set nor the operands before it do. -/
def layoutOk (c : Nat) : List (Nat × Nat) → Bool
  | [] => true
  | f :: g => f.1 == 2 ^ f.1.log2 && clearBits g f.1.log2 f.2 && ((List.range f.2).all fun b => !c.testBit (f.1.log2 + b)) &&
      layoutOk c g

/-- The bit of the word that the fixed bits and the operands make up. -/
def bitAt (c : Nat) (l : List Operand) (b : Nat) : Bool :=
  match l.find? (fun f => covers f.shape b) with
  | some f => f.value.testBit (b - f.scale.log2)
  | none => c.testBit b

theorem clearBits_iff {l : List Operand} {lo w : Nat} :
    clearBits (l.map Operand.shape) lo w = true ↔
      lo + w ≤ 32 ∧ ∀ b < w, ∀ f ∈ l, covers f.shape (lo + b) = false := by
  simp [clearBits]

theorem bitAt_of_uncovered {c b : Nat} {l : List Operand} (h : ∀ f ∈ l, covers f.shape b = false) :
    bitAt c l b = c.testBit b := by
  have none : l.find? (fun f => covers f.shape b) = none := by simpa using h
  rw [bitAt, none]

theorem layoutOk_cons {c : Nat} {f : Operand} {l : List Operand} (h : layoutOk c ((f :: l).map Operand.shape) = true) :
    f.scale = 2 ^ f.scale.log2 ∧ f.scale.log2 + f.width ≤ 32 ∧
      (∀ b < f.width, ∀ q ∈ l, covers q.shape (f.scale.log2 + b) = false) ∧
      (∀ b < f.width, c.testBit (f.scale.log2 + b) = false) ∧ layoutOk c (l.map Operand.shape) = true := by
  simpa only [List.map_cons, layoutOk, Bool.and_eq_true, beq_iff_eq, clearBits_iff, List.all_eq_true, List.mem_range,
    Bool.not_eq_true', and_assoc] using h

theorem covers_of_inside {f : Operand} {b : Nat} (h : f.scale.log2 ≤ b ∧ b < f.scale.log2 + f.width) :
    covers f.shape b = true := by
  simp [covers, h]

theorem not_covers_of_outside {f : Operand} {b : Nat} (h : ¬(f.scale.log2 ≤ b ∧ b < f.scale.log2 + f.width)) :
    covers f.shape b = false := by
  simpa [covers] using h

theorem getLsbD_addField {n lo w v b : Nat} (hv : v < 2 ^ w)
    (clear : ∀ j < w, (BitVec.ofNat 32 n).getLsbD (lo + j) = false) (hb : b < 32) :
    (BitVec.ofNat 32 (n + v * 2 ^ lo)).getLsbD b =
      if lo ≤ b ∧ b < lo + w then v.testBit (b - lo) else (BitVec.ofNat 32 n).getLsbD b := by
  have shifted (j : Nat) : (v * 2 ^ lo).testBit j = (decide (lo ≤ j) && v.testBit (j - lo)) := by
    rw [Nat.mul_comm, Nat.testBit_two_pow_mul]
  have high {j : Nat} (hj : w ≤ j) : v.testBit j = false :=
    Nat.testBit_eq_false_of_lt (hv.trans_le (Nat.pow_le_pow_right (by decide) hj))
  have clear' {j : Nat} (hlo : lo ≤ j) (hw : j < lo + w) : (BitVec.ofNat 32 n).getLsbD j = false := by
    rw [← Nat.add_sub_cancel' hlo]
    exact clear (j - lo) (by omega)
  have apart : BitVec.ofNat 32 n &&& BitVec.ofNat 32 (v * 2 ^ lo) = 0 := by
    apply BitVec.eq_of_getLsbD_eq
    intro j hj
    rw [BitVec.getLsbD_and, BitVec.getLsbD_ofNat (x := v * 2 ^ lo), shifted, BitVec.ofNat_eq_ofNat, BitVec.getLsbD_zero]
    by_cases hlo : lo ≤ j
    · by_cases hw : j < lo + w
      · rw [clear' hlo hw, Bool.false_and]
      · rw [high (by omega), Bool.and_false, Bool.and_false, Bool.and_false]
    · simp only [hlo, decide_false, Bool.false_and, Bool.and_false]
  rw [BitVec.ofNat_add, BitVec.add_eq_or_of_and_eq_zero _ _ apart, BitVec.getLsbD_or,
    BitVec.getLsbD_ofNat (x := v * 2 ^ lo), shifted]
  by_cases hlo : lo ≤ b
  · by_cases hw : b < lo + w
    · rw [clear' hlo hw, if_pos ⟨hlo, hw⟩]
      simp [hlo, hb]
    · rw [high (by omega), if_neg (fun h => hw h.2), Bool.and_false, Bool.and_false, Bool.or_false]
  · rw [if_neg (fun h => hlo h.1)]
    simp only [hlo, decide_false, Bool.false_and, Bool.and_false, Bool.or_false]

theorem getLsbD_addOperand {c n b : Nat} {f : Operand} {l : List Operand} (small : f.value < 2 ^ f.width)
    (ok : layoutOk c ((f :: l).map Operand.shape) = true)
    (ih : layoutOk c (l.map Operand.shape) = true → ∀ b < 32, (BitVec.ofNat 32 n).getLsbD b = bitAt c l b) (hb : b < 32) :
    (BitVec.ofNat 32 (n + f.value * f.scale)).getLsbD b = bitAt c (f :: l) b := by
  obtain ⟨power, -, apart, unset, ok⟩ := layoutOk_cons ok
  have clear (j : Nat) (hj : j < f.width) : (BitVec.ofNat 32 n).getLsbD (f.scale.log2 + j) = false := by
    by_cases hb : f.scale.log2 + j < 32
    · rw [ih ok _ hb, bitAt_of_uncovered (apart j hj), unset j hj]
    · exact BitVec.getLsbD_of_ge _ _ (Nat.not_lt.mp hb)
  rw [power, getLsbD_addField small clear hb, bitAt, List.find?_cons]
  by_cases inside : f.scale.log2 ≤ b ∧ b < f.scale.log2 + f.width
  · rw [if_pos inside, covers_of_inside inside]
  · rw [if_neg inside, ih ok b hb, not_covers_of_outside inside]
    rfl

theorem Assembled.testBit {c n : Nat} {l : List Operand} {g : List (Nat × Nat)} (h : Assembled c l g n)
    (ok : layoutOk c g = true) : ∀ b < 32, (BitVec.ofNat 32 n).toNat.testBit b = bitAt c l b := by
  rw [h.shapes_eq] at ok
  simp only [BitVec.testBit_toNat]
  induction h with
  | fixed => intro b hb; rw [BitVec.getLsbD_ofNat, decide_eq_true hb]; rfl
  | field v k _ ih => exact fun b hb => getLsbD_addOperand (f := ⟨k, _, v.toNat⟩) v.isLt ok ih hb
  | @low _ _ n _ v _ ih =>
    intro b hb
    rw [show n + v.toNat = n + v.toNat * 1 by rw [Nat.mul_one]]
    exact getLsbD_addOperand (f := ⟨1, _, v.toNat⟩) v.isLt ok ih hb

/-- An operand lies within the word, and its bits stand there. -/
theorem bitAt_of_operand {c : Nat} {l : List Operand} {f : Operand} (ok : layoutOk c (l.map Operand.shape) = true)
    (hf : f ∈ l) : f.scale = 2 ^ f.scale.log2 ∧ f.scale.log2 + f.width ≤ 32 ∧
      ∀ b < f.width, bitAt c l (f.scale.log2 + b) = f.value.testBit b := by
  induction l with
  | nil => cases hf
  | cons g l ih =>
    obtain ⟨power, top, apart, -, ok⟩ := layoutOk_cons ok
    have inside (b : Nat) (hb : b < f.width) : covers f.shape (f.scale.log2 + b) = true := covers_of_inside (by omega)
    rcases List.mem_cons.mp hf with rfl | hf
    · refine ⟨power, top, fun b hb => ?_⟩
      rw [bitAt, List.find?_cons, inside b hb]
      exact congrArg f.value.testBit (Nat.add_sub_cancel_left _ _)
    · obtain ⟨power, top, bits⟩ := ih ok hf
      refine ⟨power, top, fun b hb => ?_⟩
      have outside : covers g.shape (f.scale.log2 + b) = false := by
        refine not_covers_of_outside fun within => ?_
        have := apart (f.scale.log2 + b - g.scale.log2) (by omega) f hf
        rw [Nat.add_sub_cancel' within.1, inside b hb] at this
        cases this
      rw [bitAt, List.find?_cons, outside, ← bits b hb]
      rfl

section
variable {c n lo w : Nat} {l : List Operand} {g : List (Nat × Nat)} (h : Assembled c l g n) (ok : layoutOk c g = true)
include h ok

/-- An operand is read back from its word. -/
theorem Assembled.wordBits_eq {v : BitVec w} (hv : ⟨2 ^ lo, w, v.toNat⟩ ∈ l) :
    wordBits (BitVec.ofNat 32 n).toNat lo w = v := by
  apply BitVec.eq_of_getLsbD_eq
  intro b hb
  obtain ⟨-, top, bit⟩ := bitAt_of_operand (h.shapes_eq ▸ ok) hv
  simp only [Nat.log2_two_pow] at top bit
  rw [← BitVec.testBit_toNat, toNat_wordBits, testBit_wordField, h.testBit ok _ (by omega), bit b hb, decide_eq_true hb,
    Bool.true_and, BitVec.testBit_toNat]

/-- Where no operand lies, a field of the word is that of the fixed bits. -/
theorem Assembled.wordField_eq (clear : clearBits g lo w = true) :
    wordField (BitVec.ofNat 32 n).toNat lo w = wordField c lo w := by
  rw [h.shapes_eq, clearBits_iff] at clear
  apply Nat.eq_of_testBit_eq
  intro b
  rw [testBit_wordField, testBit_wordField]
  by_cases hb : b < w
  · rw [h.testBit ok _ (by omega), bitAt_of_uncovered (clear.2 b hb)]
  · simp only [hb, decide_false, Bool.false_and]
end

/-- The opcode and the fixed fields of a row lie where no operand does. -/
def DecodeRow.leaves (fixed : List (Nat × Nat × Nat)) (g : List (Nat × Nat)) : Bool :=
  clearBits g 26 6 && fixed.all fun f => clearBits g f.1 f.2.1

/-- An instruction whose word is made up of the fixed bits of a row and of operands decodes to what the row builds. -/
theorem decode_encode_of_row {i : Instr} {c n : Nat} {l : List Operand} {g : List (Nat × Nat)} {r : DecodeRow}
    (he : encode i = BitVec.ofNat 32 n) (h : Assembled c l g n)
    (hr : (rowsOf (wordField c 26 6)).find? (fun q => q.fits c) = some r)
    (ok : (layoutOk c g && DecodeRow.leaves r.fixed g) = true)
    (hb : (∀ lo w (v : BitVec w), ⟨2 ^ lo, w, v.toNat⟩ ∈ l → wordBits (BitVec.ofNat 32 n).toNat lo w = v) →
      r.build (BitVec.ofNat 32 n).toNat = i) : decode (encode i) = some i := by
  simp only [Bool.and_eq_true, DecodeRow.leaves] at ok
  obtain ⟨ok, top, clear⟩ := ok
  have fits : r.fits (BitVec.ofNat 32 n).toNat = true := by
    have fixed := List.find?_some hr
    rw [DecodeRow.fits, List.all_eq_true] at fixed ⊢
    intro f hf
    rw [h.wordField_eq ok (List.all_eq_true.mp clear f hf)]
    exact fixed f hf
  rw [he, decode_eq_build (h.wordField_eq ok top) (List.mem_of_find?_eq_some hr) fits,
    hb fun _ _ _ => h.wordBits_eq ok]


/-! From the word to the instruction and back. -/

open Machine

/-- What a row decodes is an instruction whose word is the word it was decoded from. -/
def DecodeRow.Agrees (r : DecodeRow) : Prop :=
  ∀ w : Word, r.fits w.toNat = true → encode (r.build w.toNat) = w ∧ groupOf (r.build w.toNat) ≠ .event

/-- Every bit is a row's own, with the value that the fixed bits have, or an operand's. -/
def DecodeRow.fills (r : DecodeRow) (c : Nat) (g : List (Nat × Nat)) : Bool :=
  (List.range 32).all fun b => if g.any (covers · b) then true else r.fixedBit b == some (c.testBit b)

theorem bitAt_of_covered {c b w : Nat} {l : List Operand} (ok : layoutOk c (l.map Operand.shape) = true)
    (h : (l.map Operand.shape).any (covers · b) = true) (hv : ∀ f ∈ l, f.value = w / f.scale % 2 ^ f.width) :
    bitAt c l b = w.testBit b := by
  obtain ⟨f, hf, inside⟩ : ∃ f ∈ l, covers f.shape b = true := by simpa using h
  simp only [covers, Bool.and_eq_true, decide_eq_true_eq] at inside
  obtain ⟨power, -, bits⟩ := bitAt_of_operand ok hf
  have width : b - f.scale.log2 < f.width := by omega
  have value : f.value = wordField w f.scale.log2 f.width := by rw [hv f hf, wordField, ← power]
  rw [← Nat.add_sub_cancel' inside.1, bits _ width, value, testBit_wordField, decide_eq_true width, Bool.true_and]

/-- A word that fits a row, all of whose bits are fixed by the row or an operand's, is the word put together again. -/
theorem encode_build_eq {r : DecodeRow} {w : Word} {c n : Nat} {l : List Operand} {g : List (Nat × Nat)}
    (hw : r.fits w.toNat = true) (he : encode (r.build w.toNat) = BitVec.ofNat 32 n) (h : Assembled c l g n)
    (ok : (layoutOk c g && r.fills c g) = true) (hv : ∀ f ∈ l, f.value = w.toNat / f.scale % 2 ^ f.width) :
    encode (r.build w.toNat) = w := by
  simp only [Bool.and_eq_true, DecodeRow.fills, List.all_eq_true, List.mem_range] at ok
  obtain ⟨ok, fills⟩ := ok
  rw [he]
  apply BitVec.eq_of_getLsbD_eq
  intro b hb
  rw [← BitVec.testBit_toNat, ← BitVec.testBit_toNat, h.testBit ok b hb]
  have filled := fills b hb
  split at filled
  next covered => exact bitAt_of_covered (h.shapes_eq ▸ ok) (h.shapes_eq ▸ covered) hv
  next uncovered =>
    rw [← DecodeRow.fixedBit_eq_of_fits hw (beq_iff_eq.mp filled)]
    apply bitAt_of_uncovered
    simpa [h.shapes_eq] using uncovered

/-! Every row of the tables, opcode by opcode. -/

theorem rowsOf_agree_scalar {op : Nat} (_ : op < 32) : ∀ r ∈ rowsOf op, r.Agrees := by
  interval_cases op
  all_goals
    repeat refine List.forall_mem_cons.mpr ⟨fun w hw => ⟨encode_build_eq hw rfl
      (by repeat (first | apply Assembled.field | apply Assembled.low)
          exact .fixed) (by decide +kernel) (by simp [toNat_wordBits, wordField]), nofun⟩, ?_⟩
    exact List.forall_mem_nil _

theorem rowsOf_agree_memory {op : Nat} (_ : 32 ≤ op) (_ : op < 48) : ∀ r ∈ rowsOf op, r.Agrees := by
  interval_cases op
  all_goals
    repeat refine List.forall_mem_cons.mpr ⟨fun w hw => ⟨encode_build_eq hw rfl
      (by repeat (first | apply Assembled.field | apply Assembled.low)
          exact .fixed) (by decide +kernel) (by simp [toNat_wordBits, wordField]), nofun⟩, ?_⟩
    exact List.forall_mem_nil _

theorem rowsOf_agree_vector {op : Nat} (_ : 48 ≤ op) (_ : op < 56) : ∀ r ∈ rowsOf op, r.Agrees := by
  interval_cases op
  all_goals
    repeat refine List.forall_mem_cons.mpr ⟨fun w hw => ⟨encode_build_eq hw rfl
      (by repeat (first | apply Assembled.field | apply Assembled.low)
          exact .fixed) (by decide +kernel) (by simp [toNat_wordBits, wordField]), nofun⟩, ?_⟩
    exact List.forall_mem_nil _

theorem rowsOf_agree_engine {op : Nat} (_ : 56 ≤ op) (_ : op < 64) : ∀ r ∈ rowsOf op, r.Agrees := by
  interval_cases op
  all_goals
    repeat refine List.forall_mem_cons.mpr ⟨fun w hw => ⟨encode_build_eq hw rfl
      (by repeat (first | apply Assembled.field | apply Assembled.low)
          exact .fixed) (by decide +kernel) (by simp [toNat_wordBits, wordField]), nofun⟩, ?_⟩
    exact List.forall_mem_nil _

theorem rowsOf_agree {op : Nat} (h : op < 64) : ∀ r ∈ rowsOf op, r.Agrees := by
  rcases Nat.lt_or_ge op 32 with scalar | high
  · exact rowsOf_agree_scalar scalar
  rcases Nat.lt_or_ge op 48 with memory | high
  · exact rowsOf_agree_memory ‹_› memory
  rcases Nat.lt_or_ge op 56 with vector | high
  · exact rowsOf_agree_vector ‹_› vector
  · exact rowsOf_agree_engine high h

/-- A word that decodes is the word of the instruction it decodes to. -/
theorem encode_of_decode {w : Word} {i : Instr} (h : decode w = some i) : encode i = w ∧ groupOf i ≠ .event := by
  obtain ⟨r, hr, rfl⟩ := Option.map_eq_some_iff.mp h
  exact rowsOf_agree (Nat.mod_lt _ (by decide)) r (List.mem_of_find?_eq_some hr) w (List.find?_some (p := fun q : DecodeRow => q.fits w.toNat) hr)

/-! Every instruction, by its group. -/

theorem decode_encode_scalar {i : Instr} (h : groupOf i = .scalar) : decode (encode i) = some i := by
  cases i <;> cases h
  all_goals
    refine decode_encode_of_row rfl (by repeat (first | apply Assembled.field | apply Assembled.low)
                                        exact .fixed) rfl (by decide +kernel) fun operand => ?_
    dsimp only
    congr 1 <;> exact operand _ _ _ (by simp)

theorem decode_encode_vector {i : Instr} (h : groupOf i = .vector) : decode (encode i) = some i := by
  cases i <;> cases h
  all_goals
    refine decode_encode_of_row rfl (by repeat (first | apply Assembled.field | apply Assembled.low)
                                        exact .fixed) rfl (by decide +kernel) fun operand => ?_
    dsimp only
    congr 1 <;> exact operand _ _ _ (by simp)

/-- The groups of the instructions on shared memory, gangs and futures. -/
def isShared : Group → Bool
  | .atomic | .gangSync | .future => true
  | _ => false

/-- The groups of the instructions of the engines, messages and bindings. -/
def isEngine : Group → Bool
  | .mover | .matrix | .ring | .counter | .message | .binding => true
  | _ => false

/-- The groups of the instructions of the device's other units and of the system. -/
def isUnit : Group → Bool
  | .mailbox | .time | .timer | .window | .gust | .gustQuery | .post | .claim | .line | .launch | .system | .privileged
  | .tlb => true
  | _ => false

theorem decode_encode_shared {i : Instr} (h : isShared (groupOf i) = true) : decode (encode i) = some i := by
  cases i <;> cases h
  all_goals
    refine decode_encode_of_row rfl (by repeat (first | apply Assembled.field | apply Assembled.low)
                                        exact .fixed) rfl (by decide +kernel) fun operand => ?_
    dsimp only <;> congr 1 <;> exact operand _ _ _ (by simp)

theorem decode_encode_engine {i : Instr} (h : isEngine (groupOf i) = true) : decode (encode i) = some i := by
  cases i <;> cases h
  all_goals
    refine decode_encode_of_row rfl (by repeat (first | apply Assembled.field | apply Assembled.low)
                                        exact .fixed) rfl (by decide +kernel) fun operand => ?_
    dsimp only <;> congr 1 <;> exact operand _ _ _ (by simp)

theorem decode_encode_unit {i : Instr} (h : isUnit (groupOf i) = true) : decode (encode i) = some i := by
  cases i <;> cases h
  all_goals
    refine decode_encode_of_row rfl (by repeat (first | apply Assembled.field | apply Assembled.low)
                                        exact .fixed) rfl (by decide +kernel) fun operand => ?_
    dsimp only <;> congr 1 <;> exact operand _ _ _ (by simp)

/-- Decoding undoes encoding. -/
theorem decode_encode {i : Instr} (h : groupOf i ≠ .event) : decode (encode i) = some i := by
  cases hg : groupOf i
  case event => exact absurd hg h
  case scalar => exact decode_encode_scalar hg
  case vector => exact decode_encode_vector hg
  case atomic | gangSync | future => exact decode_encode_shared (by rw [hg]; rfl)
  case mover | matrix | ring | counter | message | binding => exact decode_encode_engine (by rw [hg]; rfl)
  all_goals exact decode_encode_unit (by rw [hg]; rfl)

/-! The bytes of a word. -/

theorem wordOfBytes_wordBytes (w : Word) : wordOfBytes (wordBytes w) = w := by
  apply BitVec.eq_of_toNat_eq
  simp only [wordOfBytes, wordBytes, List.getD_cons_zero, List.getD_cons_succ, BitVec.toNat_ofNat, BitVec.extractLsb'_toNat,
    Nat.shiftRight_eq_div_pow]
  omega

theorem decodeBytes_wordBytes (w : Word) : decodeBytes (wordBytes w) = (decode w).map fun i => (i, []) := by
  rw [decodeBytes, wordOfBytes_wordBytes]
  rfl

theorem decodeTableWord_toNat (w : Word) : decodeTableWord 32 w.toNat = decode w := by
  rw [decodeTableWord, Nat.mod_eq_of_lt w.isLt, BitVec.ofNat_toNat, BitVec.setWidth_eq, decodeBytes_wordBytes, Option.map_map]
  exact Option.map_id'

end Sys2Proof

open Sys2Proof Sys2Proof.Machine

/-- Settles O49: a row's fixed bits and its operands make up the whole word, so what it builds is read back from the word and
the word is put together again; rows of one opcode differ in a fixed bit, so the decoder finds that row. -/
theorem decodeAndEncodeAgree : Obligations.DecodeAndEncodeAgree := by
  refine ⟨fun i hi => ?_, fun w i => encode_of_decode⟩
  have back := decode_encode hi
  refine ⟨back, ?_, ?_⟩
  · rw [decodeBytes_wordBytes, back]
    rfl
  · rw [decodeTableWord_toNat, back]
end
section
/-! PROOFS. Division and remainder, signed and unsigned, with the zero divisor and the quotient that overflows (R369, R434). -/

namespace Sys2Proof.Machine

/-- The one quotient that overflows: the least number by -1 (R369). -/
abbrev DivOverflows (x y : Word) : Prop := x = 0x80000000 ∧ y = BitVec.allOnes 32

/-! Quotient and remainder of the library, as words of the integers' quotient and remainder toward zero. -/

theorem sdiv_eq_ofInt_tdiv (x y : Word) : x.sdiv y = BitVec.ofInt 32 (x.toInt.tdiv y.toInt) := by
  apply BitVec.eq_of_toInt_eq
  rw [BitVec.toInt_sdiv, BitVec.toInt_ofInt]

theorem srem_eq_ofInt_tmod (x y : Word) : x.srem y = BitVec.ofInt 32 (x.toInt.tmod y.toInt) := by
  rw [← BitVec.toInt_srem, BitVec.ofInt_toInt]

theorem sdiv_mul_add_srem (x y : Word) : x.sdiv y * y + x.srem y = x :=
  calc x.sdiv y * y + x.srem y
    _ = BitVec.ofInt 32 (x.toInt.tdiv y.toInt) * BitVec.ofInt 32 y.toInt + BitVec.ofInt 32 (x.toInt.tmod y.toInt) := by
        rw [sdiv_eq_ofInt_tdiv, srem_eq_ofInt_tmod, BitVec.ofInt_toInt]
    _ = BitVec.ofInt 32 (x.toInt.tdiv y.toInt * y.toInt + x.toInt.tmod y.toInt) := by
        rw [BitVec.ofInt_add, BitVec.ofInt_mul]
    _ = x := by rw [Int.tdiv_mul_add_tmod, BitVec.ofInt_toInt]

theorem sdiv_of_overflows {x y : Word} (h : DivOverflows x y) : x.sdiv y = 0x80000000 := by
  rw [h.1, h.2]
  decide

theorem srem_of_overflows {x y : Word} (h : DivOverflows x y) : x.srem y = 0 := by
  rw [h.1, h.2]
  decide

/-! The model's quotients and remainders. -/

theorem divWord_eq (x y : Word) : divWord x y = if y = 0 then BitVec.allOnes 32 else x.sdiv y := by
  unfold divWord
  refine if_congr Iff.rfl rfl ?_
  split
  next overflow => exact (sdiv_of_overflows overflow).symm
  next fits => exact (sdiv_eq_ofInt_tdiv x y).symm

theorem remWord_eq (x y : Word) : remWord x y = x.srem y := by
  unfold remWord
  split
  next zero => rw [zero]; exact BitVec.srem_zero.symm
  next nonzero =>
    split
    next overflow => exact (srem_of_overflows overflow).symm
    next fits => rw [srem_eq_ofInt_tmod, Int.tmod_def, Int.mul_comm]

theorem remuWord_eq (x y : Word) : remuWord x y = BitVec.ofNat 32 (x.toNat % y.toNat) := by
  unfold remuWord
  split
  next zero => rw [zero, BitVec.ofNat_eq_ofNat, BitVec.toNat_ofNat, Nat.zero_mod, Nat.mod_zero, BitVec.ofNat_toNat, BitVec.setWidth_eq]
  next nonzero => rfl

theorem divWord_mul_add_remWord (x y : Word) : divWord x y * y + remWord x y = x := by
  rw [divWord_eq, remWord_eq]
  split
  next zero => simp [zero]
  next nonzero => exact sdiv_mul_add_srem x y

theorem divuWord_mul_add_remuWord (x y : Word) : divuWord x y * y + remuWord x y = x := by
  rw [remuWord_eq, divuWord]
  split
  next zero => simp [zero]
  next nonzero =>
    have word (z : Word) : BitVec.ofNat 32 z.toNat = z := by rw [BitVec.ofNat_toNat, BitVec.setWidth_eq]
    rw [← congrArg (BitVec.ofNat 32 _ * ·) (word y), ← BitVec.ofNat_mul, ← BitVec.ofNat_add, Nat.div_add_mod']
    exact word x

end Sys2Proof.Machine

open Sys2Proof Sys2Proof.Machine

/-- Settles O2: the model's quotients and remainders are the library's, of which the division identity holds on the integers. -/
theorem divisionResults : Obligations.DivisionResults := by
  refine ⟨?_, fun x y => ⟨divWord_mul_add_remWord x y, divuWord_mul_add_remuWord x y⟩⟩
  intro s d a b x y
  simp only [List.forall_mem_cons]
  exact ⟨retires_of_meaning execDiv rfl rfl (divWord_eq x y), retires_of_meaning execRem rfl rfl (remWord_eq x y),
    retires_of_meaning execDivu rfl rfl rfl, retires_of_meaning execRemu rfl rfl (remuWord_eq x y), List.forall_mem_nil _⟩
end
section
/-! PROOFS. The integer instructions with one source register or an immediate: bit counts, extensions, and the immediate under a
prefix (R73, R345, R367, R433). -/

namespace Sys2Proof.Machine

/-! An instruction whose checks pass answers what its meaning answers. -/

section
variable {i : Instr} {s t : State} {body : State → Res} (m : State → Out)

theorem exec_of_meaning (hx : exec i s = m s) (hm : m s = issue i body s) (adm : Admitted i s) :
    exec i s = .next (s.finish (body s)) := by
  rw [hx, hm, issue_admitted adm]

theorem retires_of_body (hx : exec i s = m s) (hm : m s = issue i body s) (hb : body s = .retire t) (adm : Admitted i s) :
    Retires i s t := by
  rw [Retires, exec_of_meaning m hx hm adm, hb]

theorem writes_of_meaning {d : Reg} {f : State → Word} {v : Word} (hx : exec i s = m s)
    (hm : m s = issue i (fun s => s.retX d (f s)) s) (hv : f s = v) (adm : Admitted i s) : Retires i s (s.setX d v) :=
  retires_of_body m hx hm (congrArg (s.retX d) hv) adm
end

/-! Bit counts (R367, R433). -/

theorem bit_eq_testBit (v i : Nat) : bit v i = v.testBit i := by
  rw [bit, bits, Nat.testBit_eq_decide_div_mod_eq, pow_one]
  rfl

theorem ofNat_leadingZeros (x : Word) : BitVec.ofNat 32 (leadingZeros x) = x.clz := by
  unfold leadingZeros
  split
  next zero => exact (BitVec.clz_eq_iff_eq_zero.mpr zero).symm
  next nonzero =>
    have few : x.clz.toNat < 32 := BitVec.clz_lt_iff_ne_zero.mpr nonzero
    have low := BitVec.two_pow_sub_clz_le_toNat_of_ne_zero (by decide) nonzero
    have high := BitVec.toNat_lt_two_pow_sub_clz (x := x)
    have top : x.toNat.log2 = 31 - x.clz.toNat := by
      refine (Nat.log2_eq_iff (mt (fun h => BitVec.eq_of_toNat_eq (y := 0) h) nonzero)).mpr ⟨low, ?_⟩
      rwa [show 31 - x.clz.toNat + 1 = 32 - x.clz.toNat by omega]
    have count : 31 - (31 - x.clz.toNat) = x.clz.toNat := by omega
    rw [top, count, BitVec.ofNat_toNat, BitVec.setWidth_eq]

theorem ofNat_trailingZeros (x : Word) : BitVec.ofNat 32 (trailingZeros x) = x.ctz := by
  by_cases zero : x = 0
  · subst zero
    decide +kernel
  · have few : x.ctz.toNat < 32 := BitVec.ctz_lt_iff_ne_zero.mpr zero
    have first : (List.range 32).find? (fun i => x.getLsbD i) = some x.ctz.toNat :=
      List.find?_range_eq_some.mpr ⟨BitVec.getLsbD_true_ctz_of_ne_zero zero, List.mem_range.mpr few, fun i hi => by
        rw [BitVec.getLsbD_false_of_lt_ctz hi]; rfl⟩
    rw [trailingZeros, first, Option.getD_some, BitVec.ofNat_toNat, BitVec.setWidth_eq]

theorem onesCount_eq_cpopNatRec (x : Word) (n : Nat) : onesCount x.toNat n = x.cpopNatRec n 0 := by
  induction n with
  | zero => rfl
  | succ n ih =>
    have last : (List.filter (fun i => bit x.toNat i) [n]).length = (x.getLsbD n).toNat := by
      rw [List.filter_cons, bit_eq_testBit, BitVec.testBit_toNat]
      cases x.getLsbD n <;> rfl
    rw [BitVec.cpopNatRec_succ, BitVec.cpopNatRec_add, ← ih, onesCount, onesCount, List.range_succ, List.filter_append,
      List.length_append, last]

theorem ofNat_onesCount (x : Word) : BitVec.ofNat 32 (onesCount x.toNat 32) = x.cpop := by
  rw [onesCount_eq_cpopNatRec, ← BitVec.toNat_cpop, BitVec.ofNat_toNat, BitVec.setWidth_eq]

/-! Immediates (R73, R345). -/

/-- The 32-bit immediate that a prefix of KIND 00 widens a 16-bit one to. -/
abbrev State.widened (s : State) (i : BitVec 16) : Option Word :=
  s.th.pfx.bind fun p => if p.extractLsb' 24 2 = 0 then some (p.extractLsb' 0 16 ++ i) else none

theorem ofNat_ext_add_imm (p : Word) (i : BitVec 16) :
    BitVec.ofNat 32 (bits p.toNat 0 16 * 2 ^ 16 + i.toNat) = p.extractLsb' 0 16 ++ i := by
  apply BitVec.eq_of_toNat_eq
  rw [BitVec.toNat_append, ← Nat.shiftLeft_add_eq_or_of_lt i.isLt, BitVec.extractLsb'_toNat, BitVec.toNat_ofNat,
    Nat.shiftLeft_eq, bits]
  omega

theorem ext_isNone_or (s : State) (i : BitVec 16) :
    (s.ext.map fun p => BitVec.ofNat 32 (p * 2 ^ 16 + i.toNat)) = s.widened i := by
  unfold State.ext State.pfx State.widened
  rcases s.th.pfx with _ | p
  · rfl
  · have kind : bits p.toNat 24 2 = 0 ↔ p.extractLsb' 24 2 = 0 := by
      rw [← BitVec.toNat_inj, BitVec.extractLsb'_toNat, Nat.shiftRight_eq_div_pow]; rfl
    simp only [kind, Option.bind_some]
    split
    · exact congrArg some (ofNat_ext_add_imm p i)
    · rfl

theorem immS_eq (s : State) (i : BitVec 16) : s.immS i = (s.widened i).getD (i.signExtend 32) := by
  rw [← ext_isNone_or, State.immS]
  cases s.ext <;> rfl

theorem immZ_eq (s : State) (i : BitVec 16) : s.immZ i = (s.widened i).getD (i.setWidth 32) := by
  rw [← ext_isNone_or, State.immZ]
  cases s.ext <;> rfl

/-! Extensions and the upper immediate. -/

theorem zeroExtend_byte (x : Word) : (x.setWidth 8).setWidth 32 = x &&& 0xFF := by
  apply BitVec.eq_of_toNat_eq
  rw [BitVec.toNat_and, BitVec.toNat_setWidth_of_le (by decide), BitVec.toNat_setWidth]
  exact (Nat.and_two_pow_sub_one_eq_mod x.toNat 8).symm

theorem zeroExtend_half (x : Word) : (x.setWidth 16).setWidth 32 = x &&& 0xFFFF := by
  apply BitVec.eq_of_toNat_eq
  rw [BitVec.toNat_and, BitVec.toNat_setWidth_of_le (by decide), BitVec.toNat_setWidth]
  exact (Nat.and_two_pow_sub_one_eq_mod x.toNat 16).symm

theorem append_zero_eq_shift (i : BitVec 16) : i ++ (0 : BitVec 16) = i.setWidth 32 <<< 16 := by
  apply BitVec.eq_of_toNat_eq
  rw [BitVec.toNat_append, BitVec.toNat_shiftLeft, BitVec.toNat_setWidth_of_le (by decide)]
  simp only [Nat.shiftLeft_eq, BitVec.ofNat_eq_ofNat, BitVec.toNat_ofNat, Nat.zero_mod, Nat.or_zero]
  omega

end Sys2Proof.Machine

open Sys2Proof Sys2Proof.Machine

/-- Settles O3: each instruction writes one word, and the model's word is the statement's. -/
theorem unaryAndImmediateResults : Obligations.UnaryAndImmediateResults := by
  intro s d a h i x wide prefixed sx zx
  have signed : s.immS i = sx := immS_eq s i
  have zeroed : s.immZ i = zx := immZ_eq s i
  simp only [List.forall_mem_cons]
  refine ⟨writes_of_meaning (execAddi d a i) rfl rfl ?addi, writes_of_meaning (execAndi d a i) rfl rfl ?andi,
    writes_of_meaning (execOri d a i) rfl rfl ?ori, writes_of_meaning (execXori d a i) rfl rfl ?xori,
    writes_of_meaning (execSlti d a i) rfl rfl ?slti, writes_of_meaning (execSltiu d a i) rfl rfl ?sltiu,
    writes_of_meaning (execClz d a) rfl rfl (ofNat_leadingZeros x), writes_of_meaning (execCtz d a) rfl rfl (ofNat_trailingZeros x),
    writes_of_meaning (execPopc d a) rfl rfl (ofNat_onesCount x), writes_of_meaning (execSextB d a) rfl rfl rfl,
    writes_of_meaning (execSextH d a) rfl rfl rfl, writes_of_meaning (execZextB d a) rfl rfl (zeroExtend_byte x),
    writes_of_meaning (execZextH d a) rfl rfl (zeroExtend_half x), writes_of_meaning (execLui d i) rfl rfl (append_zero_eq_shift i),
    writes_of_meaning (execSlli d a h) rfl rfl rfl, writes_of_meaning (execSrli d a h) rfl rfl rfl,
    writes_of_meaning (execSrai d a h) rfl rfl rfl, List.forall_mem_nil _⟩
  case addi => exact congrArg (x + ·) signed
  case andi => exact congrArg (x &&& ·) zeroed
  case ori => exact congrArg (x ||| ·) zeroed
  case xori => exact congrArg (x ^^^ ·) zeroed
  case slti => exact signed ▸ boolWord_decide _
  case sltiu => exact signed ▸ boolWord_decide _
end
section
/-! PROOFS. Pairs, branches, jumps and masks (R58, R60, R345, R346, R370, R381, R382, R389, R407, R410, R428, R456). -/

namespace Sys2Proof.Machine

section
variable {i : Instr} {s t : State} {body : State → Res} (m : State → Out)

theorem writesPair_of_meaning {d : Reg} {f : State → Dword} {v : Dword} (hx : exec i s = m s)
    (hm : m s = issue i (fun s => s.retP d (f s)) s) (hv : f s = v) (adm : Admitted i s) : Retires i s (s.setP d v) :=
  retires_of_body m hx hm (congrArg (s.retP d) hv) adm

theorem writesMask_of_meaning {d : BitVec 3} {f : State → Word} {v : Word} (hx : exec i s = m s)
    (hm : m s = issue i (fun s => s.retK d (f s)) s) (hv : f s = v) (adm : Admitted i s) : Retires i s (s.setK d v) :=
  retires_of_body m hx hm (congrArg (s.retK d) hv) adm

theorem jumps_of_body {pc : Dword} (hx : exec i s = m s) (hm : m s = issue i body s) (hb : body s = .jump pc t)
    (adm : Admitted i s) : Jumps i s pc t := by
  rw [Jumps, exec_of_meaning m hx hm adm, hb]

/-- An instruction that branches on a condition jumps to its target when the condition holds, and retires when it does not. -/
theorem branches_of_body {o : BitVec 16} {taken cond : Bool} {target : Dword} (hx : exec i s = m s) (hm : m s = issue i body s)
    (hb : body s = t.branch taken o) (hc : taken = cond) (ht : t.branchTo o = target) (adm : Admitted i s) :
    if cond then Jumps i s target t else Retires i s t := by
  subst hc ht
  cases taken with
  | true => exact jumps_of_body m hx hm hb adm
  | false => exact retires_of_body m hx hm hb adm
end

/-! The target of a branch (R345). -/

theorem branchTo_eq (s : State) (o : BitVec 16) : s.branchTo o = s.pc + 4 * (s.immS o).signExtend 64 := by
  rw [State.branchTo, State.branchOff, BitVec.ofInt_mul]
  rfl

theorem Thread.setX_pc (t : Thread) (r : Nat) (v : Word) : (t.setX r v).bank.pc = t.bank.pc := by
  unfold Thread.setX
  split <;> rfl

theorem Thread.setX_pfx (t : Thread) (r : Nat) (v : Word) : (t.setX r v).pfx = t.pfx := by
  unfold Thread.setX
  split <;> rfl

theorem branchTo_setX (s : State) (a : Reg) (v : Word) (o : BitVec 16) : (s.setX a v).branchTo o = s.branchTo o := by
  have th : (s.setX a v).th = s.th.setX a.toNat v := th_modTh s _
  simp only [State.branchTo, State.branchOff, State.immS, State.ext, State.pfx, State.pc, th, Thread.setX_pc, Thread.setX_pfx]

/-! Hard-wired registers (R58). -/

theorem Thread.getX_setX_same (t : Thread) {r : Nat} (v : Word) (h : r ≠ 0) : (t.setX r v).getX r = v := by
  simp only [Thread.setX, Thread.getX, if_neg h, FMap.get_put_same]

theorem Thread.getX_setX_other (t : Thread) {r q : Nat} (v : Word) (h : q ≠ r) : (t.setX r v).getX q = t.getX q := by
  unfold Thread.setX
  split
  · rfl
  · simp only [Thread.getX, FMap.get_put_other _ _ _ h]

theorem Thread.getK_setK_same (t : Thread) {r : Nat} (v : Word) (h : r ≠ 0) : (t.setK r v).getK r = v := by
  simp only [Thread.setK, Thread.getK, if_neg h, FMap.get_put_same]

theorem Thread.getK_setK_other (t : Thread) {r q : Nat} (v : Word) (h : q ≠ r) : (t.setK r v).getK q = t.getK q := by
  unfold Thread.setK
  split
  · rfl
  · simp only [Thread.getK, FMap.get_put_other _ _ _ h]

end Sys2Proof.Machine

open Sys2Proof Sys2Proof.Machine

/-- Settles O4: the model's values are the statement's. -/
theorem pairResults : Obligations.PairResults := by
  intro s d a b i
  simp only [List.forall_mem_cons]
  exact ⟨writesPair_of_meaning (execAddp d a b) rfl rfl rfl, writesPair_of_meaning (execSubp d a b) rfl rfl rfl,
    writesPair_of_meaning (execMovp d a) rfl rfl rfl, writesPair_of_meaning (execAddpi d a i) rfl rfl rfl, List.forall_mem_nil _⟩

/-- Settles O5: each branch tests the statement's condition, and all go to one target. -/
theorem branchOutcomes : Obligations.BranchOutcomes := by
  intro s a b k o x y target less
  have there : s.branchTo o = target := branchTo_eq s o
  have beq (v w : Word) : (v == w) = decide (v = w) := rfl
  have bne (v w : Word) : (v != w) = decide (v ≠ w) := by rw [bne, beq, decide_not]
  have down : (x - 1 != 0) = decide (x ≠ 1) := by
    rw [bne]
    exact decide_eq_decide.mpr (not_congr BitVec.sub_eq_iff_eq_add)
  simp only [List.forall_mem_cons]
  exact ⟨branches_of_body (execBeq a b o) rfl rfl rfl (beq x y) there, branches_of_body (execBne a b o) rfl rfl rfl (bne x y) there,
    branches_of_body (execBlt a b o) rfl rfl rfl rfl there, branches_of_body (execBge a b o) rfl rfl rfl rfl there,
    branches_of_body (execBltu a b o) rfl rfl rfl rfl there, branches_of_body (execBgeu a b o) rfl rfl rfl rfl there,
    branches_of_body (execBkany k o) rfl rfl rfl (bne (s.k k) 0) there,
    branches_of_body (execBkall k o) rfl rfl rfl (beq (s.k k) _) there,
    branches_of_body (execBknone k o) rfl rfl rfl (beq (s.k k) 0) there,
    branches_of_body (execDbnz a o) rfl rfl rfl down ((branchTo_setX s a (x - 1) o).trans there), List.forall_mem_nil _⟩

/-- Settles O7: each jump's target and link are the statement's; `jalr.far` writes no link for a pair field of 0. -/
theorem jumpOutcomes : Obligations.JumpOutcomes := by
  intro s d a o f link far
  refine ⟨jumps_of_body (execJ o) rfl rfl rfl, jumps_of_body (execJal o) rfl rfl rfl, jumps_of_body (execJalr d a f) rfl rfl rfl,
    jumps_of_body (execJalrFar 0 a f) rfl rfl rfl, fun linked => jumps_of_body (execJalrFar d a f) rfl rfl ?_⟩
  exact congrArg _ (if_neg linked)

/-- Settles O8: the model's values are the statement's, with its bit counts the library's. -/
theorem maskResults : Obligations.MaskResults := by
  intro s d kd ka kb a
  simp only [List.forall_mem_cons]
  exact ⟨⟨writesMask_of_meaning (execKand kd ka kb) rfl rfl rfl, writesMask_of_meaning (execKor kd ka kb) rfl rfl rfl,
      writesMask_of_meaning (execKxor kd ka kb) rfl rfl rfl, writesMask_of_meaning (execKnot kd ka) rfl rfl rfl,
      writesMask_of_meaning (execKmovK kd ka) rfl rfl rfl, writesMask_of_meaning (execKgen kd a) rfl rfl rfl, List.forall_mem_nil _⟩,
    writes_of_meaning (execKmovX d ka) rfl rfl rfl, writes_of_meaning (execKpopc d ka) rfl rfl (ofNat_onesCount _),
    writes_of_meaning (execKfirst d ka) rfl rfl (ofNat_trailingZeros _), List.forall_mem_nil _⟩

/-- Settles O9: x0 and k0 are set aside by the accessors, and any other register is an entry of a finite map. -/
theorem hardWiredRegisters : Obligations.HardWiredRegisters := fun t _ _ v =>
  ⟨rfl, rfl, rfl, rfl, fun h => ⟨t.getX_setX_same v h, t.getK_setK_same v h⟩,
    fun h => ⟨t.getX_setX_other v h, t.getK_setK_other v h⟩⟩
end
section
/-! PROOFS. A trap without a usable vector, on a hot-spare primary: the end of the activation also copies its keep region to the
peer (R223, R301). -/

namespace Sys2Proof.Machine

/-- A slot of reflex tile 0 of a primary runs an activation that a mirrored tick entry started, of a binding that the tile holds;
its `tvec` is 0. -/
def mirroredTask : State :=
  let task : Thread := { act := some { kind := .task, tick := some 0 } }
  let tile : Core := { coreReset 256 with cx := { threads := [(0, task)], binds := [(0, BitVec.ofNat 128 (2 ^ 127))] } }
  { State.reset with cur := 256, slot := 0, cores := [(256, tile)], spare := { role := 1, keep := [(0, BitVec.ofNat 128 (2 ^ 127))] } }

end Sys2Proof.Machine

open Sys2Proof Sys2Proof.Machine

/-- Refutes O54: the statement's end of an activation without a vector leaves what the peer is sent as it was, and the model's
mirrors the keep region first. -/
theorem not_trapEntryAndReturn : ¬ Obligations.TrapEntryAndReturn := by
  intro h
  have plain : mirroredTask.act.kind = .task := by decide +kernel
  obtain ⟨-, ends, -⟩ := h mirroredTask causeEcall 0
    ⟨fun _ _ => plain ▸ nofun, fun _ => plain ▸ nofun, .inl fun _ => plain ▸ nofun⟩ (by decide +kernel) (by decide +kernel)
  have sent := congrArg (fun u => u.spare.keepOut.length) (ends (.inl (by decide +kernel)))
  exact absurd sent (by decide +kernel)
end
section
/-! PROOFS. Every instruction issues, so the checks of R299 stand before each (O51); an instruction's answer (O52); the words of
the reference entries (O48). -/

namespace Sys2Proof.Machine

/-! Every instruction that is not an event issues a meaning of its own. -/

theorem exec_eq_issue_scalar (s : State) {i : Instr} (h : groupOf i = .scalar) : ∃ body, exec i s = issue i body s := by
  cases i <;> cases h <;> delta exec <;> exact ⟨_, rfl⟩

theorem exec_eq_issue_vector (s : State) {i : Instr} (h : groupOf i = .vector) : ∃ body, exec i s = issue i body s := by
  cases i <;> cases h <;> delta exec <;> exact ⟨_, rfl⟩

theorem exec_eq_issue_shared (s : State) {i : Instr} (h : isShared (groupOf i) = true) :
    ∃ body, exec i s = issue i body s := by
  cases i <;> cases h <;> delta exec <;> exact ⟨_, rfl⟩

theorem exec_eq_issue_engine (s : State) {i : Instr} (h : isEngine (groupOf i) = true) :
    ∃ body, exec i s = issue i body s := by
  cases i <;> cases h <;> delta exec <;> exact ⟨_, rfl⟩

theorem exec_eq_issue_unit (s : State) {i : Instr} (h : isUnit (groupOf i) = true) :
    ∃ body, exec i s = issue i body s := by
  cases i <;> cases h <;> delta exec <;> exact ⟨_, rfl⟩

theorem exec_eq_issue (s : State) {i : Instr} (real : groupOf i ≠ .event) : ∃ body, exec i s = issue i body s := by
  cases hg : groupOf i
  case event => exact absurd hg real
  case scalar => exact exec_eq_issue_scalar s hg
  case vector => exact exec_eq_issue_vector s hg
  case atomic | gangSync | future => exact exec_eq_issue_shared s (by rw [hg]; rfl)
  case mover | matrix | ring | counter | message | binding => exact exec_eq_issue_engine s (by rw [hg]; rfl)
  all_goals exact exec_eq_issue_unit s (by rw [hg]; rfl)

/-! What a check that refuses answers. -/

section
variable {i : Instr} {s : State} {code : Nat} {tval : Dword}

theorem traps_of_refused (real : groupOf i ≠ .event) (h : s.refuses i = some (code, tval))
    (own : (isPfx i && code == causeIllegal) = false) : Traps i s code tval s := by
  obtain ⟨body, hx⟩ := exec_eq_issue s real
  rw [Traps, hx, issue_refused h, if_neg (by simp [own])]

theorem pfxTrap_of_refused (real : groupOf i ≠ .event) (h : s.refuses i = some (causeIllegal, tval)) (prefixed : isPfx i = true) :
    exec i s = .next (s.pfxTrap tval) := by
  obtain ⟨body, hx⟩ := exec_eq_issue s real
  rw [hx, issue_refused h, if_pos (by simp [prefixed])]
end

end Sys2Proof.Machine

open Sys2Proof Sys2Proof.Machine

/-- Settles O51: the branches of `State.refuses` are the classes in their order. -/
theorem instructionChecks : Obligations.InstructionChecks := by
  unfold Obligations.InstructionChecks
  intro s i real word bad priv far first
  have privIff : (availability (groupOf i) (coreType s.cur) == .sup && !s.sup) = true ↔ priv := by simp [priv]
  have farIff : (s.th.csr.gelig && decide (512 ≤ s.th.ic) && !isPfxOrSafe i) = true ↔ far := by simp [far, and_assoc]
  have firstIff : (isPfx i || s.namesRefused i) = true ↔ first := by simp [first]
  have checks : s.refuses i = if bad then some (causeIllegal, word) else if priv then some (causePriv, word)
      else if first then none else if far then some (causeSafe, 2)
      else if (needsSafe i && !s.th.sp) = true then some (causeSafe, 1) else none := by
    simp only [State.refuses, ← privIff, ← farIff, ← firstIff, bad]
    rfl
  have notFirst : ¬first → isPfx i = false := fun h => by simpa using fun hp => h (.inl hp)
  refine ⟨fun hb hp => ?_, fun hb hp => ?_, fun hb hp => ?_, fun hb hp hf hr => ?_, fun hb hp hf hr hn hs => ?_, fun hb hp h => ?_⟩
  · exact traps_of_refused real (by rw [checks, if_pos hb]) (by simp [hp])
  · exact pfxTrap_of_refused real (by rw [checks, if_pos hb]) hp
  · exact traps_of_refused real (by rw [checks, if_neg hb, if_pos hp]) (by simp [causePriv, causeIllegal])
  · exact traps_of_refused real (by rw [checks, if_neg hb, if_neg hp, if_neg hf, if_pos hr]) (by simp [notFirst hf])
  · exact traps_of_refused real (by rw [checks, if_neg hb, if_neg hp, if_neg hf, if_neg hr, if_pos (by simp [hn, hs])])
      (by simp [notFirst hf])
  · rw [Admitted, checks, if_neg hb, if_neg hp]
    rcases h with hf | ⟨hr, hn⟩
    · rw [if_pos hf]
    · have met : (needsSafe i && !s.th.sp) = false := by rcases hn with hn | hn <;> simp [hn]
      simp [hr, met]

/-- Refutes O52: a SERVICE_LOAD_CODE_OBJECT whose object names core 360, which does not exist, is well-formed, and there is no
such event. -/
theorem not_everyInstructionAnswers : ¬ Obligations.EveryInstructionAnswers := by
  unfold Obligations.EveryInstructionAnswers
  intro h
  let request : ServiceReq := { number := 0x32, asid := 0, supervisor := false, driver := false, words := [] }
  let object : CodeObject :=
    { core := 360, base := 0, words := [], handlers := [], liveMap := [], sections := [], gustEligible := false, handle := 0 }
  obtain ⟨t, answers⟩ := (h State.reset (.serviceLoadCodeObject request object)).1 (.inr rfl)
  have faults : exec (.serviceLoadCodeObject request object) State.reset = .fault .malformedEvent := rfl
  rw [faults] at answers
  cases answers

/-- Settles O48: each instruction's word is the one written out, and decoding undoes encoding. -/
theorem decodedWords : Obligations.DecodedWords := by
  unfold Obligations.DecodedWords
  intro e listed
  have written : groupOf e.2 ≠ .event ∧ encode e.2 = e.1 := by
    revert e
    decide +kernel
  exact ⟨written.2 ▸ decode_encode written.1, written.2⟩
end
section
/-! PROOFS. How an instruction leaves (O53), and what its leaving keeps. -/

namespace Sys2Proof.Machine

/-! Registers and storage that stay. -/

theorem SideRegsKept.refl (t : Thread) : SideRegsKept t t :=
  ⟨fun _ => rfl, fun _ => rfl, fun _ => rfl, fun _ => rfl, rfl, rfl, rfl⟩

theorem RegsKept.refl (t : Thread) : RegsKept t t := ⟨fun _ => rfl, SideRegsKept.refl t⟩

theorem RegsKept.of_eq {t u : Thread} (h : u = t) : RegsKept t u := h ▸ RegsKept.refl t

theorem SideRegsKept.trans {t u v : Thread} (h : SideRegsKept t u) (g : SideRegsKept u v) : SideRegsKept t v := by
  obtain ⟨hv, hk, hm, he, hcsr, hother, hctr⟩ := h
  obtain ⟨gv, gk, gm, ge, gcsr, gother, gctr⟩ := g
  exact ⟨fun r => (gv r).trans (hv r), fun r => (gk r).trans (hk r), fun r => (gm r).trans (hm r),
    fun r => (ge r).trans (he r), gcsr.trans hcsr, gother.trans hother, gctr.trans hctr⟩

theorem RegsKept.trans {t u v : Thread} (h : RegsKept t u) (g : RegsKept u v) : RegsKept t v :=
  ⟨fun r => (g.1 r).trans (h.1 r), h.2.trans g.2⟩

theorem StorageKept.trans {s t u : State} (h : StorageKept s t) (g : StorageKept t u) : StorageKept s u := by
  obtain ⟨hmem, hpoison, hresvs⟩ := h
  obtain ⟨gmem, gpoison, gresvs⟩ := g
  exact ⟨gmem.trans hmem, gpoison.trans hpoison, gresvs.trans hresvs⟩

/-- A change of the thread whose turn it is reaches no other thread. -/
theorem othersKept_modTh (t : State) (f : Thread → Thread) : OthersKept t (t.modTh f) :=
  fun _ _ other => .of_eq (thread_modTh_other t f other)

theorem thread_modTh_own {t : State} (f : Thread → Thread) {c n : Nat} (hc : t.cur = c) (hn : t.slot = n) :
    (t.modTh f).thread c n = f t.th := by
  subst hc hn
  exact th_modTh t f

/-! A retirement without a pending debug stop. -/

theorem noteRetired_regsKept (h : Thread) (cc k : Nat) : RegsKept h (h.noteRetired cc k) :=
  ⟨fun _ => rfl, fun _ => rfl, fun _ => rfl, fun _ => rfl, fun _ => rfl, rfl, rfl, rfl⟩

theorem retire_regsKept (h : Thread) (pc : Dword) (sp : Bool) : RegsKept h (h.retire pc sp) :=
  ⟨fun _ => rfl, fun _ => rfl, fun _ => rfl, fun _ => rfl, fun _ => rfl, rfl, rfl, rfl⟩

section
variable {t : State} {c n k : Nat}

theorem thread_retired (go : (t.thread c n).stopWhy = 0) (d m : Nat) :
    (t.retired c n k).thread d m =
      if d = c ∧ m = n then (t.thread c n).noteRetired t.clock.cc k else t.thread d m := by
  rw [retired_go go, thread_modThread]
  simp only [pm_thread]

theorem retired_storageKept (go : (t.thread c n).stopWhy = 0) : StorageKept t (t.retired c n k) := by
  obtain ⟨cores, h⟩ := retired_eq (w := k) go
  rw [h]
  exact ⟨rfl, rfl, rfl⟩
end

/-- What a retirement of the thread whose turn it is leaves, after a change that leaves its registers. -/
theorem left_of_retired {t : State} {f : Thread → Thread} (k : Nat) {c n : Nat} (hc : t.cur = c) (hn : t.slot = n)
    (go : (f t.th).stopWhy = 0) (kept : RegsKept t.th (f t.th)) :
    ((t.modTh f).retired c n k).thread c n = (f t.th).noteRetired t.clock.cc k ∧
      RegsKept t.th (((t.modTh f).retired c n k).thread c n) ∧ OthersKept t ((t.modTh f).retired c n k) ∧
      StorageKept t ((t.modTh f).retired c n k) := by
  subst hc hn
  have changed : (t.modTh f).thread t.cur t.slot = f t.th := th_modTh t f
  have stays : ((t.modTh f).thread t.cur t.slot).stopWhy = 0 := by rw [changed]; exact go
  have own : ((t.modTh f).retired t.cur t.slot k).thread t.cur t.slot = (f t.th).noteRetired t.clock.cc k := by
    rw [thread_retired stays, if_pos ⟨rfl, rfl⟩, changed, modTh_clock]
  have others : OthersKept t ((t.modTh f).retired t.cur t.slot k) := by
    intro d m other
    rw [thread_retired stays, if_neg other]
    exact othersKept_modTh t f d m other
  have storage : StorageKept t (t.modTh f) := ⟨rfl, rfl, rfl⟩
  exact ⟨own, own ▸ kept.trans (noteRetired_regsKept _ _ _), others, storage.trans (retired_storageKept stays)⟩

/-! Waiting. -/

/-- A thread that a wait blocks. -/
def Thread.blockedOn (t : Thread) (w : Wait) (now : Nat) : Thread :=
  { t with run := .blocked w, blockedSince := if t.run = .blocked w then t.blockedSince else now }

theorem core_block (s : State) (c n : Nat) (w : Wait) :
    (s.block c n w).core c = (s.core c).setThread n ((s.thread c n).blockedOn w s.clock.now) :=
  (core_setCore s c c _).trans (if_pos rfl)

theorem thread_block (s : State) (c n : Nat) (w : Wait) :
    (s.block c n w).thread c n = (s.thread c n).blockedOn w s.clock.now :=
  (thread_modThread s c n c n _).trans (if_pos ⟨rfl, rfl⟩)

theorem stopWanted_block (s : State) (c n : Nat) (w : Wait) : (s.block c n w).stopWanted c n = s.stopWanted c n := by
  simp only [State.stopWanted, core_block, coreThread_setThread, if_true]
  rfl

end Sys2Proof.Machine

open Sys2Proof Sys2Proof.Machine

/-- Settles O53: without a pending debug stop a retirement changes what `Thread.retire` changes and the counts of it. -/
theorem retirementEffects : Obligations.RetirementEffects := by
  unfold Obligations.RetirementEffects
  intro s t pc w why hc hn go after kept left
  have retired (f : Thread → Thread) (stays : (f t.th).stopWhy = t.th.stopWhy) (regs : RegsKept t.th (f t.th)) :=
    left_of_retired s.th.words hc hn (stays.trans go) regs
  refine ⟨?_, ?_, ?_, ?_, ?_⟩
  · obtain ⟨own, rest⟩ := retired (fun h => h.retire (h.bank.pc + 4) false) rfl (retire_regsKept _ _ _)
    simp only [left, after, kept, State.finish, own]
    exact ⟨rfl, rfl, rfl, rfl, own ▸ rest⟩
  · obtain ⟨own, rest⟩ := retired (fun h => h.retire pc false) rfl (retire_regsKept _ _ _)
    simp only [left, after, kept, State.finish, own]
    exact ⟨rfl, rfl, rfl, rfl, own ▸ rest⟩
  · obtain ⟨own, rest⟩ := retired (fun h => { h.retire pc false with sp := true }) rfl (retire_regsKept _ _ true)
    simp only [left, after, kept, State.finish, own]
    exact ⟨rfl, rfl, rfl, rfl, own ▸ rest⟩
  · have own := thread_modTh_own (t := t) (fun h => { h.setPc (h.bank.pc + 4) with pfx := some w, run := .ready }) hc hn
    simp only [left, after, kept, State.finish, own]
    exact ⟨rfl, trivial, trivial, rfl, RegsKept.refl t.th, othersKept_modTh t _, rfl, rfl, rfl⟩
  · intro free
    have stays : s.finish (.wait why t) = t.block s.cur s.slot why := by
      simp only [State.finish, State.stopPoint, stopWanted_block, free]
    have own : (t.block s.cur s.slot why).thread s.cur s.slot = t.th.blockedOn why t.clock.now := by
      rw [thread_block, ← hc, ← hn]
      rfl
    have others : OthersKept t (t.block s.cur s.slot why) := fun d m other =>
      .of_eq ((thread_modThread t _ _ d m _).trans (if_neg (by rwa [← hc, ← hn])))
    simp only [after, kept, stays, own]
    exact ⟨rfl, rfl, rfl, RegsKept.refl t.th, others, rfl, rfl, rfl⟩
end
section
/-! PROOFS. The state after reset (O55). -/

namespace Sys2Proof.Machine

/-- Nothing is stored after reset, so a core is as it is reset. -/
theorem core_reset (c : Nat) : State.reset.core c = coreReset c := rfl

theorem thread_reset (c n : Nat) : State.reset.thread c n = {} := by
  rw [State.thread, core_reset, coreReset]
  cases coreType c <;> rfl

/-- The CSRs of a tile of each kind after reset. -/
theorem csrRead_reset {c : Nat} (tile : c < 288) (n : Nat) {num : Nat} (listed : num ∈ csrNumbers) :
    State.reset.csrRead c n num = if num = 0x42 then (if c < 256 then 0x4000 else 0x1000) else if num = 0x60 then 800 else 0 := by
  by_cases reasoning : c < 256
  · have core : State.reset.core c = { spsize := 0x4000 } := by rw [core_reset, coreReset, coreType, if_pos reasoning]
    have thread : ({ spsize := 0x4000 } : Core).thread n = {} := rfl
    unfold State.csrRead
    rw [core, if_pos reasoning]
    dsimp only
    rw [thread]
    revert num
    decide +kernel
  · have core : State.reset.core c = { spsize := 0x1000 } := by
      rw [core_reset, coreReset, coreType, if_neg reasoning, if_pos tile]
    have thread : ({ spsize := 0x1000 } : Core).thread n = {} := rfl
    unfold State.csrRead
    rw [core, if_neg reasoning]
    dsimp only
    rw [thread]
    revert num
    decide +kernel

end Sys2Proof.Machine

open Sys2Proof Sys2Proof.Machine

/-- Settles O55: no core is stored after reset, so each reads as its reset value, and so do its slots. -/
theorem resetState : Obligations.ResetState := by
  unfold Obligations.ResetState
  intro s
  refine ⟨fun c tile n _ num listed => csrRead_reset tile n listed, fun c n => ?_, rfl, rfl, rfl, rfl, rfl, rfl, fun a => rfl⟩
  rw [thread_reset]
  exact ⟨rfl, rfl, fun r => ite_self 0⟩
end
section
/-! PROOFS. A step on a thread's turn carries out the instruction that its bytes decode to (O50). -/

namespace Sys2Proof.Machine

/-- What a retry that issued leaves: a slot that waits on as it is, else the issue slot taken, or a READY slot where another has
it. -/
def State.triedTurn (r t : State) (c n : Nat) : State :=
  match (t.thread c n).run with
  | .blocked _ => t
  | .suspended _ => t
  | _ => if (r.core c).hasIssue n = true then t.modCore c fun k => { k with lastSlot := n }
    else r.modThread c n fun h => { h with run := .ready }

/-- The three ways of a turn that has fetched the word of an instruction. -/
theorem turn_of_word {o : Out} {r : State} {x : FetchedWord} {i : Instr} {c n : Nat}
    (turn : o = if r.breakAt c n x = true then .next (r.debugStop c n 2)
      else if (r.thread c n).run = .ready then execWord x.word (r.modCore c fun k => { k with lastSlot := n })
      else r.retry c n (execWord x.word r))
    (carried : ∀ s, execWord x.word s = exec i s) :
    (r.breakAt c n x = true → o = .next (r.debugStop c n 2)) ∧
    (r.breakAt c n x = false → (r.thread c n).run = .ready → o = exec i (r.modCore c fun k => { k with lastSlot := n })) ∧
    (r.breakAt c n x = false → (r.thread c n).run ≠ .ready → ∀ t, exec i r = .next t → o = .next (r.triedTurn t c n)) := by
  refine ⟨fun brk => ?_, fun brk ready => ?_, fun brk waits t issued => ?_⟩
  · rw [turn, if_pos brk]
  · rw [turn, if_neg (by simp [brk]), if_pos ready, carried]
  · rw [turn, if_neg (by simp [brk]), if_neg waits, carried, issued]
    exact retry_next r t c n

end Sys2Proof.Machine

open Sys2Proof Sys2Proof.Machine

/-- Settles O50: the turn carries out the word it fetches, wherever that stands, and a step is the turn that is due. -/
theorem stepRunsTheDecodedInstruction : Obligations.StepRunsTheDecodedInstruction := by
  unfold Obligations.StepRunsTheDecodedInstruction
  intro s u v c n loc rest i begun turn pc seen w fresh own held mine kept last tried runs
  refine ⟨fun hc hn can before header place => ?_, fun due real => step_event due real⟩
  have fetched {x : FetchedWord} {r : State} (h : seen.fetchWord c n pc.toNat loc = (x, r)) :
      runThread c n begun = if r.breakAt c n x = true then .next (r.debugStop c n 2)
        else if (r.thread c n).run = .ready then execWord x.word (r.modCore c fun k => { k with lastSlot := n })
        else r.retry c n (execWord x.word r) := by
    have word := runThread_word hc hn can before header place
    dsimp only at word
    rw [word, show _ = (x, r) from h]
  have stepped {x : FetchedWord} {r : State} {i : Instr} (due : step s = runThread c n begun)
      (h : seen.fetchWord c n pc.toNat loc = (x, r)) (carried : ∀ s, execWord x.word s = exec i s) : runs x r i := by
    simp only [runs, due]
    exact turn_of_word (fetched h) carried
  refine ⟨fun due => ?_, fun due none idle duty next owned cached decoded => ?_⟩
  · have runsNow := step_thread due
    refine ⟨fun owned cached decoded => ?_, fun owned cached decoded => ?_, fun e owned cached decoded => ?_,
      fun x owned decoded => ?_⟩
    · exact stepped runsNow (fetchWord_fresh owned cached) (execWord_some decoded)
    · exact stepped runsNow (fetchWord_fresh owned cached) (execWord_none decoded)
    · exact stepped runsNow (fetchWord_held owned cached) (execWord_some decoded)
    · exact stepped runsNow (fetchWord_own owned) (execWord_some decoded)
  · have same : begun = s.advance := by
      have open_ : ({ s with agenda := rest } : State) = s := by rw [none, ← due]
      exact congrArg State.advance open_
    exact stepped ((step_nextTurn due idle duty next).trans (by rw [same])) (fetchWord_fresh owned cached) (execWord_some decoded)
end
section
/-! PROOFS. Scalar loads and stores: what a load writes, where a store's bytes go, and the trap of a misaligned access
(R82, R83, R119, R412, R413, R443, R444). -/

namespace Sys2Proof.Machine

/-! Numbers read as signed. -/

theorem signed_eq_toInt {n : Nat} (positive : 0 < n) (v : Nat) : signed v n = (BitVec.ofNat n v).toInt := by
  obtain ⟨k, rfl⟩ : ∃ k, n = k + 1 := ⟨n - 1, by omega⟩
  have power : 2 ^ (k + 1) = 2 * 2 ^ k := by rw [Nat.pow_succ, Nat.mul_comm]
  rw [BitVec.toInt_eq_toNat_cond, BitVec.toNat_ofNat, signed, Nat.add_sub_cancel]
  have half : v % 2 ^ (k + 1) < 2 ^ k ↔ 2 * (v % 2 ^ (k + 1)) < 2 ^ (k + 1) := by omega
  simp only [half]
  push_cast
  rfl

theorem ofInt_signed {n : Nat} (positive : 0 < n) (w v : Nat) :
    BitVec.ofInt w (signed v n) = (BitVec.ofNat n v).signExtend w := by
  rw [signed_eq_toInt positive, BitVec.signExtend]

/-! Loads. -/

section
variable {s t : State} {b : BitVec 4} {o : BitVec 15} {size : Nat} {l : List Byte}

theorem load_reads (w : Word) (use : List Byte → State → Res) (h : LoadReads s b o size l t) :
    s.load w b o size use = use l (t.countRead (s.basePath b)) := by
  obtain ⟨rule, a, p, addr, window, reached, bytes⟩ := h
  simp only [State.load, rule, addr, window, reached, bytes, ne_eq, not_true_eq_false, if_false, Bool.not_true,
    Bool.false_eq_true]

theorem storeTo_takes {v : Nat} {p : Place} (w : Word) (h : StoreTakes s b o size v p t) :
    s.storeTo w b o size v = .retire t := by
  obtain ⟨rule, a, addr, window, reached, taken⟩ := h
  simp only [State.storeTo, rule, addr, window, reached, taken, ne_eq, not_true_eq_false, if_false, Bool.not_true,
    Bool.false_eq_true]
end

/-- The value of loaded bytes that fit a width, zero-extended. -/
theorem ofNat_leNat {l : List Byte} {n : Nat} (fits : leNat l < 2 ^ n) (w : Nat) :
    BitVec.ofNat w (leNat l) = (BitVec.ofNat n (leNat l)).setWidth w := by
  apply BitVec.eq_of_toNat_eq
  rw [BitVec.toNat_setWidth, BitVec.toNat_ofNat, BitVec.toNat_ofNat, Nat.mod_eq_of_lt fits]

theorem leNat_lt (l : List Byte) : leNat l < 2 ^ (8 * l.length) := by
  induction l with
  | nil => decide
  | cons b r ih =>
    have byte := b.isLt
    rw [leNat, List.length_cons, show 8 * (r.length + 1) = 8 + 8 * r.length by omega, Nat.pow_add]
    omega

theorem leNat_lt_of_length {l : List Byte} {size : Nat} (len : l.length = size) : leNat l < 2 ^ (8 * size) :=
  len ▸ leNat_lt l

/-! The translation cache of a core is no part of a thread or of storage. -/

theorem touchTlb_eq (s : State) (c : Nat) (asid : BitVec 16) (path va : Nat) (kind : AccessKind) :
    ∃ k, s.touchTlb c asid path va kind = { s with cores := k } := by
  unfold State.touchTlb
  split
  · split
    · exact ⟨s.cores, rfl⟩
    · exact ⟨_, rfl⟩
  · exact ⟨s.cores, rfl⟩

@[simp] theorem touchTlb_mem (s : State) (c : Nat) (asid : BitVec 16) (path va : Nat) (kind : AccessKind) :
    (s.touchTlb c asid path va kind).mem = s.mem := by
  obtain ⟨k, h⟩ := touchTlb_eq s c asid path va kind
  rw [h]

@[simp] theorem touchTlb_thread (s : State) (c : Nat) (asid : BitVec 16) (path va : Nat) (kind : AccessKind) (d n : Nat) :
    (s.touchTlb c asid path va kind).thread d n = s.thread d n := by
  unfold State.touchTlb
  split
  · split
    · rfl
    · rw [State.thread, core_modCore]
      split
      next h => rw [h]; rfl
      next => rfl
  · rfl

/-! Stores that perform. -/

@[simp] theorem storeCells_mem (s : State) (l : List (Nat × Byte)) : (s.storeCells l).mem = memCells s.mem l := rfl

@[simp] theorem storeCells_thread (s : State) (l : List (Nat × Byte)) (d n : Nat) :
    (s.storeCells l).thread d n = s.thread d n := rfl

/-! Misaligned accesses. -/

section
variable {s : State} {a : Dword} {acc : Access} {size : Nat}

/-- An access that only its alignment, or a view's element, refuses. -/
theorem reach_misaligned (check : s.pathCheck s.issuer (pathByte a) = 0) (region : (s.region s.issuer a 0 size).1 = 0)
    (free : s.l1Waits s.issuer a 0 size = false)
    (seen : 0x11 ≤ pathByte a ∧ pathByte a ≤ 0x15 → ∀ x ∈ viewElements (bits a.toNat 0 32) 0 size,
      s.viewAllowed s.issuer (viewOf (pathByte a)) x = true)
    (dir : s.dirClass (pathByte a) acc = 0)
    (off : bits a.toNat 0 56 % size ≠ 0 ∨ ((0x11 ≤ pathByte a ∧ pathByte a ≤ 0x15) ∧ size < 2)) :
    s.reach s.issuer a size 0 size acc = .fault causeAlign 0 := by
  have nonePriv : (0 : Nat) ≠ causePriv := by decide
  have allowed : (if (decide (0x11 ≤ pathByte a) && decide (pathByte a ≤ 0x15)) = true then
      (viewElements (bits a.toNat 0 32) 0 size).find? fun e => !s.viewAllowed s.issuer (viewOf (pathByte a)) e
      else none) = none := by
    split
    next view =>
      rw [List.find?_eq_none]
      intro x hx
      simp [seen (by simpa using view) x hx]
    next => rfl
  have misaligned : bits a.toNat 0 56 % size ≠ 0 ∨ (decide (0x11 ≤ pathByte a) && decide (pathByte a ≤ 0x15)) = true ∧ size < 2 := by
    simpa using off
  simp only [State.reach, check, region, free, allowed, dir, if_pos misaligned, ne_eq, not_true_eq_false, if_false,
    nonePriv, Bool.false_eq_true, Option.isSome_none]

theorem bits56_mod {size : Nat} (h : size ∣ 2 ^ 56) (a : Dword) : bits a.toNat 0 56 % size = a.toNat % size := by
  rw [bits, pow_zero, Nat.div_one, Nat.mod_mod_of_dvd _ h]


theorem add_ofNat_zero (a : Dword) : a + BitVec.ofNat 64 0 = a := BitVec.add_zero a

theorem windowAllows_of_none (store : Bool) (lo hi : Nat) (free : s.act.queueOf = none) : s.windowAllows store a lo hi = true := by
  rw [State.windowAllows, free]

section
variable {b : BitVec 4} {o : BitVec 15}

theorem load_misaligned (w : Word) (use : List Byte → State → Res)
    (rule : s.safeRule (loadBlocks (s.basePath b)) true (s.basePath b) = 0) (free : s.act.queueOf = none)
    (addr : s.mAddr b o size = some a) (bad : s.reach s.issuer a size 0 size .load = .fault causeAlign 0) :
    s.load w b o size use = s.accessTrap w causeAlign a := by
  simp only [State.load, rule, addr, bad, windowAllows_of_none false 0 size free, add_ofNat_zero, ne_eq, not_true_eq_false,
    if_false, Bool.not_true, Bool.false_eq_true]

theorem storeTo_misaligned (w : Word) (v : Nat)
    (rule : s.safeRule (storeBlocks (s.basePath b)) false (s.basePath b) = 0) (free : s.act.queueOf = none)
    (addr : s.mAddr b o size = some a) (bad : s.reach s.issuer a size 0 size .store = .fault causeAlign 0) :
    s.storeTo w b o size v = s.accessTrap w causeAlign a := by
  simp only [State.storeTo, rule, addr, bad, windowAllows_of_none true 0 size free, add_ofNat_zero, ne_eq, not_true_eq_false,
    if_false, Bool.not_true, Bool.false_eq_true]
section
variable {i : Instr} {body : State → Res}

theorem load_traps_misaligned (m : State → Out) (hx : exec i s = m s) (hm : m s = issue i body s) (use : List Byte → State → Res)
    (hb : body s = s.load (encode i) b o size use) (adm : Admitted i s)
    (rule : s.safeRule (loadBlocks (s.basePath b)) true (s.basePath b) = 0) (free : s.act.queueOf = none)
    (addr : s.mAddr b o size = some a) (bad : s.reach s.issuer a size 0 size .load = .fault causeAlign 0) :
    Traps i s causeAlign a
      (s.threadRecord s.cur s.slot 0x01 2 [(24, 8, a.toNat), (32, 1, causeAlign), (36, 4, (encode i).toNat)]) := by
  rw [Traps, exec_of_meaning m hx hm adm, hb, load_misaligned _ _ rule free addr bad]
  rfl

theorem store_traps_misaligned (m : State → Out) (hx : exec i s = m s) (hm : m s = issue i body s) (v : Nat)
    (hb : body s = s.storeTo (encode i) b o size v) (adm : Admitted i s)
    (rule : s.safeRule (storeBlocks (s.basePath b)) false (s.basePath b) = 0) (free : s.act.queueOf = none)
    (addr : s.mAddr b o size = some a) (bad : s.reach s.issuer a size 0 size .store = .fault causeAlign 0) :
    Traps i s causeAlign a
      (s.threadRecord s.cur s.slot 0x01 2 [(24, 8, a.toNat), (32, 1, causeAlign), (36, 4, (encode i).toNat)]) := by
  rw [Traps, exec_of_meaning m hx hm adm, hb, storeTo_misaligned _ _ rule free addr bad]
  rfl
end

/-- A misaligned scalar load or store of a width that divides the address space traps with its address and its record. -/
def MisalignedTraps (s : State) (b : BitVec 4) (o : BitVec 15) (a : Dword) (e : Instr × Nat × Bool) : Prop :=
  e.2.1 ∣ 2 ^ 56 ∧ (Admitted e.1 s → s.act.queueOf = none → s.mAddr b o e.2.1 = some a →
    s.safeRule (if e.2.2 then loadBlocks (s.basePath b) else storeBlocks (s.basePath b)) e.2.2 (s.basePath b) = 0 →
    s.reach s.issuer a e.2.1 0 e.2.1 (if e.2.2 = true then .load else .store) = .fault causeAlign 0 →
    Traps e.1 s causeAlign a
      (s.threadRecord s.cur s.slot 0x01 2 [(24, 8, a.toNat), (32, 1, causeAlign), (36, 4, (encode e.1).toNat)]))

/-- The scalar loads and stores of more than one byte, with their widths. -/
def wideAccesses (d : Reg) (b : BitVec 4) (o : BitVec 15) : List (Instr × Nat × Bool) :=
  [(.lh d b o, 2, true), (.lhu d b o, 2, true), (.lw d b o, 4, true), (.ld d b o, 8, true), (.sh d b o, 2, false),
    (.sw d b o, 4, false), (.sd d b o, 8, false)]

/-- The checks of an access's path and bytes that stand beside its alignment pass. -/
def AccessAllowed (s : State) (b : BitVec 4) (load : Bool) : Prop :=
  s.safeRule (if load then loadBlocks (s.basePath b) else storeBlocks (s.basePath b)) load (s.basePath b) = 0 ∧
    s.act.queueOf = none

theorem scalar_misalignedTraps (s : State) (d : Reg) (b : BitVec 4) (o : BitVec 15) (a : Dword) :
    ∀ e ∈ ([(.lb d b o, 1, true), (.lbu d b o, 1, true), (.lh d b o, 2, true), (.lhu d b o, 2, true), (.lw d b o, 4, true),
        (.ld d b o, 8, true), (.sb d b o, 1, false), (.sh d b o, 2, false), (.sw d b o, 4, false), (.sd d b o, 8, false)] :
        List (Instr × Nat × Bool)),
      MisalignedTraps s b o a e := by
  simp only [List.forall_mem_cons]
  refine ⟨⟨by norm_num, fun adm free addr rule bad => ?_⟩, ⟨by norm_num, fun adm free addr rule bad => ?_⟩,
    ⟨by norm_num, fun adm free addr rule bad => ?_⟩, ⟨by norm_num, fun adm free addr rule bad => ?_⟩,
    ⟨by norm_num, fun adm free addr rule bad => ?_⟩, ⟨by norm_num, fun adm free addr rule bad => ?_⟩,
    ⟨by norm_num, fun adm free addr rule bad => ?_⟩, ⟨by norm_num, fun adm free addr rule bad => ?_⟩,
    ⟨by norm_num, fun adm free addr rule bad => ?_⟩, ⟨by norm_num, fun adm free addr rule bad => ?_⟩, List.forall_mem_nil _⟩
  · exact load_traps_misaligned (execLb d b o) rfl rfl _ rfl adm rule free addr bad
  · exact load_traps_misaligned (execLbu d b o) rfl rfl _ rfl adm rule free addr bad
  · exact load_traps_misaligned (execLh d b o) rfl rfl _ rfl adm rule free addr bad
  · exact load_traps_misaligned (execLhu d b o) rfl rfl _ rfl adm rule free addr bad
  · exact load_traps_misaligned (execLw d b o) rfl rfl _ rfl adm rule free addr bad
  · exact load_traps_misaligned (execLd d b o) rfl rfl _ rfl adm rule free addr bad
  · exact store_traps_misaligned (execSb d b o) rfl rfl _ rfl adm rule free addr bad
  · exact store_traps_misaligned (execSh d b o) rfl rfl _ rfl adm rule free addr bad
  · exact store_traps_misaligned (execSw d b o) rfl rfl _ rfl adm rule free addr bad
  · exact store_traps_misaligned (execSd d b o) rfl rfl _ rfl adm rule free addr bad
end

theorem feature_of_admitted {i : Instr} (adm : Admitted i s) : s.feature (featureOf (groupOf i)) = true := by
  have legal : s.illegal i = false := by
    by_contra h
    rw [Admitted, State.refuses, if_pos (by simpa using h)] at adm
    cases adm
  simp only [State.illegal, Bool.or_eq_false_iff, Bool.not_eq_false'] at legal
  tauto

/-! What stands above the alignment on the core's own SRAM and on the translated paths. -/

theorem pathCheck_own (i : Issuer) (feature : s.feature 0 = true) : s.pathCheck i 0x10 = 0 := by
  simp only [State.pathCheck, show pathFeature 0x10 = 0 from rfl, feature, Bool.not_true, Bool.false_eq_true, if_false]
  rfl

theorem bits_bits_low (v : Nat) : bits (bits v 0 56) 0 32 = bits v 0 32 := by
  simp only [bits]
  omega

theorem bits_bits_high (v : Nat) : bits (bits v 0 56) 32 24 = bits v 32 24 := by
  simp only [bits]
  omega

theorem bits_bits_top (v : Nat) : bits (bits v 0 56) 48 8 = bits v 48 8 := by
  simp only [bits]
  omega

theorem region_own (i : Issuer) (path : pathByte a = 0x10) (high : bits a.toNat 32 24 = 0)
    (own : s.ownClass i (bits a.toNat 0 32) (bits a.toNat 0 32 + size) = 0) : (s.region i a 0 size).1 = 0 := by
  simp only [State.region, path, bits_bits_high, bits_bits_low, high, Nat.add_zero, ne_eq, not_true_eq_false, if_false, own,
    show isTranslated 0x10 = false from rfl, Bool.false_eq_true, if_true]

theorem region_translated (i : Issuer) (path : isTranslated (pathByte a) = true) (top : bits a.toNat 48 8 = 0) :
    (s.region i a 0 size).1 = 0 := by
  simp only [State.region, path, bits_bits_top, top, ne_eq, not_true_eq_false, if_false, if_true]

theorem l1Waits_own (i : Issuer) (path : pathByte a = 0x10)
    (free : s.l1Busy i.core (bits a.toNat 0 32) (bits a.toNat 0 32 + size) = false) : s.l1Waits i a 0 size = false := by
  simp only [State.l1Waits, path, bits_bits_low, Nat.add_zero, free, Bool.and_false, if_true]

theorem isTranslated_iff (p : Nat) : isTranslated p = true ↔ p = 0x00 ∨ p = 0x01 ∨ p = 0x08 ∨ p = 0x09 := by
  simp [isTranslated, or_assoc]

theorem l1Waits_translated (i : Issuer) (path : isTranslated (pathByte a) = true) : s.l1Waits i a 0 size = false := by
  have cases := (isTranslated_iff _).mp path
  simp only [State.l1Waits]
  rw [if_neg (by omega), if_neg (by omega), if_neg (by omega)]

theorem dirClass_translated (path : isTranslated (pathByte a) = true) (load : acc = .load ∨ acc = .store ∧ pathByte a ≠ 0x01) :
    s.dirClass (pathByte a) acc = 0 := by
  have cases := (isTranslated_iff _).mp path
  rcases load with rfl | ⟨rfl, writable⟩
  · exact if_neg (by omega)
  · refine if_neg ?_
    rcases cases with h | h | h | h
    · rw [h]; decide
    · exact absurd h writable
    · rw [h]; decide
    · rw [h]; decide

/-! The three forms of the trap. -/

section
variable {b : BitVec 4} {o : BitVec 15} {e : Instr × Nat × Bool}

/-- The trap where nothing that stands above the alignment refuses the access. -/
theorem traps_misaligned (h : MisalignedTraps s b o a e) (adm : Admitted e.1 s) (addr : s.mAddr b o e.2.1 = some a)
    (ok : AccessAllowed s b e.2.2) (check : s.pathCheck s.issuer (pathByte a) = 0) (region : (s.region s.issuer a 0 e.2.1).1 = 0)
    (free : s.l1Waits s.issuer a 0 e.2.1 = false)
    (seen : 0x11 ≤ pathByte a ∧ pathByte a ≤ 0x15 → ∀ x ∈ viewElements (bits a.toNat 0 32) 0 e.2.1,
      s.viewAllowed s.issuer (viewOf (pathByte a)) x = true)
    (dir : s.dirClass (pathByte a) (if e.2.2 = true then .load else .store) = 0)
    (off : a.toNat % e.2.1 ≠ 0 ∨ ((0x11 ≤ pathByte a ∧ pathByte a ≤ 0x15) ∧ e.2.1 = 1)) :
    Traps e.1 s causeAlign a
      (s.threadRecord s.cur s.slot 0x01 2 [(24, 8, a.toNat), (32, 1, causeAlign), (36, 4, (encode e.1).toNat)]) := by
  obtain ⟨divides, trap⟩ := h
  refine trap adm ok.2 addr ok.1 (reach_misaligned check region free seen dir ?_)
  rw [bits56_mod divides]
  exact off.imp_right fun w => ⟨w.1, by omega⟩

theorem traps_misaligned_own (h : MisalignedTraps s b o a e) (scalar : groupOf e.1 = .scalar) (adm : Admitted e.1 s)
    (base : s.basePath b = 0x10) (addr : s.mAddr b o e.2.1 = some a) (raw : pathByte a = 0x10) (high : bits a.toNat 32 24 = 0)
    (task : s.act.queueOf = none) (inside : s.ownClass s.issuer (bits a.toNat 0 32) (bits a.toNat 0 32 + e.2.1) = 0)
    (free : s.l1Busy s.cur (bits a.toNat 0 32) (bits a.toNat 0 32 + e.2.1) = false) (off : a.toNat % e.2.1 ≠ 0) :
    Traps e.1 s causeAlign a
      (s.threadRecord s.cur s.slot 0x01 2 [(24, 8, a.toNat), (32, 1, causeAlign), (36, 4, (encode e.1).toNat)]) := by
  have rule : AccessAllowed s b e.2.2 :=
    ⟨by rw [base]; cases e.2.2 <;> simp [State.safeRule, loadBlocks, storeBlocks, isTranslated], task⟩
  have feature : s.feature 0 = true := by have h := feature_of_admitted adm; rwa [scalar] at h
  refine traps_misaligned h adm addr rule ?_ (region_own _ raw high inside) (l1Waits_own _ raw free) (fun v => ?_) ?_ (.inl off)
  · rw [raw]; exact pathCheck_own _ feature
  · omega
  · rw [raw]; cases e.2.2 <;> rfl

theorem traps_misaligned_translated (h : MisalignedTraps s b o a e) (adm : Admitted e.1 s)
    (addr : s.mAddr b o e.2.1 = some a) (path : isTranslated (pathByte a) = true) (check : s.pathCheck s.issuer (pathByte a) = 0)
    (top : bits a.toNat 48 8 = 0) (ok : AccessAllowed s b e.2.2) (writable : e.2.2 = false → pathByte a ≠ 0x01)
    (off : a.toNat % e.2.1 ≠ 0) :
    Traps e.1 s causeAlign a
      (s.threadRecord s.cur s.slot 0x01 2 [(24, 8, a.toNat), (32, 1, causeAlign), (36, 4, (encode e.1).toNat)]) := by
  have cases := (isTranslated_iff _).mp path
  refine traps_misaligned h adm addr ok check (region_translated _ path top) (l1Waits_translated _ path) (fun v => ?_)
    (dirClass_translated path ?_) (.inl off)
  · omega
  · rcases hl : e.2.2 with _ | _
    · exact .inr ⟨rfl, writable hl⟩
    · exact .inl rfl
end

end

end Sys2Proof.Machine

open Sys2Proof Sys2Proof.Machine

/-- Settles O10: a load that passes its checks hands its bytes to the write of its register. -/
theorem loadResults : Obligations.LoadResults := by
  unfold Obligations.LoadResults
  intro s t d b o l u n
  refine ⟨?_, fun adm reads => ?_⟩
  · simp only [List.forall_mem_cons]
    refine ⟨fun adm reads _ => ?_, fun adm reads len => ?_, fun adm reads _ => ?_, fun adm reads len => ?_,
      fun adm reads _ => ?_, List.forall_mem_nil _⟩
    · exact retires_of_body (execLb d b o) rfl rfl ((load_reads _ _ reads).trans
        (congrArg (fun v => Res.retire (u.setX d v)) (ofInt_signed (by decide) 32 n))) adm
    · exact retires_of_body (execLbu d b o) rfl rfl ((load_reads _ _ reads).trans
        (congrArg (fun v => Res.retire (u.setX d v)) (ofNat_leNat (leNat_lt_of_length len) 32))) adm
    · exact retires_of_body (execLh d b o) rfl rfl ((load_reads _ _ reads).trans
        (congrArg (fun v => Res.retire (u.setX d v)) (ofInt_signed (by decide) 32 n))) adm
    · exact retires_of_body (execLhu d b o) rfl rfl ((load_reads _ _ reads).trans
        (congrArg (fun v => Res.retire (u.setX d v)) (ofNat_leNat (leNat_lt_of_length len) 32))) adm
    · exact retires_of_body (execLw d b o) rfl rfl (load_reads _ _ reads) adm
  · exact retires_of_body (execLd d b o) rfl rfl (load_reads _ _ reads) adm

/-- Settles O11: a store that passes its checks retires with what its write leaves. -/
theorem storeResults : Obligations.StoreResults := by
  unfold Obligations.StoreResults
  intro s t d b o p
  refine ⟨?_, fun adm takes => retires_of_body (execSd d b o) rfl rfl (storeTo_takes _ takes) adm⟩
  simp only [List.forall_mem_cons]
  exact ⟨fun adm takes => retires_of_body (execSb d b o) rfl rfl (storeTo_takes _ takes) adm,
    fun adm takes => retires_of_body (execSh d b o) rfl rfl (storeTo_takes _ takes) adm,
    fun adm takes => retires_of_body (execSw d b o) rfl rfl (storeTo_takes _ takes) adm, List.forall_mem_nil _⟩

/-- Settles O12: plain memory takes the bytes at once, path 0x00 puts them in the store buffer, whose oldest entry leaves it when
it performs. -/
theorem storePlaces : Obligations.StorePlaces := by
  unfold Obligations.StorePlaces
  intro s t i l
  refine ⟨fun loc taken => ?_, fun va loc hit taken => ?_, fun c n e rest buffered => ?_⟩
  · cases taken
    rfl
  · simp only [State.writePlace, hit, if_true] at taken
    split at taken
    next => cases taken
    next =>
      cases taken
      refine ⟨touchTlb_mem s _ _ _ _ _, ?_⟩
      rw [thread_modThread, if_pos ⟨rfl, rfl⟩, touchTlb_thread]
  · simp only [State.performStore, buffered]
    exact ⟨rfl, by rw [storeCells_thread, thread_modThread, if_pos ⟨rfl, rfl⟩]⟩

/-- Settles O13: nothing above the alignment refuses the access, so its address traps with its record. -/
theorem misalignedAccessTraps : Obligations.MisalignedAccessTraps := by
  unfold Obligations.MisalignedAccessTraps
  intro s d b o a i lo path view traps allowed
  have all := scalar_misalignedTraps s d b o a
  have wide : ∀ x ∈ wideAccesses d b o, groupOf x.1 = .scalar ∧ MisalignedTraps s b o a x := by
    intro x listed
    refine ⟨?_, all x ?_⟩
    · revert x
      simp only [wideAccesses, List.forall_mem_cons]
      exact ⟨rfl, rfl, rfl, rfl, rfl, rfl, rfl, List.forall_mem_nil _⟩
    · simp only [wideAccesses, List.mem_cons] at listed ⊢
      tauto
  refine ⟨fun e listed => ?_, fun e listed => traps_misaligned_translated (wide e listed).2,
    fun e listed => traps_misaligned (all e listed)⟩
  have widths : e ∈ (wideAccesses d b o).map fun x => (x.1, x.2.1) := listed
  obtain ⟨x, hx, rfl⟩ := List.mem_map.mp widths
  exact traps_misaligned_own (wide x hx).2 (wide x hx).1
end
section
/-! PROOFS. Atomics, reservations and futures: what is done at a location that their checks give (R127, R129, R270 to R273, R372,
R373, R401, R418, R451). -/

namespace Sys2Proof.Machine

/-! What the translation cache and the count of a read leave. -/

section
variable (s : State) (c : Nat) (asid : BitVec 16) (path va : Nat) (kind : AccessKind)

@[simp] theorem touchTlb_cur : (s.touchTlb c asid path va kind).cur = s.cur := by
  obtain ⟨k, h⟩ := touchTlb_eq s c asid path va kind
  rw [h]

@[simp] theorem touchTlb_slot : (s.touchTlb c asid path va kind).slot = s.slot := by
  obtain ⟨k, h⟩ := touchTlb_eq s c asid path va kind
  rw [h]

theorem countRead_cases : s.countRead path = s ∨ s.countRead path = s.modTh fun t => { t with lc := t.lc + 1 } := by
  unfold State.countRead
  split
  · exact .inr rfl
  · exact .inl rfl

@[simp] theorem countRead_cur : (s.countRead path).cur = s.cur := by
  rcases countRead_cases s path with h | h <;> simp only [h, modTh_cur]

@[simp] theorem countRead_slot : (s.countRead path).slot = s.slot := by
  rcases countRead_cases s path with h | h <;> simp only [h, modTh_slot]

theorem countTry_cases : s.countTry path = s ∨ ∃ n, s.countTry path = { s with link := { s.link with portTries := n } } := by
  unfold State.countTry
  dsimp only
  split
  · exact .inr ⟨_, rfl⟩
  · exact .inl rfl

theorem countTry_readNat (loc n : Nat) : (s.countTry path).readNat loc n = s.readNat loc n := by
  rcases countTry_cases s path with h | ⟨k, h⟩
  · rw [h]
  · rw [h]; rfl

theorem countTry_effMode : (s.countTry path).effMode = s.effMode := by
  rcases countTry_cases s path with h | ⟨k, h⟩
  · rw [h]
  · rw [h]; rfl
end

/-! An atomic whose checks pass. -/

section
variable {s u : State} {a : Dword} {size scope loc : Nat} {rl : Bool}

theorem atomicAt_cur (h : AtomicAt s a size scope rl loc u) : u.cur = s.cur ∧ u.slot = s.slot := by
  obtain ⟨-, -, ⟨-, rfl⟩ | ⟨path, va, -, -, rfl⟩⟩ := h
  · exact ⟨rfl, rfl⟩
  · exact ⟨touchTlb_cur .., touchTlb_slot ..⟩

theorem atomicReads_cur (h : AtomicReads s a size scope rl loc u) : u.cur = s.cur ∧ u.slot = s.slot := by
  obtain ⟨-, v, at_, rfl⟩ := h
  rw [countRead_cur, countRead_slot]
  exact atomicAt_cur at_

theorem atomic_at (w : Word) (use : Nat → State → Res) (h : AtomicAt s a size scope rl loc u) :
    s.atomic w a size scope rl use = use loc u := by
  obtain ⟨drained, clean, place⟩ := h
  have empty : ((rl || pathByte a == 0) && !s.drained) = false := by
    cases ordered : (rl || pathByte a == 0)
    · rfl
    · simp [drained ordered]
  rcases place with ⟨reached, rfl⟩ | ⟨path, va, reached, hit, rfl⟩
  · simp only [State.atomic, reached, empty, clean, Bool.false_eq_true, if_false]
  · simp only [State.atomic, reached, empty, hit, clean, Bool.false_eq_true, if_false]

theorem atomicRead_at (w : Word) (use : Nat → State → Res) (h : AtomicReads s a size scope rl loc u) :
    s.atomicRead w a size scope rl use = use loc u := by
  obtain ⟨rule, v, at_, rfl⟩ := h
  rw [State.atomicRead, rule, if_neg (by decide), atomic_at w _ at_]
end

section
variable {s u : State} {d p t : Reg} {c : BitVec 2} {rl : Bool} {size loc : Nat}

theorem amo_at (w : Word) (op : AmoOp) (h : AtomicReads s (s.p p) size c.toNat rl loc u) (taken : portRefuses (s.p p) = false) :
    s.amo w op size d p t c rl =
      let r := op.new (8 * size) u.effMode (u.readNat loc size) (if size = 4 then (s.x t).toNat else (s.p t).toNat)
      .retire (((((if op.loops then u.countTry (pathByte (s.p p)) else u).atomicStore (pathByte (s.p p)) loc size r.1).flag
        r.2).setOld d size (u.readNat loc size))) := by
  rw [State.amo, atomicRead_at w _ h]
  simp only [taken, Bool.false_eq_true, if_false]
  split <;> simp only [countTry_readNat, countTry_effMode]

/-- An atomic's meaning is one operation of a width, whether it loops at a port, and the value it stores. -/
def AmoMeaning (s u : State) (d p t : Reg) (c : BitVec 2) (l : BitVec 1) (e : Instr × Nat × Bool × (Nat → Nat → Nat)) : Prop :=
  ∃ (m : State → Out) (op : AmoOp), exec e.1 s = m s ∧
    m s = issue e.1 (fun s => s.amo (encode e.1) op e.2.1 d p t c (l == 1)) s ∧ op.loops = e.2.2.1 ∧
      ∀ o v, op.new (8 * e.2.1) u.effMode o v = (e.2.2.2 o v, 0)

theorem amo_retires {l : BitVec 1} {e : Instr × Nat × Bool × (Nat → Nat → Nat)} (h : AmoMeaning s u d p t c l e)
    (adm : Admitted e.1 s) (at_ : AtomicReads s (s.p p) e.2.1 c.toNat (l == 1) loc u) (taken : portRefuses (s.p p) = false) :
    Retires e.1 s
      ((((if e.2.2.1 then u.countTry (pathByte (s.p p)) else u).atomicStore (pathByte (s.p p)) loc e.2.1
        (e.2.2.2 (u.readNat loc e.2.1) (if e.2.1 = 4 then (s.x t).toNat else (s.p t).toNat))).flag 0).setOld d e.2.1
          (u.readNat loc e.2.1)) := by
  obtain ⟨m, op, hx, hm, loops, new⟩ := h
  refine retires_of_body m hx hm ((amo_at _ op at_ taken).trans ?_) adm
  simp only [new, loops]

theorem cas_at (w : Word) (h : AtomicReads s (s.p p) size c.toNat rl loc u) (taken : portRefuses (s.p p) = false) :
    s.cas w size d p t c rl =
      .retire ((if u.readNat loc size = (if size = 4 then (s.x d).toNat else (s.p d).toNat)
        then u.atomicStore (pathByte (s.p p)) loc size (if size = 4 then (s.x t).toNat else (s.p t).toNat)
        else u.loseOthers u.issuer loc (loc + size)).setOld d size (u.readNat loc size)) := by
  rw [State.cas, atomicRead_at w _ h]
  simp only [taken, Bool.false_eq_true, if_false]

theorem loadReserve_at (w : Word) (h : AtomicReads s (s.p p) size c.toNat rl loc u) :
    let resv : Reservation := ⟨pathByte (s.p p), resvGranule (pathByte (s.p p)) loc size, size, u.readNat loc size⟩
    s.loadReserve w size d p c rl =
      .retire (({ u with resvs := FMap.put u.resvs (slotKey s.cur s.slot) resv } : State).setOld d size (u.readNat loc size)) := by
  obtain ⟨cur, slot⟩ := atomicReads_cur h
  rw [State.loadReserve, atomicRead_at w _ h, cur, slot]

theorem portRefuses_of_memory {a : Dword} (notA : pathByte a ≠ 0x08) (notB : pathByte a ≠ 0x09) : portRefuses a = false := by
  simp [portRefuses, notA, notB]

theorem storeCond_held (w : Word) {r : Reservation} (h : AtomicAt s (s.p p) size c.toNat rl loc u)
    (notA : pathByte (s.p p) ≠ 0x08) (notB : pathByte (s.p p) ≠ 0x09)
    (holds : u.holdsResv (pathByte (s.p p)) loc size = some r) :
    s.storeCond w size d p t c rl =
      .retire (((u.storeNat loc size (if size = 4 then (s.x t).toNat else (s.p t).toNat)).dropResv s.cur s.slot).setOld d size 1) := by
  obtain ⟨cur, slot⟩ := atomicAt_cur h
  rw [State.storeCond, atomic_at w _ h]
  simp only [holds, portRefuses_of_memory notA notB, notA, notB, or_self, Bool.false_eq_true, if_false, if_true]
  rw [← cur, ← slot]
  rfl

theorem storeCond_lost (w : Word) (h : AtomicAt s (s.p p) size c.toNat rl loc u)
    (lost : u.holdsResv (pathByte (s.p p)) loc size = none) :
    s.storeCond w size d p t c rl =
      .retire (((u.loseOthers u.issuer loc (loc + size)).dropResv s.cur s.slot).setOld d size 0) := by
  obtain ⟨cur, slot⟩ := atomicAt_cur h
  rw [State.storeCond, atomic_at w _ h]
  simp only [lost]
  rw [← cur, ← slot]
end

end Sys2Proof.Machine

open Sys2Proof Sys2Proof.Machine

/-- Settles O14: each instruction is one operation of `State.amo`, whose new value is the statement's. -/
theorem atomicResults : Obligations.AtomicResults := by
  unfold Obligations.AtomicResults
  intro s u d p t c a l loc path less e listed
  suffices all : ∀ e ∈ _, AmoMeaning s u d p t c l e from amo_retires (all e listed)
  have min_eq (o v : Nat) : (if v < o then v else o) = min v o := by split <;> omega
  have max_eq (o v : Nat) : (if o < v then v else o) = max v o := by split <;> omega
  have lowest (n : Nat) (o v : Nat) : (if signed v n < signed o n then v else o) = if less n v o then v else o := by
    simp only [less, decide_eq_true_eq]
  have highest (n : Nat) (o v : Nat) : (if signed o n < signed v n then v else o) = if less n o v then v else o := by
    simp only [less, decide_eq_true_eq]
  simp only [List.forall_mem_cons]
  exact ⟨⟨execAmoaddW d p t c a l, .add, rfl, rfl, rfl, fun _ _ => rfl⟩,
    ⟨execAmoaddD d p t c a l, .add, rfl, rfl, rfl, fun _ _ => rfl⟩,
    ⟨execAmoswapW d p t c a l, .swap, rfl, rfl, rfl, fun _ _ => rfl⟩,
    ⟨execAmoswapD d p t c a l, .swap, rfl, rfl, rfl, fun _ _ => rfl⟩,
    ⟨execAmoandW d p t c a l, .and, rfl, rfl, rfl, fun _ _ => rfl⟩,
    ⟨execAmoandD d p t c a l, .and, rfl, rfl, rfl, fun _ _ => rfl⟩,
    ⟨execAmoorW d p t c a l, .or, rfl, rfl, rfl, fun _ _ => rfl⟩,
    ⟨execAmoorD d p t c a l, .or, rfl, rfl, rfl, fun _ _ => rfl⟩,
    ⟨execAmoxorW d p t c a l, .xor, rfl, rfl, rfl, fun _ _ => rfl⟩,
    ⟨execAmoxorD d p t c a l, .xor, rfl, rfl, rfl, fun _ _ => rfl⟩,
    ⟨execAmominW d p t c a l, .min, rfl, rfl, rfl, fun o v => congrArg (·, 0) (lowest 32 o v)⟩,
    ⟨execAmominD d p t c a l, .min, rfl, rfl, rfl, fun o v => congrArg (·, 0) (lowest 64 o v)⟩,
    ⟨execAmomaxW d p t c a l, .max, rfl, rfl, rfl, fun o v => congrArg (·, 0) (highest 32 o v)⟩,
    ⟨execAmomaxD d p t c a l, .max, rfl, rfl, rfl, fun o v => congrArg (·, 0) (highest 64 o v)⟩,
    ⟨execAmominuW d p t c a l, .minu, rfl, rfl, rfl, fun o v => congrArg (·, 0) (min_eq o v)⟩,
    ⟨execAmominuD d p t c a l, .minu, rfl, rfl, rfl, fun o v => congrArg (·, 0) (min_eq o v)⟩,
    ⟨execAmomaxuW d p t c a l, .maxu, rfl, rfl, rfl, fun o v => congrArg (·, 0) (max_eq o v)⟩,
    ⟨execAmomaxuD d p t c a l, .maxu, rfl, rfl, rfl, fun o v => congrArg (·, 0) (max_eq o v)⟩, List.forall_mem_nil _⟩

/-- Settles O15: the sum is rounded once as the model's operation does, and a compare-and-swap stores where the values agree. -/
theorem floatAddAndSwapResults : Obligations.FloatAddAndSwapResults := by
  unfold Obligations.FloatAddAndSwapResults
  intro s u d p t c a l loc path at_ swap sum r
  exact ⟨fun adm h => retires_of_body (execAmofadd d p t c a l) rfl rfl (amo_at _ .fadd h.1 h.2) adm,
    fun adm h => retires_of_body (execCasW d p t c a l) rfl rfl (cas_at _ h.1 h.2) adm,
    fun adm h => retires_of_body (execCasD d p t c a l) rfl rfl (cas_at _ h.1 h.2) adm⟩

/-- Settles O16: an `lr` writes its reservation, and an `sc` finds it or does not. -/
theorem reservationPairs : Obligations.ReservationPairs := by
  unfold Obligations.ReservationPairs
  intro s u d p t c a l loc path at_ resv held stored failed
  simp only [List.forall_mem_cons]
  refine ⟨⟨fun adm h => retires_of_body (execLrW d p c a l) rfl rfl (loadReserve_at _ h) adm,
      fun adm h => retires_of_body (execLrD d p c a l) rfl rfl (loadReserve_at _ h) adm, List.forall_mem_nil _⟩,
    fun adm h notA notB => ⟨fun holds => ?_, fun lost => ?_⟩, fun adm h notA notB => ⟨fun holds => ?_, fun lost => ?_⟩,
    List.forall_mem_nil _⟩
  · obtain ⟨r, holds⟩ := Option.isSome_iff_exists.mp holds
    exact retires_of_body (execScW d p t c a l) rfl rfl (storeCond_held _ h notA notB holds) adm
  · exact retires_of_body (execScW d p t c a l) rfl rfl (storeCond_lost _ h lost) adm
  · obtain ⟨r, holds⟩ := Option.isSome_iff_exists.mp holds
    exact retires_of_body (execScD d p t c a l) rfl rfl (storeCond_held _ h notA notB holds) adm
  · exact retires_of_body (execScD d p t c a l) rfl rfl (storeCond_lost _ h lost) adm
end
section
/-! PROOFS. Fences, the wait on a reservation and prefetches (R398, R399, R435, R496, R498), and the operations of futures
(R270 to R273, R401). -/

namespace Sys2Proof.Machine

/-! Operations of the slices change no thread. -/

@[simp] theorem modSlice_thread (s : State) (n : Nat) (f : Slice → Slice) (c m : Nat) : (s.modSlice n f).thread c m = s.thread c m :=
  rfl

/-- A change of a core that leaves its threads leaves every thread. -/
theorem setCore_thread {s : State} {c : Nat} {k : Core} (h : k.cx.threads = (s.core c).cx.threads) (d m : Nat) :
    (s.setCore c k).thread d m = s.thread d m := by
  unfold State.thread
  rw [core_setCore]
  split
  next same => rw [same, Core.thread, h, ← Core.thread]
  next => rfl

@[simp] theorem queueWalk_thread (s : State) (r : WalkReq) (c m : Nat) : (s.queueWalk r).thread c m = s.thread c m := by
  unfold State.queueWalk
  dsimp only
  split <;> rfl

/-- An operation that changes no thread changes none when it is done for every element of a list. -/
theorem foldl_thread {α : Type} (f : State → α → State) (kept : ∀ s a c m, (f s a).thread c m = s.thread c m) (l : List α)
    (s : State) (c m : Nat) : (l.foldl f s).thread c m = s.thread c m := by
  induction l generalizing s with
  | nil => rfl
  | cons a l ih => exact (ih (f s a)).trans (kept s a c m)

@[simp] theorem moveWalks_thread (s : State) (n c m : Nat) : (s.moveWalks n).thread c m = s.thread c m := by
  unfold State.moveWalks
  dsimp only
  split
  · rfl
  · exact foldl_thread _ (fun s e c m => foldl_thread _ queueWalk_thread _ s c m) _ _ c m

@[simp] theorem askWalk_thread (s : State) (r : WalkReq) (c m : Nat) : (s.askWalk r).thread c m = s.thread c m := by
  rw [State.askWalk, queueWalk_thread, moveWalks_thread, pm_thread]

theorem queueWork_thread {s t : State} {n : Nat} {w : AgentWork} (h : s.queueWork n w = some t) (c m : Nat) :
    t.thread c m = s.thread c m := by
  unfold State.queueWork at h
  dsimp only at h
  split at h
  · cases h
  · cases h
    exact setCore_thread (by rfl) c m

theorem raiseLine_thread (s : State) (n kind : Nat) (owner : BitVec 16) (e : LineEvent) (c m : Nat) :
    (s.raiseLine n kind owner e).1.thread c m = s.thread c m := by
  unfold State.raiseLine
  split
  · rfl
  · dsimp only
    split
    next t queued =>
      rw [← queueWork_thread queued c m]
      dsimp only
      split <;> rfl
    next => rfl

theorem missLine_thread (s : State) (e : LineEvent) (c m : Nat) : (s.missLine e).thread c m = s.thread c m := by
  unfold State.missLine
  dsimp only
  split
  · rfl
  · exact raiseLine_thread s _ _ _ e c m

theorem fetchLine_thread (s : State) (d : Nat) (p : Prefetch) (t : TlbEntry) (c m : Nat) :
    (s.fetchLine d p t).thread c m = s.thread c m := by
  unfold State.fetchLine
  dsimp only
  split
  · rfl
  · exact missLine_thread s _ c m

theorem startPrefetch_thread (s : State) (d : Nat) (p : Prefetch) (c m : Nat) :
    (s.startPrefetch d p).thread c m = s.thread c m := by
  unfold State.startPrefetch
  split
  · rw [fetchLine_thread, touchTlb_thread]
  · rw [askWalk_thread]
    exact setCore_thread (by rfl) c m

theorem prefetch_thread (s : State) (h : Nat) (a : Dword) (c m : Nat) : (s.prefetch h a).thread c m = s.thread c m := by
  unfold State.prefetch
  split
  · exact startPrefetch_thread s _ _ c m
  · rfl

/-! The path of a place. -/

theorem pathByte_and_line (a : Dword) : pathByte (a &&& ~~~(127 : Dword)) = pathByte a := by
  have same : (a &&& ~~~(127 : Dword)) >>> 56 = a >>> 56 := by
    rw [BitVec.ushiftRight_and_distrib]
    have ones : ~~~(127 : Dword) >>> 56 = 0xFF := by decide
    rw [ones]
    apply BitVec.eq_of_toNat_eq
    rw [BitVec.toNat_and, BitVec.toNat_ushiftRight]
    have high := a.isLt
    have low : a.toNat >>> 56 < 2 ^ 8 := by rw [Nat.shiftRight_eq_div_pow]; omega
    exact (Nat.and_two_pow_sub_one_eq_mod _ 8).trans (Nat.mod_eq_of_lt low)
  have h := congrArg BitVec.toNat same
  simp only [BitVec.toNat_ushiftRight, Nat.shiftRight_eq_div_pow] at h
  rw [pathByte, bits, h]
  rfl

theorem region_virt {s : State} {i : Issuer} {a : Dword} {lo hi path va : Nat}
    (h : (s.region i a lo hi).2 = .virt path va) : isTranslated (pathByte a) = true := by
  by_contra off
  unfold State.region at h
  rw [if_neg off] at h
  repeat' (split at h <;> try dsimp only at h)
  all_goals cases h

theorem reach_virt {s : State} {i : Issuer} {a : Dword} {size lo hi path va : Nat} {acc : Access}
    (h : s.reach i a size lo hi acc = .to (.virt path va)) : isTranslated (pathByte a) = true := by
  unfold State.reach at h
  dsimp only at h
  repeat' split at h
  all_goals try cases h
  all_goals exact region_virt (Reach.to.inj h)

theorem prefetch_off {s : State} {a : Dword} (off : isTranslated (pathByte a) = false) (h : Nat) : s.prefetch h a = s := by
  unfold State.prefetch
  split
  next path va reached => exact absurd (reach_virt reached) (by simp [off])
  next => rfl

/-! A cell whose checks pass. -/

theorem touchTlb_issuer (s : State) (c : Nat) (asid : BitVec 16) (path va : Nat) (kind : AccessKind) :
    (s.touchTlb c asid path va kind).issuer = s.issuer := by
  rw [State.issuer, State.issuer, touchTlb_cur, touchTlb_slot, State.issuerOf, State.issuerOf, touchTlb_thread]

section
variable {s u : State} {c : Dword} {loc : Nat}

theorem onCell_at (w : Word) (use : Nat → State → Res) (h : CellAt s c loc u) : s.onCell w c use = use loc u := by
  obtain ⟨path, aligned, drained, ⟨p, reached⟩, hit, clean, rfl⟩ := h
  simp only [State.onCell, path, aligned, drained, reached, hit, clean, ne_eq, not_true_eq_false, if_false, Bool.not_true,
    Bool.false_eq_true, touchTlb_issuer]

theorem cellAt_th (h : CellAt s c loc u) : u.cur = s.cur ∧ u.slot = s.slot ∧ u.th = s.th := by
  obtain ⟨-, -, -, -, -, -, rfl⟩ := h
  have cur := touchTlb_cur s s.cur s.act.asid 0 (bits c.toNat 0 56) .atomic
  have slot := touchTlb_slot s s.cur s.act.asid 0 (bits c.toNat 0 56) .atomic
  have same : (s.touchTlb s.cur s.act.asid 0 (bits c.toNat 0 56) .atomic).th = s.th := by
    rw [State.th, cur, slot, touchTlb_thread, State.th]
  exact ⟨cur, slot, same⟩

theorem cellFull_iff (u : State) (loc : Nat) : u.cellFull loc = true ↔ u.readNat (loc + 8) 1 % 2 = 1 := by
  simp [State.cellFull, bit, bits]

theorem cellFull_of_odd {u : State} {loc : Nat} (h : u.readNat (loc + 8) 1 % 2 = 1) : u.cellFull loc = true :=
  (cellFull_iff u loc).mpr h

theorem cellFull_of_even {u : State} {loc : Nat} (h : ¬u.readNat (loc + 8) 1 % 2 = 1) : u.cellFull loc = false :=
  Bool.eq_false_iff.mpr (mt (cellFull_iff u loc).mp h)

theorem futurePut_full {u : State} {loc : Nat} (v : Dword) (h : u.cellFull loc = true) :
    u.futurePut loc v =
      ((u.storeNat (loc + 8) 4 1).storeNat (loc + 12) 4 (min (u.readNat (loc + 12) 4 + 1) (2 ^ 32 - 1)), false) := by
  rw [State.futurePut, if_pos h]

theorem futurePut_empty {u : State} {loc : Nat} (v : Dword) (h : u.cellFull loc = false) :
    u.futurePut loc v = (((u.storeNat loc 8 v.toNat).storeNat (loc + 8) 4 1).wakeCell loc v, true) := by
  rw [State.futurePut, if_neg (by simp [h])]

end

end Sys2Proof.Machine

open Sys2Proof Sys2Proof.Machine

/-- Settles O17: each waits for what its condition names and retires; a `pf` goes through operations that change no thread. -/
theorem orderingAndWaiting : Obligations.OrderingAndWaiting := by
  unfold Obligations.OrderingAndWaiting
  intro s d a b p q c h o r e mine
  refine ⟨fun adm drained => ?_, fun adm set full => ?_, fun adm drained => ?_, fun adm none timer => ?_, fun adm none timer => ?_,
    fun adm some timer given passed => ?_, fun adm => ?_, fun adm off => ?_, fun adm => ?_⟩
  · refine retires_of_body (execFence p q c) rfl rfl (if_neg ?_) adm
    cases set : p.getLsbD 1
    · simp
    · simp [drained set]
  · rw [exec_of_meaning (execFence p q c) rfl rfl adm, if_pos (by rw [set, full]; rfl)]
  · exact retires_of_body execFencei rfl rfl (if_neg (by rw [drained]; decide)) adm
  · exact retires_of_body (execWrs d a) rfl rfl (by rw [show FMap.find _ _ = _ from none, timer]; rfl) adm
  · exact retires_of_body (execWrs d a) rfl rfl (by rw [show FMap.find _ _ = _ from none, timer]; rfl) adm
  · exact retires_of_body (execWrs d a) rfl rfl
      (by rw [show FMap.find _ _ = _ from some, timer]; exact if_pos ⟨given, passed⟩) adm
  · have kept (t : State) (threads : ∀ c m, t.thread c m = s.thread c m) : OthersKept s t ∧ RegsKept s.th (t.thread s.cur s.slot) :=
      ⟨fun c m _ => .of_eq (threads c m), .of_eq (threads _ _)⟩
    have body := exec_of_meaning (execPf b h o) rfl rfl adm
    dsimp only at body
    rcases addr : s.mAddr b o 128 with _ | a
    · rw [addr] at body
      exact ⟨s, (kept s fun _ _ => rfl).1, (kept s fun _ _ => rfl).2, body⟩
    · rw [addr] at body
      dsimp only at body
      have threads : ∀ c m, (if s.windowAllows false (a &&& ~~~(127 : Dword)) 0 128 then
          s.prefetch h.toNat (a &&& ~~~(127 : Dword)) else s).thread c m = s.thread c m := by
        intro c m
        split
        · exact prefetch_thread s _ _ c m
        · rfl
      exact ⟨_, (kept _ threads).1, (kept _ threads).2, body⟩
  · refine retires_of_body (execPf b h o) rfl rfl ?_ adm
    rcases addr : s.mAddr b o 128 with _ | a
    · rfl
    · have hint : s.prefetch h.toNat (a &&& ~~~(127 : Dword)) = s :=
        prefetch_off (by rw [pathByte_and_line]; exact off a addr) _
      dsimp only
      rw [hint, ite_self]
  · exact retires_of_body execYield rfl rfl rfl adm

/-- Settles O18: what is done at a cell whose checks pass, as the cell is full or empty and the thread is woken or parks. -/
theorem futureOperations : Obligations.FutureOperations := by
  unfold Obligations.FutureOperations
  intro s u d p t loc v full n k pa me free room listed more refused parks at_
  obtain ⟨cur, slot, th⟩ := cellAt_th at_
  have pair (r : Reg) : u.p r = s.p r := congrArg (fun t : Thread => t.getP r.toNat) th
  have act : u.act = s.act := congrArg (fun t : Thread => t.act.getD {}) th
  refine ⟨fun adm empty => ?_, fun adm held => ?_, fun adm asleep rule held => ?_, fun adm asleep rule empty => ?_,
    fun adm woken => ?_, fun adm => ?_⟩
  · refine retires_of_body (execFput d p t) rfl rfl ((onCell_at _ _ at_).trans ?_) adm
    rw [futurePut_empty _ (cellFull_of_even empty), pair]
    rfl
  · refine retires_of_body (execFput d p t) rfl rfl ((onCell_at _ _ at_).trans ?_) adm
    rw [futurePut_full _ (cellFull_of_odd held)]
    rfl
  · refine retires_of_body (execFget d p) rfl rfl ?_ adm
    rw [asleep]
    dsimp only
    rw [at_.1, rule, if_neg (by decide), onCell_at _ _ at_, if_pos (cellFull_of_odd held)]
    rfl
  · have parked (r : State) (h : u.parkFuture loc pa = r) : parks r := by
      refine (exec_of_meaning (execFget d p) rfl rfl adm).trans ?_
      dsimp only
      rw [asleep]
      dsimp only
      rw [at_.1, rule, if_neg (by decide), onCell_at _ _ at_, if_neg (by rw [cellFull_of_even empty]; decide), pair, ← h]
    have overflow : (if bit k.wtovf.toNat 63 = true then k.freeEntry n (bucketOf pa) else none) = free := by
      rw [bit_eq_testBit, BitVec.testBit_toNat]
    refine ⟨fun space => parked _ ?_, fun packed off => parked _ ?_, fun z packed entry => parked _ ?_⟩
    · rw [State.parkFuture]
      dsimp only
      rw [if_pos space, act, cur, slot]
    · rw [State.parkFuture]
      dsimp only
      rw [if_neg packed, overflow]
      rw [show free = none from off]
    · rw [State.parkFuture]
      dsimp only
      rw [if_neg packed, overflow]
      rw [show free = some z from entry, act, cur, slot]
  · refine retires_of_body (execFget d p) rfl rfl ?_ adm
    rw [woken]
    rfl
  · refine retires_of_body (execFreset d p) rfl rfl ((onCell_at _ _ at_).trans ?_) adm
    have answer : boolWord (u.cellFull loc) = if full then 1 else 0 := by
      by_cases held : full
      · rw [if_pos held, cellFull_of_odd held]; rfl
      · rw [if_neg held, cellFull_of_even held]; rfl
    rw [answer]
    rfl
end
section
/-! PROOFS. Lanes of a register (R59, R467), and the integer vector instructions lane by lane (R471, R473, R484). -/

namespace Sys2Proof.Machine

/-! Lanes of a register made of lanes. -/

theorem joinLanes_lt (w : Nat) (l : List Nat) : joinLanes w l < 2 ^ (8 * w * l.length) := by
  induction l with
  | nil => exact Nat.one_pos
  | cons a r ih =>
    have low := Nat.mod_lt a (Nat.two_pow_pos (8 * w))
    rw [joinLanes, List.length_cons, Nat.mul_add, Nat.mul_one, Nat.add_comm, Nat.pow_add, Nat.mul_comm (2 ^ _) (2 ^ _)]
    calc 2 ^ (8 * w) * joinLanes w r + a % 2 ^ (8 * w)
      _ < 2 ^ (8 * w) * joinLanes w r + 2 ^ (8 * w) := by omega
      _ = 2 ^ (8 * w) * (joinLanes w r + 1) := by ring
      _ ≤ 2 ^ (8 * w) * 2 ^ (8 * w * r.length) := Nat.mul_le_mul_left _ ih

theorem bits_joinLanes (w : Nat) (l : List Nat) (i : Nat) :
    bits (joinLanes w l) (8 * w * i) (8 * w) = l.getD i 0 % 2 ^ (8 * w) := by
  induction l generalizing i with
  | nil => simp [joinLanes, bits]
  | cons a r ih =>
    have low := Nat.mod_lt a (Nat.two_pow_pos (8 * w))
    cases i with
    | zero =>
      rw [joinLanes, bits, Nat.mul_zero, pow_zero, Nat.div_one, Nat.add_mul_mod_self_left, Nat.mod_mod, List.getD_cons_zero]
    | succ i =>
      rw [List.getD_cons_succ, ← ih i, joinLanes, bits, bits, Nat.mul_add, Nat.mul_one, Nat.add_comm (8 * w * i), Nat.pow_add,
        ← Nat.div_div_eq_div_mul, Nat.add_mul_div_left _ _ (Nat.two_pow_pos _), Nat.div_eq_of_lt low, Nat.zero_add]

theorem lane_ofLanes {w : Nat} {l : List Nat} (fits : 8 * w * l.length ≤ 256) (i : Nat) :
    lane (ofLanes w l) w i = l.getD i 0 % 2 ^ (8 * w) := by
  have small : joinLanes w l < 2 ^ 256 := lt_of_lt_of_le (joinLanes_lt w l) (Nat.pow_le_pow_right (by decide) fits)
  rw [lane, ofLanes, BitVec.toNat_ofNat, Nat.mod_eq_of_lt small, bits_joinLanes]

theorem lane_lt (v : Vec) (w i : Nat) : lane v w i < 2 ^ (8 * w) := Nat.mod_lt _ (Nat.two_pow_pos _)

theorem lane_ofLanes_range {w : Nat} (width : w = 1 ∨ w = 2 ∨ w = 4) (f : Nat → Nat) {i : Nat} (inside : i < lanes w) :
    lane (ofLanes w ((List.range (lanes w)).map f)) w i = f i % 2 ^ (8 * w) := by
  rw [lane_ofLanes]
  · rw [List.getD_eq_getElem _ 0 (by simpa using inside), List.getElem_map, List.getElem_range]
  · rw [List.length_map, List.length_range]
    rcases width with rfl | rfl | rfl <;> decide

/-! A vector instruction's meaning. -/

section
variable {i : Instr} {s t : State} {body : State → Res} {srcs dsts : List Nat}

/-- A vector instruction whose operands are ready retires with what the part behind the operand rule gives. -/
theorem vectorRetires_of_body (m : State → Out) (inner : State → Res) (hx : exec i s = m s) (hm : m s = issue i body s)
    (hb : body s = s.vector srcs dsts inner) (hi : inner s = .retire t) : VectorRetires i srcs dsts s t := by
  intro adm ready
  rw [Retires, exec_of_meaning m hx hm adm, hb, State.vector, ready, hi]
end

theorem putLanes_eq (s : State) (d : Reg) (k : Word) (w : Nat) {f g : Nat → Nat × FlagSet} (same : ∀ i, f i = g i) :
    s.putLanes d k w f = .retire (s.lanesInto d k w g) := by
  rw [show f = g from funext same]
  rfl

/-! Integer results. -/

theorem sealInt_eq (s : State) (f : IntFmt) (z : Int) :
    sealInt s.saturates f z =
      if s.optSat = 1 then (wrapTo (max f.lo (min f.hi z)) f.width, if f.lo ≤ z ∧ z ≤ f.hi then 0 else flagSAT)
      else (wrapTo z f.width, 0) := by
  have sat : s.saturates = true ↔ s.optSat = 1 := by simp [State.saturates]
  simp only [sealInt, sat, satInt_eq_clamp]
  rfl

theorem foldl_add_eq_add_sum {α : Type} (f : α → Int) (l : List α) (z : Int) :
    l.foldl (fun v t => v + f t) z = z + (l.map f).sum := by
  induction l generalizing z with
  | nil => simp
  | cons a l ih => rw [List.foldl_cons, ih, List.map_cons, List.sum_cons, Int.add_assoc]

section
variable {i : Instr} {s : State} {d a b : Reg} {k y : BitVec 3} {u : BitVec 1} {body : State → Res}

theorem vecInt2_retires (m : State → Out) (op : IntFmt → Nat → Nat → Nat × FlagSet) {g : Nat → Nat × FlagSet}
    (hx : exec i s = m s) (hm : m s = issue i body s) (hb : body s = s.vecInt2 d a b k y u op)
    (same : ∀ j, op (elemOf y u).ifmt (lane (s.vsrc a.toNat) (elemOf y u).bytes j) (lane (s.vsrc b.toNat) (elemOf y u).bytes j) = g j) :
    VectorRetires i [a.toNat, b.toNat] [d.toNat] s (s.lanesInto d (s.k k) (elemOf y u).bytes g) :=
  vectorRetires_of_body m _ hx hm hb (putLanes_eq s d (s.k k) _ same)

theorem vecInt1_retires (m : State → Out) (op : IntFmt → Nat → Nat × FlagSet) {g : Nat → Nat × FlagSet}
    (hx : exec i s = m s) (hm : m s = issue i body s) (hb : body s = s.vecInt1 d a k y op)
    (same : ∀ j, op (elemOf y 0).ifmt (lane (s.vsrc a.toNat) (elemOf y 0).bytes j) = g j) :
    VectorRetires i [a.toNat] [d.toNat] s (s.lanesInto d (s.k k) (elemOf y 0).bytes g) :=
  vectorRetires_of_body m _ hx hm hb (putLanes_eq s d (s.k k) _ same)
end

end Sys2Proof.Machine

open Sys2Proof Sys2Proof.Machine

/-- Settles O19: a register made of lanes gives each of them back, cut to its width. -/
theorem lanesOfAResult : Obligations.LanesOfAResult := by
  unfold Obligations.LanesOfAResult
  intro k w old f i width inside
  rw [mapLanes, lane_ofLanes_range width _ inside, active]
  split
  · rfl
  · exact Nat.mod_eq_of_lt (lane_lt old w i)

/-- Settles O20: each instruction writes lanes of one operation on its sources' lanes; where it saturates the clamp is the
statement's. -/
theorem vectorIntegerResults : Obligations.VectorIntegerResults := by
  unfold Obligations.VectorIntegerResults
  intro s d a b k y u e f n bitsOf p q r dec sealed acc dot two one
  refine ⟨?vadd, ?vsub, ?vmul, ?vmin, ?vmax, ?unsigned, ?vclamp, ?vdot⟩
  case vadd => exact vecInt2_retires (execVadd d a b k y u) _ rfl rfl rfl fun j => sealInt_eq s f _
  case vsub => exact vecInt2_retires (execVsub d a b k y u) _ rfl rfl rfl fun j => sealInt_eq s f _
  case vmul => exact vecInt2_retires (execVmul d a b k y u) _ rfl rfl rfl fun j => sealInt_eq s f _
  case vmin => exact vecInt2_retires (execVmin d a b k y u) _ rfl rfl rfl fun j => rfl
  case vmax => exact vecInt2_retires (execVmax d a b k y u) _ rfl rfl rfl fun j => rfl
  case unsigned =>
    rintro rfl
    exact ⟨vecInt2_retires (execVand d a b k y) _ rfl rfl rfl fun j => rfl,
      vecInt2_retires (execVor d a b k y) _ rfl rfl rfl fun j => rfl,
      vecInt2_retires (execVxor d a b k y) _ rfl rfl rfl fun j => rfl,
      vecInt2_retires (execVandn d a b k y) _ rfl rfl rfl fun j => rfl,
      vecInt2_retires (execVsll d a b k y) _ rfl rfl rfl fun j => rfl,
      vecInt2_retires (execVsrl d a b k y) _ rfl rfl rfl fun j => rfl,
      vecInt2_retires (execVsra d a b k y) _ rfl rfl rfl fun j => rfl,
      vecInt1_retires (execVabs d a k y) _ rfl rfl rfl fun j => sealInt_eq s f _,
      vecInt1_retires (execVneg d a k y) _ rfl rfl rfl fun j => sealInt_eq s f _,
      vecInt1_retires (execVpopc d a k y) _ rfl rfl rfl fun j => rfl⟩
  case vclamp =>
    exact vectorRetires_of_body (execVclamp d a b k y u) _ rfl rfl rfl (putLanes_eq s d (s.k k) _ fun j => rfl)
  case vdot =>
    refine vectorRetires_of_body (execVdot d a b k y u) _ rfl rfl rfl (putLanes_eq s d (s.k k) _ fun j => ?_)
    rw [sealInt_eq, foldl_add_eq_add_sum, dotLanes, List.map_map]
    rfl
end
section
/-! PROOFS. The floating vector instructions lane by lane, and the special inputs of the four functions of R484 (R469, R472,
R473, R484). -/

namespace Sys2Proof.Machine

section
variable {i : Instr} {s : State} {d a b : Reg} {k y : BitVec 3} {body : State → Res} {g : Nat → Nat × FlagSet}

theorem vecFlt2_retires (m : State → Out) (op : FloatFmt → Num → Num → Nat × FlagSet) (hx : exec i s = m s)
    (hm : m s = issue i body s) (hb : body s = s.vecFlt2 d a b k y op)
    (same : ∀ j, op (elemOf y 0).ffmt ((elemOf y 0).num (lane (s.vsrc a.toNat) (elemOf y 0).bytes j))
      ((elemOf y 0).num (lane (s.vsrc b.toNat) (elemOf y 0).bytes j)) = g j) :
    VectorRetires i [a.toNat, b.toNat] [d.toNat] s (s.lanesInto d (s.k k) (elemOf y 0).bytes g) :=
  vectorRetires_of_body m _ hx hm hb (putLanes_eq s d (s.k k) _ same)

theorem vecFlt1_retires (m : State → Out) (op : FloatFmt → Num → Nat × FlagSet) (hx : exec i s = m s)
    (hm : m s = issue i body s) (hb : body s = s.vecFlt1 d a k y op)
    (same : ∀ j, op (elemOf y 0).ffmt ((elemOf y 0).num (lane (s.vsrc a.toNat) (elemOf y 0).bytes j)) = g j) :
    VectorRetires i [a.toNat] [d.toNat] s (s.lanesInto d (s.k k) (elemOf y 0).bytes g) :=
  vectorRetires_of_body m _ hx hm hb (putLanes_eq s d (s.k k) _ same)

theorem vecFlt3_retires (m : State → Out) (op : FloatFmt → Num → Num → Num → Nat × FlagSet) (hx : exec i s = m s)
    (hm : m s = issue i body s) (hb : body s = s.vecFlt3 d a b k y op)
    (same : ∀ j, op (elemOf y 0).ffmt ((elemOf y 0).num (lane (s.vsrc a.toNat) (elemOf y 0).bytes j))
      ((elemOf y 0).num (lane (s.vsrc b.toNat) (elemOf y 0).bytes j))
      ((elemOf y 0).num (lane (s.vsrc d.toNat) (elemOf y 0).bytes j)) = g j) :
    VectorRetires i [a.toNat, b.toNat, d.toNat] [d.toNat] s (s.lanesInto d (s.k k) (elemOf y 0).bytes g) :=
  vectorRetires_of_body m _ hx hm hb (putLanes_eq s d (s.k k) _ same)
end

/-! The special inputs (R484). -/

theorem roundFloat_of_ne_zero (f : FloatFmt) (mode : RoundMode) (ocp neg : Bool) {m : Nat} (nonzero : m ≠ 0) (e : Int) :
    roundFloat f mode ocp (.fin neg m e) = roundFinite f mode ocp neg m e false := by
  cases m with
  | zero => exact absurd rfl nonzero
  | succ m => rfl

theorem rcpNum_two_pow (f : FloatFmt) (mode : RoundMode) (neg : Bool) {j : Nat} (within : j ≤ 128) (z : Int) :
    rcpNum f mode (.fin neg (2 ^ j) z) = roundFloat f mode false (.fin neg (2 ^ (128 - j)) (-128 - z)) := by
  have quotient : 2 ^ 128 / 2 ^ j = 2 ^ (128 - j) := Nat.pow_div within (by decide)
  have exact_ : 2 ^ 128 % 2 ^ j = 0 := Nat.mod_eq_zero_of_dvd (pow_dvd_pow 2 within)
  rw [rcpNum, if_neg (Nat.two_pow_pos j).ne', quotient, exact_, roundFloat_of_ne_zero f mode false neg (Nat.two_pow_pos _).ne']
  rfl

theorem log2Num_negative (f : FloatFmt) (mode : RoundMode) {m : Nat} (nonzero : m ≠ 0) (z : Int) :
    log2Num f mode (.fin true m z) = (f.canonNaN, flagNV) := by
  rw [log2Num, if_neg nonzero, if_pos rfl]

theorem rsqrtNum_negative (f : FloatFmt) (mode : RoundMode) {m : Nat} (nonzero : m ≠ 0) (z : Int) :
    rsqrtNum f mode (.fin true m z) = (f.canonNaN, flagNV) := by
  rw [rsqrtNum, if_neg nonzero, if_pos rfl]

end Sys2Proof.Machine

open Sys2Proof Sys2Proof.Machine

/-- Settles O21: each instruction writes lanes of the model's operation on its sources' values; the special inputs are the
functions' own first cases. -/
theorem vectorFloatResults : Obligations.VectorFloatResults := by
  unfold Obligations.VectorFloatResults
  intro s d a b k y e f mode p q r round exact_ fused pairs dot three two one
  refine ⟨?vaddf, ?vsubf, ?vmulf, ?vminf, ?vmaxf, ?vabsf, ?vnegf, ?vfma, ?vfms, ?vclampf, ?dot,
    ?vexp2, ?vlog2, ?vrcp, ?vrsqrt, ?special⟩
  case vaddf => exact vecFlt2_retires (execVaddF d a b k y) _ rfl rfl rfl fun j => rfl
  case vsubf => exact vecFlt2_retires (execVsubF d a b k y) _ rfl rfl rfl fun j => rfl
  case vmulf => exact vecFlt2_retires (execVmulF d a b k y) _ rfl rfl rfl fun j => rfl
  case vminf => exact vecFlt2_retires (execVminF d a b k y) _ rfl rfl rfl fun j => rfl
  case vmaxf => exact vecFlt2_retires (execVmaxF d a b k y) _ rfl rfl rfl fun j => rfl
  case vabsf => exact vecFlt1_retires (execVabsF d a k y) _ rfl rfl rfl fun j => rfl
  case vnegf => exact vecFlt1_retires (execVnegF d a k y) _ rfl rfl rfl fun j => rfl
  case vfma => exact vecFlt3_retires (execVfma d a b k y) _ rfl rfl rfl fun j => rfl
  case vfms => exact vecFlt3_retires (execVfms d a b k y) _ rfl rfl rfl fun j => rfl
  case vclampf => exact vecFlt3_retires (execVclampF d a b k y) _ rfl rfl rfl fun j => rfl
  case vexp2 => exact vecFlt1_retires (execVexp2 d a k y) _ rfl rfl rfl fun j => rfl
  case vlog2 => exact vecFlt1_retires (execVlog2 d a k y) _ rfl rfl rfl fun j => rfl
  case vrcp => exact vecFlt1_retires (execVrcp d a k y) _ rfl rfl rfl fun j => rfl
  case vrsqrt => exact vecFlt1_retires (execVrsqrt d a k y) _ rfl rfl rfl fun j => rfl
  case dot =>
    refine vectorRetires_of_body (execVdotF d a b k y) _ rfl rfl rfl (putLanes_eq s d (s.k k) _ fun j => ?_)
    rw [dotLanes, List.map_map]
    rfl
  case special =>
    intro g neg m j z nan invalid infinite zero
    exact ⟨rfl, rfl, rfl, rfl, rfl, rfl, rfl, rfl, rfl, rfl, rfl, rfl, rfl, rfl, rfl, rfl,
      fun nonzero => ⟨log2Num_negative g mode nonzero z, rsqrtNum_negative g mode nonzero z⟩,
      fun within => rcpNum_two_pow g mode neg within z⟩
end
section
/-! PROOFS. What a vector comparison writes to its mask (R479), and the moves between lanes and x registers (R477, R479, R491). -/

namespace Sys2Proof.Machine

/-! The bits of a word whose field is replaced. -/

theorem setBits_eq (v lo n f : Nat) :
    setBits v lo n f = 2 ^ (lo + n) * (v / 2 ^ (lo + n)) + (2 ^ lo * (f % 2 ^ n) + v % 2 ^ lo) := by
  have low := Nat.div_add_mod v (2 ^ lo)
  have high := Nat.div_add_mod (v / 2 ^ lo) (2 ^ n)
  have field : v / 2 ^ lo % 2 ^ n * 2 ^ lo ≤ v :=
    le_trans (Nat.mul_le_mul_right _ (Nat.mod_le _ _)) (Nat.div_mul_le_self v _)
  rw [setBits, bits, Nat.pow_add, ← Nat.div_div_eq_div_mul]
  have whole : v = 2 ^ lo * (2 ^ n * (v / 2 ^ lo / 2 ^ n) + v / 2 ^ lo % 2 ^ n) + v % 2 ^ lo := by rw [high, low]
  have split : 2 ^ lo * (2 ^ n * (v / 2 ^ lo / 2 ^ n) + v / 2 ^ lo % 2 ^ n) =
      2 ^ lo * 2 ^ n * (v / 2 ^ lo / 2 ^ n) + v / 2 ^ lo % 2 ^ n * 2 ^ lo := by ring
  rw [split] at whole
  rw [Nat.mul_comm (2 ^ lo) (f % 2 ^ n)]
  omega

theorem testBit_setBits (v lo n f b : Nat) :
    (setBits v lo n f).testBit b = if lo ≤ b ∧ b < lo + n then f.testBit (b - lo) else v.testBit b := by
  have low := Nat.mod_lt v (Nat.two_pow_pos lo)
  have field := Nat.mod_lt f (Nat.two_pow_pos n)
  have small : 2 ^ lo * (f % 2 ^ n) + v % 2 ^ lo < 2 ^ (lo + n) := by
    rw [Nat.pow_add]
    calc 2 ^ lo * (f % 2 ^ n) + v % 2 ^ lo
      _ < 2 ^ lo * (f % 2 ^ n + 1) := by rw [Nat.mul_add]; omega
      _ ≤ 2 ^ lo * 2 ^ n := Nat.mul_le_mul_left _ field
  rw [setBits_eq, Nat.testBit_two_pow_mul_add _ small, Nat.testBit_two_pow_mul_add _ low]
  by_cases below : b < lo
  · rw [if_pos (by omega), if_pos below, if_neg (by omega), Nat.testBit_mod_two_pow]
    simp [below]
  · by_cases inside : b < lo + n
    · rw [if_pos inside, if_neg below, if_pos (by omega), Nat.testBit_mod_two_pow]
      simp [show b - lo < n by omega]
    · rw [if_neg inside, if_neg (by omega), Nat.testBit_div_two_pow, Nat.sub_add_cancel (by omega)]

/-! The mask of a comparison. -/

theorem testBit_compareFold (k : Word) (old : Nat) {w : Nat} (positive : 0 < w) (rel : Nat → Bool) (n b : Nat) :
    ((List.range n).foldl (fun m i =>
      if active k w i then setBits m (w * i) w (if rel i then 2 ^ w - 1 else 0) else m) old).testBit b =
      if b / w < n ∧ active k w (b / w) = true then rel (b / w) else old.testBit b := by
  induction n with
  | zero => simp
  | succ n ih =>
    rw [List.range_succ, List.foldl_append, List.foldl_cons, List.foldl_nil]
    have lane_iff : b / w = n ↔ w * n ≤ b ∧ b < w * n + w := by
      rw [Nat.div_eq_iff positive, Nat.mul_comm n w]
      omega
    by_cases on : active k w n = true
    · rw [if_pos on, testBit_setBits]
      by_cases here : b / w = n
      · have active_ : b / w < n + 1 ∧ active k w (b / w) = true := ⟨by omega, by rw [here]; exact on⟩
        rw [if_pos (lane_iff.mp here), if_pos active_, here]
        obtain ⟨above, below⟩ := lane_iff.mp here
        cases rel n
        · simp
        · simp [Nat.testBit_two_pow_sub_one, show b - w * n < w by omega]
      · rw [if_neg (mt lane_iff.mpr here), ih]
        have same : b / w < n ↔ b / w < n + 1 := by omega
        simp only [same]
    · rw [if_neg on, ih]
      by_cases here : b / w = n
      · simp [here, on]
      · have same : b / w < n ↔ b / w < n + 1 := by omega
        simp only [same]

theorem compareMask_compareBits (k old : Word) {w : Nat} (width : w = 1 ∨ w = 2 ∨ w = 4) (rel : Nat → Bool) :
    CompareMask k old (compareBits k old w rel) w rel := by
  intro j
  have positive : 0 < w := by omega
  have inside : j.val / w < lanes w := by
    rw [lanes, Nat.div_lt_iff_lt_mul positive]
    have := j.isLt
    rcases width with rfl | rfl | rfl <;> omega
  rw [compareBits, BitVec.getLsbD_ofNat, testBit_compareFold k _ positive, BitVec.testBit_toNat]
  simp [inside]

theorem elemOf_bytes (y : BitVec 3) (u : BitVec 1) : (elemOf y u).bytes = 1 ∨ (elemOf y u).bytes = 2 ∨ (elemOf y u).bytes = 4 := by
  revert y u
  decide

/-! The value that an x register takes of a lane. -/

theorem moveLane_unsigned {v : Nat} (small : v < 2 ^ 8) : moveLane (.int ⟨8, false⟩) v = BitVec.ofNat 32 v := by
  rw [moveLane, IntFmt.decode, if_neg (by decide), BitVec.ofInt_natCast, Nat.mod_eq_of_lt small]

theorem moveLane_signed {n : Nat} (positive : 0 < n) (v : Nat) :
    moveLane (.int ⟨n, true⟩) v = (BitVec.ofNat n v).signExtend 32 := by
  rw [moveLane, IntFmt.decode, if_pos rfl, ofInt_signed positive]

theorem moveLane_elemOf (y : BitVec 3) {v : Nat} (small : v < 2 ^ (8 * (elemOf y 0).bytes)) :
    moveLane (elemOf y 0) v =
      if y = 0 then (BitVec.ofNat 8 v).signExtend 32 else if y = 1 then (BitVec.ofNat 16 v).signExtend 32 else BitVec.ofNat 32 v := by
  have types : y = 0 ∨ y = 1 ∨ y = 2 ∨ (y = 3 ∨ y = 4 ∨ y = 5) ∨ y = 6 ∨ y = 7 := by
    clear small
    revert y
    decide
  rcases types with rfl | rfl | rfl | (rfl | rfl | rfl) | rfl | rfl
  · exact moveLane_signed (by decide) v
  · exact moveLane_signed (by decide) v
  · exact (moveLane_signed (by decide) v).trans (BitVec.signExtend_eq _)
  · rfl
  · rfl
  · rfl
  · exact moveLane_unsigned small
  · exact moveLane_unsigned small

/-- The relation of a comparison on the lanes of its two sources. -/
def laneRelation (s : State) (a b : Reg) (y : BitVec 3) (u : BitVec 1) (ri : Int → Int → Bool) (rf : Num → Num → Bool)
    (i : Nat) : Bool :=
  let e := elemOf y u
  let p := lane (s.vsrc a.toNat) e.bytes i
  let q := lane (s.vsrc b.toNat) e.bytes i
  match e with
  | .int f => ri (f.decode p) (f.decode q)
  | .flt f => rf (decodeFloat f p) (decodeFloat f q)

section
variable {i : Instr} {s : State} {d : BitVec 3} {a b : Reg} {k y : BitVec 3} {u : BitVec 1} {body : State → Res}

theorem compare_eq (s : State) (d : BitVec 3) (a b : Reg) (k y : BitVec 3) (u : BitVec 1) (ri : Int → Int → Bool)
    (rf : Num → Num → Bool) :
    s.compare d a b k y u ri rf = s.vector [a.toNat, b.toNat] [] fun s =>
      .retire (s.setK d (compareBits (s.k k) (s.k d) (elemOf y u).bytes (laneRelation s a b y u ri rf))) := by
  rw [State.compare]
  congr 1
  funext s
  dsimp only
  congr 3
  funext j
  unfold laneRelation
  dsimp only
  cases elemOf y u <;> rfl

theorem compare_gives (m : State → Out) (ri : Int → Int → Bool) (rf : Num → Num → Bool) (hx : exec i s = m s)
    (hm : m s = issue i body s) (hb : body s = s.compare d a b k y u ri rf) {rel : Nat → Prop}
    (same : ∀ j, laneRelation s a b y u ri rf j = true ↔ rel j) (adm : Admitted i s)
    (ready : s.vecCheck [a.toNat, b.toNat] [] = .go) :
    ∃ (m : Word) (h : Nat → Bool), (∀ j, h j = true ↔ rel j) ∧ CompareMask (s.k k) (s.k d) m (elemOf y u).bytes h ∧
      Retires i s ((s.setK d m).popSources [a.toNat, b.toNat]) :=
  ⟨_, laneRelation s a b y u ri rf, same, compareMask_compareBits _ _ (elemOf_bytes y u) _,
    vectorRetires_of_body m _ hx hm (hb.trans (compare_eq s d a b k y u ri rf)) rfl adm ready⟩
end

end Sys2Proof.Machine

open Sys2Proof Sys2Proof.Machine

/-- Settles O22: the mask is written lane by lane with the relation of the lane. -/
theorem vectorComparisons : Obligations.VectorComparisons := by
  unfold Obligations.VectorComparisons
  intro s d a b k y u e p q relation gives
  have same (ri : Int → Int → Bool) (rf : Machine.Num → Machine.Num → Bool) (pi : Int → Int → Prop) (pf : Machine.Num → Machine.Num → Prop)
      (ints : ∀ x z, ri x z = true ↔ pi x z) (nums : ∀ x z, rf x z = true ↔ pf x z) (j : Nat) :
      laneRelation s a b y u ri rf j = true ↔ relation pi pf j := by
    simp only [laneRelation, relation, e, p, q]
    cases elemOf y u
    · exact ints _ _
    · exact nums _ _
  refine ⟨?eq, ?ne, ?lt, ?le, ?gt, ?ge, fun z => ?special⟩
  case eq =>
    refine compare_gives (execVcmpEq d a b k y u) _ _ rfl rfl rfl (same _ _ (· = ·) (fun x z => eqValue x z = true) ?_ ?_)
    all_goals intro x z; simp
  case ne =>
    refine compare_gives (execVcmpNe d a b k y u) _ _ rfl rfl rfl (same _ _ (· ≠ ·) (fun x z => eqValue x z = false) ?_ ?_)
    all_goals intro x z; simp
  case lt =>
    refine compare_gives (execVcmpLt d a b k y u) _ _ rfl rfl rfl (same _ _ (· < ·) (fun x z => ltValue x z = true) ?_ ?_)
    all_goals intro x z; simp
  case le =>
    refine compare_gives (execVcmpLe d a b k y u) _ _ rfl rfl rfl
      (same _ _ (· ≤ ·) (fun x z => ltValue x z = true ∨ eqValue x z = true) ?_ ?_)
    all_goals intro x z; simp
  case gt =>
    refine compare_gives (execVcmpGt d a b k y u) _ _ rfl rfl rfl (same _ _ (· > ·) (fun x z => ltValue z x = true) ?_ ?_)
    all_goals intro x z; simp
  case ge =>
    refine compare_gives (execVcmpGe d a b k y u) _ _ rfl rfl rfl
      (same _ _ (· ≥ ·) (fun x z => ltValue z x = true ∨ eqValue x z = true) ?_ ?_)
    all_goals intro x z; simp
  case special =>
    refine ⟨rfl, ?_, rfl, ?_, fun m n => rfl⟩
    · rcases z with _ | _ | ⟨neg, m, e⟩
      · rfl
      · rfl
      · cases m <;> rfl
    · cases z <;> rfl

/-- Settles O23: each instruction writes the lanes, or the word, that the statement gives; the value that `vmvx` gives depends on
the element type alone. -/
theorem vectorMoves : Obligations.VectorMoves := by
  unfold Obligations.VectorMoves
  intro s d a b t k y e w n p q r into low widened i
  refine ⟨?vsel, ?vperm, ?vslide, ?vbcast, ?vmov, ?vmvx, fun inside => ?vinsIn, fun outside => ?vinsOut⟩
  case vsel => exact vectorRetires_of_body (execVsel d a b k y) _ rfl rfl rfl rfl
  case vperm => exact vectorRetires_of_body (execVperm d a b k y) _ rfl rfl rfl (putLanes_eq s d (s.k k) _ fun j => rfl)
  case vslide => exact vectorRetires_of_body (execVslide d a t k y) _ rfl rfl rfl (putLanes_eq s d (s.k k) _ fun j => rfl)
  case vbcast =>
    refine vectorRetires_of_body (execVbcast d a k y) _ rfl rfl rfl (putLanes_eq s d (s.k k) _ fun j => ?_)
    simp only [low, bits, pow_zero, Nat.div_one, w, e]
  case vmov => exact vectorRetires_of_body (execVmov d a k y) _ rfl rfl rfl (putLanes_eq s d (s.k k) _ fun j => rfl)
  case vmvx =>
    refine vectorRetires_of_body (execVmvx d a t y) _ rfl rfl rfl (congrArg (fun v => Res.retire (s.setX d v)) ?_)
    exact if_congr Iff.rfl (moveLane_elemOf y (lane_lt _ _ _)) rfl
  case vinsIn =>
    refine vectorRetires_of_body (execVins d a t y) _ rfl rfl rfl ((if_pos inside).trans ?_)
    simp only [bits, pow_zero, Nat.div_one]
    rfl
  case vinsOut => exact vectorRetires_of_body (execVins d a t y) _ rfl rfl rfl (if_neg (Nat.not_lt.mpr outside))
end
section
/-! PROOFS. Reductions, the prefix sum and the running top eight (R475, R476, R492, R493). -/

namespace Sys2Proof.Machine

/-! The order of the values (R149): −∞, the finite values with −0 below +0, +∞, and NaN below them all. -/

/-- The rational number that a finite value is. -/
def Num.value : Num → ℚ
  | .fin neg m e => (if neg then -1 else 1) * m * 2 ^ e
  | _ => 0

/-- A value's place in the order. -/
def Num.rank : Num → ℤ ×ₗ ℚ ×ₗ ℤ
  | .nan => toLex (-2, toLex (0, 0))
  | .inf neg => toLex (if neg then -1 else 1, toLex (0, 0))
  | .fin neg m e => toLex (0, toLex ((Num.fin neg m e).value, if neg then 0 else 1))

theorem scaled_mul_two_pow {neg : Bool} {m : Nat} {e q : Int} (below : q ≤ e) :
    ((Num.fin neg m e).scaled q : ℚ) * 2 ^ q = (Num.fin neg m e).value := by
  have power : ((2 : ℚ) ^ (e - q).toNat) * 2 ^ q = 2 ^ e := by
    rw [← zpow_natCast, Int.toNat_of_nonneg (by omega), ← zpow_add₀ two_ne_zero, Int.sub_add_cancel]
  cases neg
  · simp only [Num.scaled, Num.value, Bool.false_eq_true, if_false]
    push_cast
    rw [mul_assoc, power, one_mul]
  · simp only [Num.scaled, Num.value, if_true]
    push_cast
    rw [neg_mul, mul_assoc, power]
    ring

theorem ltNum_fin (s t : Bool) (m n : Nat) (e f : Int) :
    ltNum (.fin s m e) (.fin t n f) = true ↔ (Num.fin s m e).rank < (Num.fin t n f).rank := by
  have positive : (0 : ℚ) < 2 ^ min e f := zpow_pos two_pos _
  have left := scaled_mul_two_pow (neg := s) (m := m) (min_le_left e f)
  have right := scaled_mul_two_pow (neg := t) (m := n) (min_le_right e f)
  have less : (Num.fin s m e).scaled (min e f) < (Num.fin t n f).scaled (min e f) ↔
      (Num.fin s m e).value < (Num.fin t n f).value := by
    rw [← left, ← right, mul_lt_mul_iff_left₀ positive, Int.cast_lt]
  have same : (Num.fin s m e).scaled (min e f) = (Num.fin t n f).scaled (min e f) ↔
      (Num.fin s m e).value = (Num.fin t n f).value := by
    rw [← left, ← right, mul_left_inj' positive.ne', Int.cast_inj]
  simp only [ltNum, Num.rank, Prod.Lex.toLex_lt_toLex, lt_self_iff_false, true_and, false_or, Num.exp, Bool.or_eq_true,
    Bool.and_eq_true, decide_eq_true_eq, less, same]
  cases s <;> cases t <;> simp

theorem ltNum_iff {a b : Num} (ha : a.isNaN = false) (hb : b.isNaN = false) : ltNum a b = true ↔ a.rank < b.rank := by
  rcases a with _ | s | ⟨s, m, e⟩
  · cases ha
  · rcases b with _ | t | ⟨t, n, f⟩
    · cases hb
    · cases s <;> cases t <;> simp [ltNum, Num.rank, Prod.Lex.toLex_lt_toLex]
    · cases s <;> simp [ltNum, Num.rank, Prod.Lex.toLex_lt_toLex]
  · rcases b with _ | t | ⟨t, n, f⟩
    · cases hb
    · cases t <;> simp [ltNum, Num.rank, Prod.Lex.toLex_lt_toLex]
    · exact ltNum_fin s t m n e f

theorem rank_nan_lt {a : Num} (h : a.isNaN = false) : Num.nan.rank < a.rank := by
  rcases a with _ | s | ⟨s, m, e⟩
  · cases h
  · cases s <;> simp [Num.rank, Prod.Lex.toLex_lt_toLex]
  · simp [Num.rank, Prod.Lex.toLex_lt_toLex]

theorem isNaN_eq_true {a : Num} (h : a.isNaN = true) : a = .nan := by
  cases a
  · rfl
  · cases h
  · cases h

theorem above_iff (a b : Num) : (ltNum b a || (!a.isNaN && b.isNaN)) = true ↔ b.rank < a.rank := by
  cases ha : a.isNaN
  · cases hb : b.isNaN
    · simp [ltNum_iff hb ha]
    · have nan := isNaN_eq_true hb
      subst nan
      simp [ltNum, rank_nan_lt ha]
  · have nan := isNaN_eq_true ha
    subst nan
    have none : ltNum b .nan = false := by cases b <;> rfl
    cases hb : b.isNaN
    · simp [none, (rank_nan_lt hb).le]
    · have nan := isNaN_eq_true hb
      subst nan
      simp [none]

/-! The first of the largest entries of a list. -/

/-- Walking along a list and changing to an entry only where it ranks higher ends at the first of the highest. -/
theorem foldl_first_max {α κ : Type} [LinearOrder κ] (ρ : α → κ) (p : α) (l : List α) :
    let best := l.foldl (fun x q => if ρ x < ρ q then q else x) p
    ∃ before after, p :: l = before ++ best :: after ∧ (∀ z ∈ before, ρ z < ρ best) ∧ ∀ z ∈ after, ρ z ≤ ρ best := by
  induction l generalizing p with
  | nil => exact ⟨[], [], rfl, by simp, by simp⟩
  | cons q l ih =>
    rw [List.foldl_cons]
    by_cases higher : ρ p < ρ q
    · rw [if_pos higher]
      obtain ⟨before, after, parts, lower, rest⟩ := ih q
      have top : ρ q ≤ ρ (l.foldl (fun x q => if ρ x < ρ q then q else x) q) := by
        cases before with
        | nil => exact (congrArg ρ (List.cons.inj parts).1).le
        | cons c before => exact ((congrArg ρ (List.cons.inj parts).1).trans_lt (lower c List.mem_cons_self)).le
      refine ⟨p :: before, after, by rw [parts]; rfl, fun z hz => ?_, rest⟩
      rcases List.mem_cons.mp hz with rfl | hz
      · exact lt_of_lt_of_le higher top
      · exact lower z hz
    · rw [if_neg higher]
      obtain ⟨before, after, parts, lower, rest⟩ := ih p
      cases before with
      | nil =>
        obtain ⟨same, tail⟩ := List.cons.inj parts
        refine ⟨[], q :: after, by rw [← same, ← tail]; rfl, by simp, fun z hz => ?_⟩
        rcases List.mem_cons.mp hz with rfl | hz
        · exact same ▸ not_lt.mp higher
        · exact rest z hz
      | cons c before =>
        obtain ⟨same, tail⟩ := List.cons.inj parts
        subst same
        refine ⟨p :: q :: before, after, congrArg (p :: q :: ·) tail, fun z hz => ?_, rest⟩
        rcases List.mem_cons.mp hz with rfl | hz
        · exact lower z List.mem_cons_self
        · rcases List.mem_cons.mp hz with rfl | hz
          · exact lt_of_le_of_lt (not_lt.mp higher) (lower p List.mem_cons_self)
          · exact lower z (List.mem_cons_of_mem _ hz)

theorem foldl_max {α κ : Type} [LinearOrder κ] (ρ : α → κ) (p : α) (l : List α) :
    let best := l.foldl (fun x q => if ρ x < ρ q then q else x) p
    best ∈ p :: l ∧ ∀ z ∈ p :: l, ρ z ≤ ρ best := by
  obtain ⟨before, after, parts, lower, rest⟩ := foldl_first_max ρ p l
  dsimp only
  rw [parts]
  refine ⟨by simp, fun z hz => ?_⟩
  rcases List.mem_append.mp hz with hz | hz
  · exact (lower z hz).le
  · rcases List.mem_cons.mp hz with rfl | hz
    · exact le_rfl
    · exact rest z hz

/-! Extremes of integer lanes (R475). -/

theorem reduceBy_int_max (f : IntFmt) (x : Nat) (l : List Nat) :
    reduceBy (.int f) true (x :: l) ∈ x :: l ∧ ∀ z ∈ x :: l, f.decode z ≤ f.decode (reduceBy (.int f) true (x :: l)) := by
  have best := foldl_max f.decode x l
  simpa only [reduceBy, if_true, decide_eq_true_eq] using best

theorem reduceBy_int_min (f : IntFmt) (x : Nat) (l : List Nat) :
    reduceBy (.int f) false (x :: l) ∈ x :: l ∧ ∀ z ∈ x :: l, f.decode (reduceBy (.int f) false (x :: l)) ≤ f.decode z := by
  have best := foldl_max (fun z => OrderDual.toDual (f.decode z)) x l
  simpa only [reduceBy, Bool.false_eq_true, if_false, decide_eq_true_eq, OrderDual.toDual_lt_toDual, OrderDual.toDual_le_toDual]
    using best

/-! Extremes of floating lanes (R149, R475). -/

/-- A number's rank under an order of its own, and below every number a NaN. -/
def Num.orBottom {κ : Type} (ρ : Num → κ) (a : Num) : WithBot κ := if a.isNaN then ⊥ else (ρ a : WithBot κ)

theorem orBottom_lt {κ : Type} [LinearOrder κ] (ρ : Num → κ) {a b : Num} :
    a.orBottom ρ < b.orBottom ρ ↔ b.isNaN = false ∧ (a.isNaN = false → ρ a < ρ b) := by
  unfold Num.orBottom
  cases ha : a.isNaN <;> cases hb : b.isNaN <;> simp

theorem maxNum_numbers {a b : Num} (ha : a.isNaN = false) (hb : b.isNaN = false) :
    maxNum a b = if ltNum a b then b else a := by
  cases a
  · cases ha
  all_goals
    cases b
    · cases hb
    all_goals rfl

theorem minNum_numbers {a b : Num} (ha : a.isNaN = false) (hb : b.isNaN = false) :
    minNum a b = if ltNum b a then b else a := by
  cases a
  · cases ha
  all_goals
    cases b
    · cases hb
    all_goals rfl

theorem extreme_nan (a : Num) : maxNum a .nan = a ∧ minNum a .nan = a ∧ maxNum .nan a = a ∧ minNum .nan a = a := by
  cases a <;> exact ⟨rfl, rfl, rfl, rfl⟩

theorem maxNum_eq (a b : Num) : maxNum a b = if a.orBottom Num.rank < b.orBottom Num.rank then b else a := by
  simp only [orBottom_lt]
  cases hb : b.isNaN
  · cases ha : a.isNaN
    · simp only [maxNum_numbers ha hb, ltNum_iff ha hb, true_and, forall_const]
    · simp [isNaN_eq_true ha, extreme_nan]
  · simp [isNaN_eq_true hb, extreme_nan]

theorem minNum_eq (a b : Num) :
    minNum a b = if a.orBottom (fun n => OrderDual.toDual n.rank) < b.orBottom (fun n => OrderDual.toDual n.rank) then b
      else a := by
  simp only [orBottom_lt, OrderDual.toDual_lt_toDual]
  cases hb : b.isNaN
  · cases ha : a.isNaN
    · simp only [minNum_numbers ha hb, ltNum_iff hb ha, true_and, forall_const]
    · simp [isNaN_eq_true ha, extreme_nan]
  · simp [isNaN_eq_true hb, extreme_nan]

/-- Walking along a list with an extreme of an order ends at NaN where there is no number, and else at a number that none ranks
above. -/
theorem foldl_extreme {κ : Type} [LinearOrder κ] (ρ : Num → κ) {op : Num → Num → Num}
    (hop : ∀ a b, op a b = if a.orBottom ρ < b.orBottom ρ then b else a) (p : Num) (l : List Num) :
    l.foldl op p ∈ p :: l ∧ ((∀ z ∈ p :: l, z.isNaN = true) ∨
      (l.foldl op p).isNaN = false ∧ ∀ z ∈ p :: l, z.isNaN = false → ρ z ≤ ρ (l.foldl op p)) := by
  have step : op = fun x q => if x.orBottom ρ < q.orBottom ρ then q else x := funext₂ hop
  obtain ⟨listed, top⟩ := foldl_max (fun n : Num => n.orBottom ρ) p l
  rw [← step] at listed top
  refine ⟨listed, ?_⟩
  generalize l.foldl op p = best at top
  cases hb : best.isNaN
  · refine .inr ⟨rfl, fun z hz number => ?_⟩
    by_contra above
    exact absurd (top z hz) (not_le.mpr ((orBottom_lt ρ).mpr ⟨number, fun _ => not_le.mp above⟩))
  · refine .inl fun z hz => ?_
    by_contra number
    refine absurd (top z hz) (not_le.mpr ((orBottom_lt ρ).mpr ⟨by simpa using number, fun h => ?_⟩))
    rw [hb] at h
    cases h

theorem reduceBy_flt (f : FloatFmt) (largest : Bool) (x : Nat) (l : List Nat) :
    reduceBy (.flt f) largest (x :: l) = (roundFloat f 0 false
      ((l.map (decodeFloat f)).foldl (if largest then maxNum else minNum) (decodeFloat f x))).1 := by
  rw [List.foldl_map]
  cases largest <;> rfl

theorem ltNum_nan {a b : Num} (h : a.isNaN = true ∨ b.isNaN = true) : ltNum a b = false := by
  rcases h with h | h
  · rw [isNaN_eq_true h]
    rfl
  · rw [isNaN_eq_true h]
    cases a <;> rfl

theorem foldl_extreme_cases {κ : Type} [LinearOrder κ] (ρ : Num → κ) {op : Num → Num → Num}
    (hop : ∀ a b, op a b = if a.orBottom ρ < b.orBottom ρ then b else a) (below : Num → Num → Bool)
    (number : ∀ {a b : Num}, a.isNaN = false → b.isNaN = false → (below a b = true ↔ ρ a < ρ b))
    (nan : ∀ {a b : Num}, a.isNaN = true ∨ b.isNaN = true → below a b = false) (num : Nat → Num) (x : Nat) (l : List Nat) :
    (∀ z ∈ x :: l, (num z).isNaN = true) ∧ (l.map num).foldl op (num x) = .nan ∨
      ∃ z ∈ x :: l, (num z).isNaN = false ∧ (l.map num).foldl op (num x) = num z ∧
        ∀ w ∈ x :: l, below (num z) (num w) = false := by
  obtain ⟨listed, top⟩ := foldl_extreme ρ hop (num x) (l.map num)
  rw [← List.map_cons] at listed top
  obtain ⟨z, hz, best⟩ := List.mem_map.mp listed
  rw [← best] at top ⊢
  rcases top with allNaN | ⟨isNumber, highest⟩
  · have nans : ∀ w ∈ x :: l, (num w).isNaN = true := fun w hw => allNaN _ (List.mem_map_of_mem hw)
    exact .inl ⟨nans, isNaN_eq_true (nans z hz)⟩
  · refine .inr ⟨z, hz, isNumber, rfl, fun w hw => ?_⟩
    cases hn : (num w).isNaN
    · rw [← Bool.not_eq_true, number isNumber hn, not_lt]
      exact highest _ (List.mem_map_of_mem hw) hn
    · exact nan (.inr hn)

/-- The extreme of floating lanes: NaN where no lane is a number, and else a number that no other is beyond. -/
theorem reduceBy_flt_cases (f : FloatFmt) (largest : Bool) (x : Nat) (l : List Nat) :
    (∀ z ∈ x :: l, (decodeFloat f z).isNaN = true) ∧ reduceBy (.flt f) largest (x :: l) = f.canonNaN ∨
    ∃ z ∈ x :: l, (decodeFloat f z).isNaN = false ∧
      reduceBy (.flt f) largest (x :: l) = (roundFloat f 0 false (decodeFloat f z)).1 ∧
      ∀ w ∈ x :: l, (if largest = true then ltNum (decodeFloat f z) (decodeFloat f w)
        else ltNum (decodeFloat f w) (decodeFloat f z)) = false := by
  rw [reduceBy_flt]
  cases largest
  · have extreme := foldl_extreme_cases (fun n : Num => OrderDual.toDual n.rank) minNum_eq (fun a b => ltNum b a)
      (fun ha hb => by rw [OrderDual.toDual_lt_toDual]; exact ltNum_iff hb ha) (fun h => ltNum_nan h.symm) (decodeFloat f) x l
    simp only [Bool.false_eq_true, if_false]
    rcases extreme with ⟨nans, best⟩ | ⟨z, hz, number, best, top⟩
    · exact .inl ⟨nans, by rw [best]; rfl⟩
    · exact .inr ⟨z, hz, number, by rw [best], top⟩
  · have extreme := foldl_extreme_cases Num.rank maxNum_eq ltNum ltNum_iff ltNum_nan (decodeFloat f) x l
    simp only [if_true]
    rcases extreme with ⟨nans, best⟩ | ⟨z, hz, number, best, top⟩
    · exact .inl ⟨nans, by rw [best]; rfl⟩
    · exact .inr ⟨z, hz, number, by rw [best], top⟩

/-! The order of lanes (R475) and of the entries of the running top eight (R493). -/

/-- A lane's place in the order of its type. -/
def laneRank : Elem → Nat → ℤ ×ₗ ℚ ×ₗ ℤ
  | .int f, b => toLex (f.decode b, toLex (0, 0))
  | .flt f, b => (decodeFloat f b).rank

theorem laneAbove_iff (e : Elem) (a b : Nat) : laneAbove e a b = true ↔ laneRank e b < laneRank e a := by
  cases e with
  | int f => simp [laneAbove, laneRank, Prod.Lex.toLex_lt_toLex]
  | flt f => exact above_iff _ _

theorem argMax_first {e : Elem} {l : List (Nat × Nat)} (some_ : l ≠ []) (rising : (l.map (·.1)).Pairwise (· < ·)) :
    ∃ p ∈ l, argMax e l = BitVec.ofNat 32 p.1 ∧
      ∀ q ∈ l, ¬laneAbove e q.2 p.2 = true ∧ (q.1 < p.1 → laneAbove e p.2 q.2 = true) := by
  obtain ⟨p, r, rfl⟩ := List.exists_cons_of_ne_nil some_
  obtain ⟨before, after, parts, lower, rest⟩ := foldl_first_max (fun x : Nat × Nat => laneRank e x.2) p r
  have best : argMax e (p :: r) =
      BitVec.ofNat 32 (r.foldl (fun x q => if laneRank e x.2 < laneRank e q.2 then q else x) p).1 := by
    simp only [argMax, laneAbove_iff]
  generalize r.foldl (fun x q => if laneRank e x.2 < laneRank e q.2 then q else x) p = top at parts lower rest best
  rw [parts] at rising ⊢
  rw [← parts]
  refine ⟨top, by rw [parts]; simp, best, fun q hq => ?_⟩
  simp only [laneAbove_iff, not_lt]
  rw [parts] at hq
  rw [List.map_append, List.map_cons, List.pairwise_append, List.pairwise_cons] at rising
  obtain ⟨-, ⟨later, -⟩, -⟩ := rising
  rcases List.mem_append.mp hq with hq | hq
  · exact ⟨(lower q hq).le, fun _ => lower q hq⟩
  · rcases List.mem_cons.mp hq with rfl | hq
    · exact ⟨le_rfl, fun h => absurd h (lt_irrefl _)⟩
    · exact ⟨rest q hq, fun h => absurd h (not_lt.mpr (later _ (List.mem_map_of_mem hq)).le)⟩

/-- An entry's place in the order of the running top eight: the larger key first, then the smaller index. -/
def entryRank (e : Elem) (p : Nat × Nat) : (ℤ ×ₗ ℚ ×ₗ ℤ)ᵒᵈ ×ₗ ℕ := toLex (OrderDual.toDual (laneRank e p.1), p.2)

theorem topBefore_iff (e : Elem) (a b : Nat × Nat) : topBefore e a b = true ↔ entryRank e a < entryRank e b := by
  rw [entryRank, entryRank, Prod.Lex.toLex_lt_toLex, OrderDual.toDual_lt_toDual, OrderDual.toDual_inj, topBefore]
  by_cases above : laneAbove e a.1 b.1 = true
  · simp [above, (laneAbove_iff e a.1 b.1).mp above]
  · have notAbove := mt (laneAbove_iff e a.1 b.1).mpr above
    by_cases below : laneAbove e b.1 a.1 = true
    · have less := (laneAbove_iff e b.1 a.1).mp below
      simp [above, below, notAbove, less.ne]
    · have same := le_antisymm (not_lt.mp notAbove) (not_lt.mp (mt (laneAbove_iff e b.1 a.1).mpr below))
      simp [above, below, same]

theorem topInsert_perm (e : Elem) (p : Nat × Nat) (l : List (Nat × Nat)) : (topInsert e p l).Perm (p :: l) := by
  induction l with
  | nil => exact List.Perm.refl _
  | cons q r ih =>
    rw [topInsert]
    split
    · exact List.Perm.refl _
    · exact (ih.cons q).trans (List.Perm.swap p q r)

/-- The entries stand in order. -/
def TopSorted (e : Elem) (l : List (Nat × Nat)) : Prop := l.Pairwise fun p q => entryRank e p ≤ entryRank e q

theorem topInsert_sorted {e : Elem} {l : List (Nat × Nat)} (p : Nat × Nat) (h : TopSorted e l) : TopSorted e (topInsert e p l) := by
  induction l with
  | nil => exact List.pairwise_singleton _ _
  | cons q r ih =>
    obtain ⟨first, rest⟩ := List.pairwise_cons.mp h
    rw [topInsert]
    split
    next before =>
      have less := ((topBefore_iff e p q).mp before).le
      refine List.pairwise_cons.mpr ⟨fun x hx => ?_, h⟩
      rcases List.mem_cons.mp hx with rfl | hx
      · exact less
      · exact less.trans (first x hx)
    next notBefore =>
      refine List.pairwise_cons.mpr ⟨fun x hx => ?_, ih rest⟩
      rcases List.mem_cons.mp ((topInsert_perm e p r).mem_iff.mp hx) with rfl | hx
      · exact not_lt.mp (mt (topBefore_iff e x q).mpr notBefore)
      · exact first x hx

theorem foldl_topInsert {e : Elem} (new l : List (Nat × Nat)) (h : TopSorted e l) :
    (new.foldl (fun l p => topInsert e p l) l).Perm (l ++ new) ∧ TopSorted e (new.foldl (fun l p => topInsert e p l) l) := by
  induction new generalizing l with
  | nil => exact ⟨by simp, h⟩
  | cons p new ih =>
    obtain ⟨perm, sorted⟩ := ih (topInsert e p l) (topInsert_sorted p h)
    exact ⟨perm.trans (((topInsert_perm e p l).append_right new).trans List.perm_middle.symm), sorted⟩

/-! The lists that reductions and scans walk along. -/

theorem activeLanes_eq (k : Word) (w : Nat) (v : Vec) :
    activeLanes k w v = ((List.range (32 / w)).filter fun i => k.getLsbD (w * i)).map fun i => (i, lane v w i) := rfl

theorem scanTerms_eq (k : Word) (w : Nat) (v : Vec) (i : Nat) :
    scanTerms k w v i =
      (((List.range (32 / w)).filter fun i => k.getLsbD (w * i)).filter fun j => decide (j ≤ i)).map (lane v w) := by
  rw [scanTerms, activeLanes_eq, List.filter_map, List.map_map]
  rfl

theorem ofLanes_singleton (w v : Nat) : ofLanes w [v] = BitVec.ofNat 256 (v % 2 ^ (8 * w)) := by
  rw [ofLanes, joinLanes, joinLanes, Nat.mul_zero, Nat.add_zero]

/-- The sum of lanes, wrapped, saturated or rounded once. -/
def laneSum (s : State) (e : Elem) (l : List Nat) : Nat × FlagSet :=
  match e with
  | .int f => sealInt s.saturates f (l.foldl (fun v p => v + f.decode p) 0)
  | .flt f => roundSum f s.effMode (l.map (decodeFloat f))

theorem laneSum_map (s : State) (e : Elem) (val : Nat → Nat) (l : List Nat) :
    laneSum s e (l.map val) = match e with
      | .int f => sealInt (s.optSat == 1) f ((l.map fun i => f.decode (val i)).sum)
      | .flt f => roundSum f s.effMode (l.map fun i => decodeFloat f (val i)) := by
  cases e with
  | int f =>
    simp only [laneSum, foldl_add_eq_add_sum, Int.zero_add, List.map_map]
    rfl
  | flt f =>
    simp only [laneSum, List.map_map]
    rfl

theorem putReduced_eq (s : State) (d : Reg) (w : Nat) {r q : Nat × FlagSet} (same : r = q) :
    s.putReduced d w r = .retire ((s.vput d.toNat (BitVec.ofNat 256 (q.1 % 2 ^ (8 * w)))).flag q.2) := by
  rw [same, State.putReduced, ofLanes_singleton]

end Sys2Proof.Machine

open Sys2Proof Sys2Proof.Machine

/-- Settles O25: the reductions fold along the active lanes, and the running top eight inserts each entry where it belongs. -/
theorem vectorReductions : Obligations.VectorReductions := by
  unfold Obligations.VectorReductions
  refine ⟨?results, ?argMax, ?extremes, ?topk⟩
  case results =>
    intro s d a k y u e g on val sum lane0 values
    refine ⟨?sum, ?max, ?min, ?arg, ?scan, fun f x l => ?ints⟩
    case sum =>
      refine vectorRetires_of_body (execVredsum d a k y u) _ rfl rfl rfl (putReduced_eq s d e.bytes ?_)
      rw [activeLanes_eq, List.map_map]
      exact laneSum_map s e (val e) (on e)
    case max =>
      refine vectorRetires_of_body (execVredmax d a k y u) _ rfl rfl rfl
        (putReduced_eq s d e.bytes (q := (reduceBy e true values, 0)) ?_)
      rw [activeLanes_eq, List.map_map]
      rfl
    case min =>
      refine vectorRetires_of_body (execVredmin d a k y u) _ rfl rfl rfl
        (putReduced_eq s d e.bytes (q := (reduceBy e false values, 0)) ?_)
      rw [activeLanes_eq, List.map_map]
      rfl
    case arg => exact vectorRetires_of_body (execVargmax d a k y u) _ rfl rfl rfl rfl
    case scan =>
      refine vectorRetires_of_body (execVscan d a k y) _ rfl rfl rfl (putLanes_eq s d (s.k k) _ fun i => ?_)
      rw [scanTerms_eq]
      exact laneSum_map s g (val g) ((on g).filter fun j => decide (j ≤ i))
    case ints =>
      obtain ⟨inMax, top⟩ := reduceBy_int_max f x l
      obtain ⟨inMin, bottom⟩ := reduceBy_int_min f x l
      exact ⟨inMax, top, inMin, bottom⟩
  case argMax =>
    intro e l above
    refine ⟨rfl, fun some_ rising => ?_⟩
    have aboveIff (x z : Nat) : above x z ↔ laneAbove e x z = true := by
      cases e with
      | int f => simp [above, laneAbove]
      | flt f => simp [above, laneAbove]
    simp only [aboveIff]
    exact argMax_first some_ rising
  case extremes =>
    intro f g l largest num beats
    refine ⟨rfl, rfl, fun some_ nans => ?_, fun numbers => ?_⟩
    · obtain ⟨x, r, rfl⟩ := List.exists_cons_of_ne_nil some_
      rcases reduceBy_flt_cases f largest x r with ⟨-, best⟩ | ⟨z, hz, number, -⟩
      · exact best
      · exact absurd (nans z hz) (by rw [show (num z).isNaN = false from number]; decide)
    · obtain ⟨z, hz, isNumber⟩ := numbers
      obtain ⟨x, r, rfl⟩ := List.exists_cons_of_ne_nil (List.ne_nil_of_mem hz)
      rcases reduceBy_flt_cases f largest x r with ⟨nans, -⟩ | ⟨best, hb, number, result, top⟩
      · exact absurd (nans z hz) (by rw [show (decodeFloat f z).isNaN = false from isNumber]; decide)
      · exact ⟨best, hb, number, result, top⟩
  case topk =>
    intro s d a b k y u e on held number fresh regs adm ready
    obtain ⟨perm, sorted⟩ := foldl_topInsert (e := keyElem e) (held ++ fresh) [] List.Pairwise.nil
    refine ⟨_, perm, sorted.imp fun h => ?_, ?_⟩
    · rw [← Bool.not_eq_true, topBefore_iff, not_lt]
      exact h
    · have entries : ((activeLanes (s.k k) e.bytes (s.vsrc a.toNat)).filter fun p => match e with
          | .flt f => !(decodeFloat f p.2).isNaN
          | .int _ => true).map (fun p => (topKey e p.2, (lane (s.vsrc b.toNat) 4 0 + p.1) % 2 ^ 32)) = fresh := by
        rw [activeLanes_eq, List.filter_map, List.map_map]
        rfl
      refine vectorRetires_of_body (execVtopk d a b k y u) _ rfl rfl rfl ?_ adm ready
      rw [← entries] <;> rfl
end
section
/-! PROOFS. Vector loads, stores, gathers and scatters (R486 to R490). -/

namespace Sys2Proof.Machine

section
variable {s t : State} {d : Reg} {b : BitVec 4} {k : Word} {o : BitVec 15} {a : Dword} {p : Place}

theorem vecLoad_empty (w : Word) (none_ : activeOffs k (pathLane (s.basePath b)) = []) :
    s.vecLoad w d b k o = .retire (s.vput d.toNat (s.vold d.toNat)) := by
  simp only [State.vecLoad, none_, List.isEmpty_nil, if_true]

theorem vecStore_empty (w : Word) (none_ : activeOffs k (pathLane (s.basePath b)) = []) :
    s.vecStore w d b k o = .retire s := by
  simp only [State.vecStore, none_, List.isEmpty_nil, if_true]

theorem vecLoad_leads (w : Word) {l : List Byte} (h : VectorLeads s b k o .load (loadBlocks (s.basePath b)) a p)
    (read : s.readPlace s.issuer a p (activeOffs k (pathLane (s.basePath b))) = .bytes l t) :
    s.vecLoad w d b k o = .retire ((t.countRead (s.basePath b)).vput d.toNat (ofLanes 1 ((List.range 32).map fun j =>
      match FMap.find ((activeOffs k (pathLane (s.basePath b))).zip l) j with
      | some v => v.toNat
      | none => lane (t.vold d.toNat) 1 j))) := by
  obtain ⟨some_, rule, addr, aligned, reached⟩ := h
  have rule : s.safeRule (loadBlocks (s.basePath b)) true (s.basePath b) = 0 := rule
  simp only [State.vecLoad, List.isEmpty_iff, some_, if_false, rule, addr, aligned, reached, read, ne_eq, not_true_eq_false]
    <;> rfl

theorem vecStore_leads (w : Word) (h : VectorLeads s b k o .store (storeBlocks (s.basePath b)) a p)
    (taken : s.writePlace s.issuer p ((activeOffs k (pathLane (s.basePath b))).map fun j =>
      (j, BitVec.ofNat 8 (lane (s.vsrc d.toNat) 1 j))) false = .ok t) :
    s.vecStore w d b k o = .retire t := by
  obtain ⟨some_, rule, addr, aligned, reached⟩ := h
  have rule : s.safeRule (storeBlocks (s.basePath b)) false (s.basePath b) = 0 := rule
  simp only [State.vecStore, List.isEmpty_iff, some_, if_false, rule, addr, aligned, reached, taken, ne_eq, not_true_eq_false]
end

section
variable {s t : State} {d p b : Reg} {k : Word} {y : BitVec 3} {l : List LanePlace}

/-- The active lanes of an element type. -/
def lanesOn (k : Word) (y : BitVec 3) : List Nat :=
  (List.range (32 / (elemOf y 0).bytes)).filter fun i => k.getLsbD ((elemOf y 0).bytes * i)

theorem gather_empty (w : Word) (none_ : lanesOn k y = []) : s.gather w d p b k y = .retire (s.vput d.toNat (s.vold d.toNat)) := by
  have none_ : (List.range (lanes (elemOf y 0).bytes)).filter (active k (elemOf y 0).bytes) = [] := none_
  simp only [State.gather, none_, List.isEmpty_nil, if_true]

theorem scatter_empty (w : Word) (none_ : lanesOn k y = []) : s.scatter w d p b k y = .retire s := by
  have none_ : (List.range (lanes (elemOf y 0).bytes)).filter (active k (elemOf y 0).bytes) = [] := none_
  simp only [State.scatter, none_, List.isEmpty_nil, if_true]

theorem gather_reads (w : Word) {r : List Byte} (some_ : lanesOn k y ≠ [])
    (rule : s.safeRule (loadBlocks (pathByte (s.p p))) true (pathByte (s.p p)) = 0)
    (checked : s.checkLanes (s.p p) (elemOf y 0).bytes (laneIndex (elemOf y 0) (s.vsrc b.toNat)) .load (lanesOn k y) = .ok l)
    (translated : s.laneWalk .load l = none) (read : s.readLanes (elemOf y 0).bytes l = .bytes r t) :
    let m : FMap Nat := (List.range (lanesOn k y).length).map fun j =>
      ((lanesOn k y).getD j 0, leNat ((r.drop ((elemOf y 0).bytes * j)).take (elemOf y 0).bytes))
    s.gather w d p b k y = .retire ((t.countRead (pathByte (s.p p))).vput d.toNat
      (mapLanes k (elemOf y 0).bytes (s.vold d.toNat) fun i => FMap.get m i 0)) := by
  have on : (List.range (lanes (elemOf y 0).bytes)).filter (active k (elemOf y 0).bytes) = lanesOn k y := rfl
  simp only [State.gather, on, List.isEmpty_iff, some_, if_false, rule, checked, translated, read, ne_eq, not_true_eq_false]

theorem scatter_writes (w : Word) (some_ : lanesOn k y ≠ [])
    (rule : s.safeRule (storeBlocks (pathByte (s.p p))) false (pathByte (s.p p)) = 0)
    (checked : s.checkLanes (s.p p) (elemOf y 0).bytes (laneIndex (elemOf y 0) (s.vsrc b.toNat)) .store (lanesOn k y) = .ok l)
    (translated : s.laneWalk .store l = none) (ordered : pathByte (s.p p) = 0 → s.drained = true)
    (written : s.writeLanes (elemOf y 0).bytes (s.vsrc d.toNat) l = .ok t) : s.scatter w d p b k y = .retire t := by
  have on : (List.range (lanes (elemOf y 0).bytes)).filter (active k (elemOf y 0).bytes) = lanesOn k y := rfl
  have empty : (decide (pathByte (s.p p) = 0) && !s.drained) = false := by
    by_cases zero : pathByte (s.p p) = 0
    · simp [ordered zero]
    · simp [zero]
  simp only [State.scatter, on, List.isEmpty_iff, some_, if_false, rule, checked, translated, written, empty, ne_eq,
    not_true_eq_false, Bool.false_eq_true]
end

end Sys2Proof.Machine

open Sys2Proof Sys2Proof.Machine

/-- Settles O26: the checks that the statement names are those before the access, lane by lane where it gathers or scatters. -/
theorem vectorMemoryResults : Obligations.VectorMemoryResults := by
  unfold Obligations.VectorMemoryResults
  refine ⟨?whole, ?lanes⟩
  case whole =>
    intro s t d b m o a p l k path offs loaded stored
    refine ⟨fun none_ => ?_, fun leads read => ?_, fun narrow => ?_⟩
    · exact vectorRetires_of_body (execVld d b m o) _ rfl rfl rfl (vecLoad_empty _ none_)
    · exact vectorRetires_of_body (execVld d b m o) _ rfl rfl rfl (vecLoad_leads _ leads read)
    · have option : ¬(s.opt ≠ 0 ∧ s.basePath b ≠ 0x14 ∧ s.basePath b ≠ 0x15) := by
        rintro ⟨given, notE4m3, notE5m2⟩
        rcases narrow with h | h | h
        · exact given h
        · exact notE4m3 h
        · exact notE5m2 h
      exact ⟨fun none_ => vectorRetires_of_body (execVst d b m o) _ rfl rfl (if_neg option) (vecStore_empty _ none_),
        fun leads taken => vectorRetires_of_body (execVst d b m o) _ rfl rfl (if_neg option) (vecStore_leads _ leads taken)⟩
  case lanes =>
    intro s t d p b k y l r e w path on idx lanesOf
    exact ⟨fun none_ => vectorRetires_of_body (execVldg d p b k y) _ rfl rfl rfl (gather_empty _ none_),
      fun some_ rule checked translated read =>
        vectorRetires_of_body (execVldg d p b k y) _ rfl rfl rfl (gather_reads _ some_ rule checked translated read),
      fun none_ => vectorRetires_of_body (execVsts d p b k y) _ rfl rfl rfl (scatter_empty _ none_),
      fun some_ rule checked translated ordered written => vectorRetires_of_body (execVsts d p b k y) _ rfl rfl rfl
        (scatter_writes _ some_ rule checked translated ordered written)⟩
end
section
/-! PROOFS. Arrival counters (O27), barriers, triggers and dependences (O28), and messages (O29). -/

namespace Sys2Proof.Machine

theorem waits_of_body {i : Instr} {s t : State} {body : State → Res} {w : Wait} (m : State → Out) (hx : exec i s = m s)
    (hm : m s = issue i body s) (hb : body s = .wait w t) (adm : Admitted i s) : Waits i s w t := by
  rw [Waits, exec_of_meaning m hx hm adm, hb]

/-! Counters (R192). -/

theorem reached_eq_decide (a b : Word) : reached a b = decide (0 ≤ (a - b).toInt) := by
  rw [reached, BitVec.msb_eq_toInt, ← decide_not]
  exact decide_eq_decide.mpr Int.not_lt

theorem reached_of_nonneg {a b : Word} (h : 0 ≤ (a - b).toInt) : reached a b = true := by
  rw [reached_eq_decide, decide_eq_true h]

theorem not_reached_of_neg {a b : Word} (h : (a - b).toInt < 0) : reached a b = false := by
  rw [reached_eq_decide, decide_eq_false (Int.not_le.mpr h)]

/-- A counter number below 64 has its reserved bits and the one of a remote add clear (R385). -/
theorem bits_of_counterNumber {v : Nat} (h : v < 64) :
    bits v 0 6 = v % 64 ∧ bits v 6 26 = 0 ∧ bits v 6 2 = 0 ∧ bits v 18 14 = 0 ∧ bit v 17 = false := by
  have off : bit v 17 = false := by rw [bit_eq_testBit, Nat.testBit_lt_two_pow (by omega)]
  simp only [bits]
  exact ⟨by omega, by omega, by omega, by omega, off⟩

theorem counterOk_of_number {s : State} {v : Word} (h : v.toNat < 64) (has : s.hasCounter (v.toNat % 64) = true) :
    s.counterOk v = true := by
  obtain ⟨low, rest, -⟩ := bits_of_counterNumber h
  rw [State.counterOk, low, rest, has]
  rfl

/-! A tile barrier (R377, R378). -/

/-- An arrival before the last one is counted, and takes the open phase's size from the first. -/
theorem arrive_open {b : TileBar} {n : Nat} (need : b.arrived = 0 ∨ b.need = n) (more : b.arrived + 1 < n) :
    (b.arrive n).phase = b.phase ∧ (b.arrive n).arrived = b.arrived + 1 ∧ (b.arrive n).need = n := by
  have size : (if b.arrived = 0 then n else b.need) = n := by
    split
    · rfl
    · next later => exact need.resolve_left later
  simp only [TileBar.arrive, size, if_neg (Nat.not_le.mpr more), and_self]

/-- The last arrival completes the phase. -/
theorem arrive_last {b : TileBar} {n : Nat} (need : b.arrived = 0 ∨ b.need = n) (last : b.arrived + 1 = n) :
    (b.arrive n).phase = b.phase + 1 ∧ (b.arrive n).arrived = 0 := by
  have size : (if b.arrived = 0 then n else b.need) = n := by
    split
    · rfl
    · next later => exact need.resolve_left later
  simp only [TileBar.arrive, size, last, le_refl, if_true, and_self]

/-- Before the last of `n` arrivals the phase is open and counts them. -/
theorem arrivals_before_last {b : TileBar} {n i : Nat} (empty : b.arrived = 0) (more : i < n) :
    ((fun x => x.arrive n)^[i] b).phase = b.phase ∧ ((fun x => x.arrive n)^[i] b).arrived = i ∧
      (i = 0 ∨ ((fun x => x.arrive n)^[i] b).need = n) := by
  induction i with
  | zero => exact ⟨rfl, empty, .inl rfl⟩
  | succ i ih =>
    obtain ⟨phase, count, need⟩ := ih (Nat.lt_of_succ_lt more)
    rw [Function.iterate_succ_apply']
    generalize (fun x => x.arrive n)^[i] b = x at phase count need
    subst count
    obtain ⟨phase', count', need'⟩ := arrive_open need more
    exact ⟨phase'.trans phase, count', .inr need'⟩

end Sys2Proof.Machine

open Sys2Proof Sys2Proof.Machine

/-- Settles O27: a counter number passes the checks, and serial order is the sign of the difference. -/
theorem counterOperations : Obligations.CounterOperations := by
  unfold Obligations.CounterOperations
  intro s d a t c v n u
  constructor
  · intro small has
    have ok : s.counterOk (s.x a) = true := counterOk_of_number small has
    obtain ⟨low, -, pad, pad', remote⟩ := bits_of_counterNumber small
    refine ⟨fun adm ge => ?_, fun adm lt => ?_, fun adm => ?_, fun adm => ?_, fun adm => ?_⟩
    · exact retires_of_body (execCwait d a t) rfl rfl
        (by simp only [ok, low, reached_of_nonneg ge, Bool.not_true, Bool.false_eq_true, if_true, if_false, v, n]; rfl) adm
    · exact waits_of_body (execCwait d a t) rfl rfl
        (by simp only [ok, low, not_reached_of_neg lt, Bool.not_true, Bool.false_eq_true, if_false, v, n]) adm
    · exact retires_of_body (execCset a t) rfl rfl
        (by simp only [ok, low, Bool.not_true, Bool.false_eq_true, if_false, v, n]) adm
    · exact retires_of_body (execCrd d a) rfl rfl
        (by simp only [ok, low, Bool.not_true, Bool.false_eq_true, if_false, v, n]; rfl) adm
    · exact retires_of_body (execCadd a t) rfl rfl
        (by simp only [low, pad, pad', remote, has, ne_eq, not_true_eq_false, Bool.not_true, Bool.false_eq_true, or_self, if_false,
              v, n, u]) adm
  · intro remote pad pad' has there adm
    have low : bits v 0 6 = n := by simp only [bits, n, pow_zero, Nat.div_one]; rfl
    exact retires_of_body (execCadd a t) rfl rfl
      (by simp only [low, pad, pad', remote, has, there, ne_eq, not_true_eq_false, Bool.not_true, Bool.false_eq_true, or_self,
            if_false, if_true, u, v]) adm

/-- Settles O28: the cases of each meaning, and a tile barrier's arrivals by induction on their number. -/
theorem barriersAndDependences : Obligations.BarriersAndDependences := by
  unfold Obligations.BarriersAndDependences
  refine ⟨?_, fun b n some empty => ?_, ?_⟩
  · intro s d a t c g m v u b arrived z key own
    refine ⟨retires_of_body (execBarv d a 0) rfl rfl rfl, fun scope adm mine => ?_, fun scope adm free => ?_, fun adm ge => ?_,
      fun adm lt => ?_⟩
    · exact retires_of_body (execBarv d a c) rfl rfl (by rw [if_neg scope, mine]; rfl) adm
    · exact retires_of_body (execBarv d a c) rfl rfl (by rw [if_neg scope, free]; rfl) adm
    · exact retires_of_body (execBarw a t c) rfl rfl (if_pos (reached_of_nonneg ge)) adm
    · exact waits_of_body (execBarw a t c) rfl rfl (if_neg (Bool.eq_false_iff.mp (not_reached_of_neg lt))) adm
  · refine ⟨fun i more => ?_, ?_⟩
    · obtain ⟨phase, count, -⟩ := arrivals_before_last empty more
      exact ⟨phase, count⟩
    · obtain ⟨i, rfl⟩ : ∃ i, n = i + 1 := ⟨n - 1, by omega⟩
      obtain ⟨phase, count, need⟩ := arrivals_before_last empty (Nat.lt_succ_self i)
      rw [Function.iterate_succ_apply']
      generalize (fun x => x.arrive (i + 1))^[i] b = x at phase count need
      subst count
      obtain ⟨phase', count'⟩ := arrive_last need rfl
      exact ⟨phase'.trans (congrArg (· + 1) phase), count'⟩
  · intro s d g m p u
    refine ⟨fun adm none => ?_, fun adm some => ?_, fun adm none => ?_, fun adm some all => ?_, fun adm some missing => ?_⟩
    · exact retires_of_body execTrig rfl rfl (by rw [none]) adm
    · exact retires_of_body execTrig rfl rfl (by rw [some]) adm
    · exact retires_of_body (execWaitdep d) rfl rfl (by rw [none]; rfl) adm
    · exact retires_of_body (execWaitdep d) rfl rfl (by simp only [some, all, Bool.not_true, Bool.false_eq_true, if_false]; rfl) adm
    · exact waits_of_body (execWaitdep d) rfl rfl (by simp only [some, missing, Bool.not_false, if_true]) adm

/-- Settles O29: the cases of a message that no check refuses. -/
theorem messageSends : Obligations.MessageSends := by
  unfold Obligations.MessageSends
  intro s d a t k words free sent post ok
  have sends (w : Word) (dest ctl : Word) (blocks : Bool) (passes : ok dest ctl) (credit : free dest = true) :
      s.sendMessage w d dest ctl blocks = .retire (sent dest ctl) := by
    simp only [State.sendMessage, show s.sendRefuses dest ctl s.th.build = 0 from passes, ne_eq, not_true_eq_false, if_false]
    exact if_pos credit
  have stays (w : Word) (dest ctl : Word) (blocks : Bool) (passes : ok dest ctl) (credit : free dest = false) :
      s.sendMessage w d dest ctl blocks = if blocks then .wait .credit s else s.retX d 0 := by
    simp only [State.sendMessage, show s.sendRefuses dest ctl s.th.build = 0 from passes, ne_eq, not_true_eq_false, if_false]
    exact if_neg (Bool.eq_false_iff.mp credit)
  refine ⟨retires_of_body (execMw k a) rfl rfl rfl, fun adm passes credit => ?_, fun adm passes credit => ?_,
    fun adm passes credit => ?_, fun adm passes credit => ?_, fun adm row passes => ⟨fun credit => ?_, fun credit => ?_⟩⟩
  · exact retires_of_body (execSend d a t) rfl rfl (sends _ _ _ _ passes credit) adm
  · exact retires_of_body (execSend d a t) rfl rfl (stays _ _ _ _ passes credit) adm
  · exact retires_of_body (execSendw d a t) rfl rfl (sends _ _ _ _ passes credit) adm
  · exact waits_of_body (execSendw d a t) rfl rfl (stays _ _ _ _ passes credit) adm
  · exact retires_of_body (execQpost d) rfl rfl ((if_neg (Bool.eq_false_iff.mp row)).trans (sends _ _ _ _ passes credit)) adm
  · exact retires_of_body (execQpost d) rfl rfl ((if_neg (Bool.eq_false_iff.mp row)).trans (stays _ _ _ _ passes credit)) adm
end
section
/-! PROOFS. `exit` (O31). -/

namespace Sys2Proof.Machine

section
variable {i : Instr} {s t : State} {body : State → Res} (m : State → Out)

theorem settles_of_body (hx : exec i s = m s) (hm : m s = issue i body s) (hb : body s = .done t) (adm : Admitted i s) :
    Settles i s t := by
  rw [Settles, exec_of_meaning m hx hm adm, hb]

theorem traps_of_body {code : Nat} {tval : Dword} (hx : exec i s = m s) (hm : m s = issue i body s)
    (hb : body s = .trap code tval s) (adm : Admitted i s) : Traps i s code tval s := by
  rw [Traps, exec_of_meaning m hx hm adm, hb]
end

end Sys2Proof.Machine

open Sys2Proof Sys2Proof.Machine

/-- Settles O31: the cases of `exit`, with what the end of an activation leaves (`leaveWith_next`). -/
theorem exitOutcomes : Obligations.ExitOutcomes := by
  unfold Obligations.ExitOutcomes
  intro s a t base n loc ds begun ends
  have endsOf (l : List Successor) (left : Settles (.exit a t) s (s.leaveWith l)) : ends l := ⟨left, leaveWith_next s l⟩
  have passes (aligned : base % 64 = 0) (own : s.ownAllowed s.issuer base (64 * n) = true) :
      ¬(base % 64 ≠ 0 ∨ (!s.ownAllowed s.issuer base (64 * n)) = true) := by simp [aligned, own]
  refine ⟨fun adm none => endsOf [] ?_, fun adm some few aligned own good => ⟨fun crowded => ?_, fun room => endsOf _ ?_⟩,
    fun adm bad => ?_⟩
  · refine settles_of_body (execExit a t) rfl rfl ?_ adm
    rw [if_neg (show ¬4 < n by omega), if_pos (show n = 0 from none)]
  · refine waits_of_body (execExit a t) rfl rfl ?_ adm
    rw [if_neg (show ¬4 < n by omega), if_neg (show ¬n = 0 by omega), if_neg (passes aligned own)]
    dsimp only
    rw [show s.badSuccessor _ _ = none from good]
    exact if_pos crowded
  · refine settles_of_body (execExit a t) rfl rfl ?_ adm
    rw [if_neg (show ¬4 < n by omega), if_neg (show ¬n = 0 by omega), if_neg (passes aligned own)]
    dsimp only
    rw [show s.badSuccessor _ _ = none from good]
    exact if_neg (show ¬16 < (s.core s.cur).succQ.length + n by omega)
  · refine traps_of_body (execExit a t) rfl rfl ?_ adm
    by_cases many : 4 < n
    · exact if_pos many
    · obtain ⟨some, bad⟩ := bad.resolve_left many
      rw [if_neg many, if_neg (show ¬n = 0 by omega)]
      exact if_pos (bad.imp_right fun other => by rw [other]; rfl)
end
section
/-! PROOFS. Matrix commands (O32), latch fills and the ring (O33). -/

namespace Sys2Proof.Machine

/-! The performance of a thread's stores (R131). -/

/-- A slot's stores that perform change its buffer, storage and reservations. -/
theorem drainStores_eq (s : State) (c n : Nat) :
    ∃ cores mem poison resvs, s.drainStores c n = { s with cores := cores, mem := mem, poison := poison, resvs := resvs } := by
  unfold State.drainStores
  generalize (s.thread c n).sbuf = l
  induction l generalizing s with
  | nil => exact ⟨s.cores, s.mem, s.poison, s.resvs, rfl⟩
  | cons e l ih =>
    obtain ⟨cores, mem, poison, resvs, rest⟩ := ih (s.performStore c n)
    rw [List.foldl_cons, rest]
    unfold State.performStore
    split <;> exact ⟨cores, mem, poison, resvs, rfl⟩

theorem drain_cur (s : State) : s.drain.cur = s.cur := by
  obtain ⟨_, _, _, _, h⟩ := drainStores_eq s s.cur s.slot
  rw [State.drain, h]

theorem drain_slot (s : State) : s.drain.slot = s.slot := by
  obtain ⟨_, _, _, _, h⟩ := drainStores_eq s s.cur s.slot
  rw [State.drain, h]

@[simp] theorem modCx_cur (s : State) (c : Nat) (f : TileCtx → TileCtx) : (s.modCx c f).cur = s.cur := rfl
@[simp] theorem modCx_slot (s : State) (c : Nat) (f : TileCtx → TileCtx) : (s.modCx c f).slot = s.slot := rfl

/-! `mma` and `mmv` (R161, R164). -/

section
variable {s : State} {w : Word} {op : MatrixOp} {a t : Reg} {refuses : MatrixCmd → Nat → Nat → Nat} {rows : MatrixCmd → Nat} {b : Nat}

/-- A product that a check refuses traps with the check's code. -/
theorem matrixProduct_refused {code : Nat} (head : (s.core s.cur).cx.mx.headFull = some b) (free : s.unitFree = true)
    (bad : refuses (s.matrixCmd op (s.x a).toNat (s.x t).toNat s.semiring) (s.x t).toNat ((s.core s.cur).cx.mx.buf b).count = code)
    (real : code ≠ 0) : s.matrixProduct w op a t refuses rows = matrixTrap code s := by
  simp only [State.matrixProduct, head, free, bad, real, Bool.not_true, Bool.false_eq_true, ne_eq, not_false_eq_true, if_false, if_true]

/-- A product whose checks pass starts behind the thread's own stores. -/
theorem matrixProduct_starts (head : (s.core s.cur).cx.mx.headFull = some b) (free : s.unitFree = true)
    (passes : refuses (s.matrixCmd op (s.x a).toNat (s.x t).toNat s.semiring) (s.x t).toNat
      ((s.core s.cur).cx.mx.buf b).count = 0)
    (settled : (s.core s.cur).l1pending = none)
    (reach : s.aBadRow (s.matrixCmd op (s.x a).toNat (s.x t).toNat s.semiring)
      (rows (s.matrixCmd op (s.x a).toNat (s.x t).toNat s.semiring)) = none) :
    s.matrixProduct w op a t refuses rows =
      State.startMatrix
        (if bit (s.x t).toNat 2 then
          (s.drain.modCx s.cur fun y => { y with mx := y.mx.setBuf b { y.mx.buf b with st := .busy } }).queueHandoff
            (s.matrixCmd op (s.x a).toNat (s.x t).toNat s.semiring) b
        else s.drain.modCx s.cur fun y => { y with mx := y.mx.setBuf b { y.mx.buf b with st := .busy } })
        { s.matrixCmd op (s.x a).toNat (s.x t).toNat s.semiring with rel := false, buf := some b } := by
  simp only [State.matrixProduct, head, free, passes, settled, reach, Bool.not_true, Bool.false_eq_true, ne_eq, not_true_eq_false,
    if_false, Option.isSome_none]
end

/-- The checks of R164 behind those of the shape and of the length, by code. -/
def State.lateRefuses (s : State) (rt count bytes : Nat) : Nat :=
  if count ≠ bytes then 4
  else if bit rt 2 && !bit (s.core s.cur).cx.mx.ring.toNat 63 then 5
  else if !s.latchOk s.cur then 6
  else if bits rt 3 29 ≠ 0 then 8
  else 0

theorem lateRefuses_codes (s : State) (rt count bytes : Nat) :
    let ringed := bit rt 2 = true → bit (s.core s.cur).cx.mx.ring.toNat 63 = true
    (count ≠ bytes → s.lateRefuses rt count bytes = 4) ∧
    (count = bytes → ¬ringed → s.lateRefuses rt count bytes = 5) ∧
    (count = bytes → ringed → s.latchOk s.cur = false → s.lateRefuses rt count bytes = 6) ∧
    (count = bytes → ringed → s.latchOk s.cur = true → bits rt 3 29 ≠ 0 → s.lateRefuses rt count bytes = 8) := by
  intro ringed
  have away : (bit rt 2 && !bit (s.core s.cur).cx.mx.ring.toNat 63) = true ↔ ¬ringed := by
    simp only [ringed, Bool.and_eq_true, Bool.not_eq_true', Classical.not_imp, Bool.not_eq_true]
  refine ⟨fun ne => if_pos ne, fun eq off => ?_, fun eq on bad => ?_, fun eq on ok pad => ?_⟩
  · rw [State.lateRefuses, if_neg (not_not_intro eq), if_pos (away.mpr off)]
  · rw [State.lateRefuses, if_neg (not_not_intro eq), if_neg (fun h => away.mp h on), bad]
    rfl
  · rw [State.lateRefuses, if_neg (not_not_intro eq), if_neg (fun h => away.mp h on), ok]
    exact if_pos pad

/-- What R158 asks of a command's shape, one by one. -/
theorem shapeBad_iff (m : MatrixCmd) :
    m.shapeBad = true ↔ m.k = 0 ∨ 4096 < m.k ∨ m.k % aMultiple m.af ≠ 0 ∨ baseBad m.af m.base = true ∨
      firstElem m.af m.base % aMultiple m.af ≠ 0 ∨ m.astr % aMultiple m.af ≠ 0 := by
  simp only [MatrixCmd.shapeBad, Bool.or_eq_true, beq_iff_eq, bne_iff_ne, decide_eq_true_eq, or_assoc]

/-- The codes of the checks on an `mma` whose formats pair. -/
theorem mmaRefuses_codes (s : State) {m : MatrixCmd} (rt count : Nat) {p : Pairing} (pair : mmaPairing m.sr m.af m.bf = some p) :
    (m.shapeBad = true → s.mmaRefuses m rt count = 2) ∧
    (¬m.shapeBad = true → s.lengthMax < p.passes * ceilDiv m.k p.per * p.len → s.mmaRefuses m rt count = 3) ∧
    (¬m.shapeBad = true → p.passes * ceilDiv m.k p.per * p.len ≤ s.lengthMax →
      s.mmaRefuses m rt count = s.lateRefuses rt count (m.k * rowBytes s.cur m.bf)) := by
  simp only [State.mmaRefuses, pair]
  exact ⟨fun bad => if_pos bad, fun good long => (if_neg good).trans (if_pos long),
    fun good short => (if_neg good).trans (if_neg (Nat.not_lt.mpr short))⟩

/-- The codes of the checks on an `mmv` whose formats pair. -/
theorem mmvRefuses_codes (s : State) {m : MatrixCmd} (rt count : Nat) {p : Nat} (plus : m.sr = 0)
    (pair : mmvStep s.cur m.af m.bf = some p) :
    let bad := m.shapeBad = true ∨ m.nout = 0 ∨ (if coreType s.cur = .reflex then 512 else 2048) < m.nout
    (bad → s.mmvRefuses m rt count = 2) ∧
    (¬bad → s.lengthMax < ceilDiv m.nout (mxCols s.cur) * ceilDiv m.k p → s.mmvRefuses m rt count = 3) ∧
    (¬bad → ceilDiv m.nout (mxCols s.cur) * ceilDiv m.k p ≤ s.lengthMax →
      s.mmvRefuses m rt count = s.lateRefuses rt count (m.k * bSize m.bf)) := by
  intro bad
  have test : (m.shapeBad || m.nout == 0 || decide ((if coreType s.cur = .reflex then 512 else 2048) < m.nout)) = true ↔ bad := by
    simp only [bad, Bool.or_eq_true, beq_iff_eq, decide_eq_true_eq, or_assoc]
  simp only [State.mmvRefuses, plus, if_true, pair]
  exact ⟨fun h => if_pos (test.mpr h), fun good long => (if_neg (mt test.mp good)).trans (if_pos long),
    fun good short => (if_neg (mt test.mp good)).trans (if_neg (Nat.not_lt.mpr short))⟩

theorem bits_high_zero {v lo : Nat} (n : Nat) (h : v < 2 ^ lo) : bits v lo n = 0 := by
  rw [bits, Nat.div_eq_of_lt h, Nat.zero_mod]

/-! Latch fills (R425). -/

section
variable {s : State} {src : FillSrc} {n b : Nat}

theorem claimFill_empty (empty : (s.core s.cur).cx.mx.emptyBuf = some b) :
    s.claimFill src n = .retire (s.drain.modCx s.cur fun y =>
      { y with mx := { y.mx.setBuf b { st := .filling, count := n } with fills := y.mx.fills ++ [⟨b, src, n, 0, s.slot⟩] } }) := by
  rw [State.claimFill, empty]

theorem claimFill_full (full : (s.core s.cur).cx.mx.emptyBuf = none) : s.claimFill src n = .wait .latch s := by
  rw [State.claimFill, full]

theorem fillBad_false (some : 1 ≤ n) (whole : n % 32 = 0) (fits : n ≤ (s.core s.cur).cx.mx.bufSize) : s.fillBad n = false := by
  simp only [State.fillBad, whole, Bool.or_eq_false_iff, beq_eq_false_iff_ne, decide_eq_false_iff_not]
  exact ⟨⟨by omega, by decide⟩, Nat.not_lt.mpr fits⟩
end

end Sys2Proof.Machine

open Sys2Proof Sys2Proof.Machine

/-- Settles O32: a product starts or traps by its first check that fails, and the other commands start where theirs pass. -/
theorem matrixCommands : Obligations.MatrixCommands := by
  unfold Obligations.MatrixCommands
  refine ⟨?_, ?_⟩
  · intro s a t d b x rt rs started busy product ma mv st block narrow settled ze free
    refine ⟨fun adm head passes calm reach => ?_, fun adm head passes calm reach => ?_, fun adm fmt pad calm rows => ?_,
      fun adm idle unbound src pad row col => ?_, fun adm ring pad => ?_⟩
    · exact settles_of_body (execMma a t) rfl rfl (matrixProduct_starts head free passes calm reach) adm
    · exact settles_of_body (execMmv a t) rfl rfl (matrixProduct_starts head free passes calm reach) adm
    · refine settles_of_body (execMst a t) rfl rfl ?_ adm
      have pad' : bits (s.x t).toNat 3 29 = 0 := bits_high_zero 29 pad
      have calm' : (s.core s.cur).l1pending = none := calm
      simp only [free, pad', calm', show s.mstBad (s.matrixCmd .mst (s.x a).toNat (s.x t).toNat 0) = none from rows,
        show ¬6 < (s.matrixCmd .mst (s.x a).toNat (s.x t).toNat 0).ofmt from Nat.not_lt.mpr fmt,
        Bool.not_true, Bool.false_eq_true, ne_eq, not_true_eq_false, if_false, Option.isSome_none]
      rfl
    · refine settles_of_body (execMrd d a t) rfl rfl ?_ adm
      rw [idle, free, unbound]
      refine (if_neg Bool.false_ne_true).trans ((if_neg Bool.false_ne_true).trans ((if_neg ?_).trans rfl))
      have src' : bits (s.x a).toNat 8 24 = 0 := bits_high_zero 24 src
      have pad' : bits (s.x t).toNat 4 28 = 0 := bits_high_zero 28 pad
      rw [src', pad']
      rintro (h | h | h | h | h)
      · exact h rfl
      · exact h rfl
      · exact Nat.not_lt.mpr h row
      · exact Nat.not_lt.mpr h col
      · exact Bool.false_ne_true h
    · refine settles_of_body (execMzero t) rfl rfl ?_ adm
      dsimp only
      rw [free, show bits (s.x t).toNat 2 30 = 0 from bits_high_zero 30 pad]
      exact (if_neg Bool.false_ne_true).trans ((if_neg (Nat.not_lt.mpr ring)).trans ((if_neg (fun h => h rfl)).trans rfl))
  · intro s a t b x rt ma mv count odd outs traps later head free
    have oddIff (m : MatrixCmd) : m.shapeBad = true ↔ odd m := shapeBad_iff m
    have late (i : Instr) (bytes : Nat) (by_ : ∀ c, s.lateRefuses rt count bytes = c → c ≠ 0 → traps i c) : later i bytes := by
      obtain ⟨c4, c5, c6, c8⟩ := lateRefuses_codes s rt count bytes
      refine ⟨fun ne => by_ 4 (c4 ne) (by decide), fun eq bound off => by_ 5 (c5 eq ?_) (by decide),
        fun eq on bad => by_ 6 (c6 eq on bad) (by decide), fun eq on ok pad => by_ 8 (c8 eq on ok pad) (by decide)⟩
      exact fun on => Bool.false_ne_true (off.symm.trans (on bound))
    refine ⟨fun adm => ?_, fun adm => ?_⟩
    · have refused (c : Nat) (bad : s.mmaRefuses ma rt count = c) (real : c ≠ 0) : traps (.mma a t) c :=
        traps_of_body (execMma a t) rfl rfl (matrixProduct_refused head free bad real) adm
      refine ⟨fun none => refused 1 (by rw [State.mmaRefuses, none]) (by decide), fun p pair => ?_⟩
      obtain ⟨c2, c3, rest⟩ := mmaRefuses_codes s rt count pair
      rw [oddIff] at c2 c3 rest
      exact ⟨fun bad => refused 2 (c2 bad) (by decide), fun good long => refused 3 (c3 good long) (by decide),
        fun good short => late _ _ fun c is real => refused c ((rest good short).trans is) real⟩
    · have refused (c : Nat) (bad : s.mmvRefuses mv rt count = c) (real : c ≠ 0) : traps (.mmv a t) c :=
        traps_of_body (execMmv a t) rfl rfl (matrixProduct_refused head free bad real) adm
      refine ⟨fun none => refused 1 ?_ (by decide), fun p plus pair => ?_⟩
      · have off : (if mv.sr = 0 then mmvStep s.cur mv.af mv.bf else Option.none) = Option.none := by
          split
          · next plus => exact none.resolve_left (not_not_intro plus)
          · rfl
        rw [State.mmvRefuses, off]
      · obtain ⟨c2, c3, rest⟩ := mmvRefuses_codes s rt count plus pair
        rw [oddIff] at c2 c3 rest
        exact ⟨fun bad => refused 2 (c2 bad) (by decide), fun good long => refused 3 (c3 good long) (by decide),
          fun good short => late _ _ fun c is real => refused c ((rest good short).trans is) real⟩

/-- Settles O33: the checks of a fill pass and its claim takes the empty buffer; `mring`'s checks pass for a member of its ring. -/
theorem latchFillsAndRing : Obligations.LatchFillsAndRing := by
  unfold Obligations.LatchFillsAndRing
  intro s a t v d b g me w x n fill claimed ok first l pos succ value
  refine ⟨fun adm good calm own => ?_, fun adm good reg source idle => ?_, fun adm mine some few fits low high => ?_⟩
  · obtain ⟨latch, some, whole, fits⟩ := good
    have fills : exec (.mldb a t) s = .next (s.finish (s.claimFill (.sram first) n)) := by
      rw [exec_of_meaning (execMldb a t) rfl rfl adm]
      dsimp only
      rw [latch, show s.fillBad _ = false from fillBad_false some whole fits, calm, show s.rawOk _ _ = true from own]
      rfl
    exact ⟨fun empty => by rw [Retires, fills, claimFill_empty empty], fun full => by rw [Waits, fills, claimFill_full full]⟩
  · obtain ⟨latch, some, whole, fits⟩ := good
    have fills : exec (.mldbS v t) s = .next (s.finish (match s.claimFill (.bound s.slot v.toNat) n with
        | .retire s => .retire (s.modBound s.cur s.slot v.toNat fun b => { b with filling := true })
        | r => r)) := by
      rw [exec_of_meaning (execMldbS v t) rfl rfl adm]
      dsimp only
      rw [latch, show s.fillBad _ = false from fillBad_false some whole fits, reg, idle]
      dsimp only
      rw [source]
      rfl
    refine ⟨fun empty => ?_, fun full => by rw [Waits, fills, claimFill_full full]⟩
    rw [Retires, fills, claimFill_empty empty]
    dsimp only
    rw [modCx_cur, modCx_slot, drain_cur, drain_slot]
  · refine retires_of_body (execMring d a t) rfl rfl ?_ adm
    have inside : ¬(n = 0 ∨ 16 < n ∨ g.n < first + n ∨ me < first ∨ first + n ≤ me) := by omega
    rw [show (s.act.gang.bind fun p => (s.gang p.1).map fun g => (g, p.2)) = _ from mine]
    exact if_neg inside
end
section
/-! PROOFS. Mover commands (O34), streams (O35) and mesh channels (O36). -/

namespace Sys2Proof.Machine

theorem bits_low_small {v n : Nat} (h : v < 2 ^ n) : bits v 0 n = v := by
  rw [bits, pow_zero, Nat.div_one, Nat.mod_eq_of_lt h]

theorem chanOk_of_channel {v : Word} (h : v.toNat < 4) : chanOk v = true := by
  rw [chanOk, bits_high_zero 30 (show v.toNat < 2 ^ 2 from h)]
  rfl

/-- A command that passes the checks of R181 goes to its channel where there is a place, and answers 0 where there is none. -/
theorem moverGo_checked {s : State} (w : Word) (d : Reg) {a : Reg} {red : Bool} (chan : (s.x a).toNat < 4)
    (src : s.basePathClass ((s.moverCmd (s.x a).toNat red).e 0) .load = 0)
    (dst : s.basePathClass ((s.moverCmd (s.x a).toNat red).e 1) .store = 0)
    (counter : s.noCounter (s.moverCmd (s.x a).toNat red) = false) (passes : (s.moverCmd (s.x a).toNat red).refuses = 0) :
    let x := (s.core s.cur).cx
    let m := x.mover (s.x a).toNat
    s.moverGo w d a red =
      if (m.run.isSome = true ∧ m.queued.isSome = true) ∨ x.isStream (s.x a).toNat = true then .retire (s.setX d 0)
      else .retire ((s.drain.modCx s.cur fun y =>
        y.setMover (s.x a).toNat (m.take (s.moverCmd (s.x a).toNat red))).setX d 1) := by
  simp only [State.moverGo, chanOk_of_channel chan, bits_low_small (n := 2) chan, src, dst, counter, passes, Bool.not_true,
    Bool.false_eq_true, ne_eq, not_true_eq_false, and_false, if_false, Bool.or_eq_true, Bool.and_eq_true]
  rfl

theorem drained_iff (b : Bound) (m : Mover) : b.drained m = true ↔ m.st = .stopped ∨ (b.fifo = [] ∧ b.part = []) := by
  simp only [Bound.drained, Bool.or_eq_true, Bool.and_eq_true, beq_iff_eq, List.isEmpty_iff]

end Sys2Proof.Machine

open Sys2Proof Sys2Proof.Machine

/-- Settles O34: a checked command, as its channel has a place or not. -/
theorem moverCommands : Obligations.MoverCommands := by
  unfold Obligations.MoverCommands
  intro s d a c x m ok full taken chan
  have idx : bits (s.x a).toNat 0 2 = c := bits_low_small (n := 2) chan
  refine ⟨fun adm good => ?_, fun adm good => ?_, fun adm => ?_, fun adm => ?_⟩
  · obtain ⟨src, dst, counter, passes⟩ := good
    have goes := moverGo_checked (encode (.mvgo d a)) d chan src dst counter passes
    exact ⟨fun none_ => retires_of_body (execMvgo d a) rfl rfl (goes.trans (if_pos none_)) adm,
      fun room => retires_of_body (execMvgo d a) rfl rfl (goes.trans (if_neg room)) adm⟩
  · obtain ⟨src, dst, counter, passes⟩ := good
    have goes := moverGo_checked (encode (.mvred d a)) d chan src dst counter passes
    exact ⟨fun none_ => retires_of_body (execMvred d a) rfl rfl (goes.trans (if_pos none_)) adm,
      fun room => retires_of_body (execMvred d a) rfl rfl (goes.trans (if_neg room)) adm⟩
  · exact retires_of_body (execMvst d a) rfl rfl (by rw [chanOk_of_channel chan, idx]; rfl) adm
  · exact retires_of_body (execMvkill a) rfl rfl (by rw [chanOk_of_channel chan, idx]; rfl) adm

/-- Settles O35: the checks of `sbind` pass, and the kinds of a binding that `sunbind` ends. -/
theorem streamBindings : Obligations.StreamBindings := by
  unfold Obligations.StreamBindings
  intro s d a t w chan c dir cmd x st reg kind bound idle still later mov
  refine ⟨fun adm filling small one free stands alone base counter good side => ?_, fun adm held filling => ?_⟩
  · refine retires_of_body (execSbind d a t) rfl rfl ?_ adm
    have idx : bits (s.x a).toNat 0 2 = c := bits_low_small (n := 2) small
    have pad : bits (s.x a).toNat 2 30 = 0 := bits_high_zero 30 (show (s.x a).toNat < 2 ^ 2 from small)
    have pad' : bits (s.x t).toNat 1 31 = 0 := bits_high_zero 31 (show (s.x t).toNat < 2 ^ 1 from one)
    have ready : (!(st == .idle || st == .stopped)) = false := by
      rcases stands with h | h <;> rw [h] <;> rfl
    have counted : (dir && s.noCounter cmd) = false := by
      by_cases out : dir = true
      · rw [counter out, Bool.and_false]
      · rw [Bool.eq_false_iff.mpr out, Bool.false_and]
    have sided : ((!dir && (cmd.e 1 != 0 || cmd.shape == 2)) || (dir && (cmd.e 0 != 0 || cmd.shape == 1))) = false := by
      revert side
      cases dir <;> simp
    dsimp only
    rw [idx, pad, pad']
    simp only [show s.fillingReg d.toNat = false from filling, show s.boundOf d.toNat = none from free,
      show (s.core s.cur).cx.streamOf c = none from alone, Option.isSome_none, Bool.false_eq_true, or_false, ne_eq, not_true_eq_false,
      if_false]
    rw [show (!(((s.core s.cur).cx.mover c).st == .idle || ((s.core s.cur).cx.mover c).st == .stopped)) = false from ready,
      Bool.or_self, Bool.or_self, if_neg Bool.false_ne_true, if_neg (not_not_intro base), show (_ && s.noCounter (s.moverCmd c false)) = false from counted,
      if_neg Bool.false_ne_true, if_neg (not_not_intro good)]
    exact (if_neg (Bool.eq_false_iff.mp sided)).trans rfl
  · have held' : s.boundOf d.toNat = some w := held
    have filling' : s.fillingReg d.toNat = false := filling
    refine ⟨fun read => ?_, fun write empty => ?_, fun write more some => ?_, fun neither => ?_⟩
    · exact retires_of_body (execSunbind d) rfl rfl
        (by simp only [held', filling', read, Bool.false_eq_true, if_false]; rfl) adm
    · have drained : w.drained ((s.core s.cur).cx.mover chan) = true := (drained_iff _ _).mpr empty
      exact retires_of_body (execSunbind d) rfl rfl
        (by simp only [held', filling', write, drained, Bool.false_eq_true, if_false, if_true]; rfl) adm
    · have holds : w.drained ((s.core s.cur).cx.mover chan) = false := by
        refine Bool.eq_false_iff.mpr (mt (drained_iff _ _).mp ?_)
        rintro (h | ⟨f, p⟩)
        · exact more h
        · exact some.elim (fun h => h f) fun h => h p
      exact retires_of_body (execSunbind d) rfl rfl
        (by simp only [held', filling', write, holds, Bool.false_eq_true, if_false]; rfl) adm
    · refine retires_of_body (execSunbind d) rfl rfl ?_ adm
      simp only [held', filling', Bool.false_eq_true, if_false]
      rcases k : w.kind with n | n | _ | _
      · exact absurd k (neither n).1
      · exact absurd k (neither n).2
      · rfl
      · rfl

/-- Settles O36: the checks of `cbind` pass, and each operation on a bound end of its kind. -/
theorem channelOperations : Obligations.ChannelOperations := by
  unfold Obligations.ChannelOperations
  intro s d a t o p q w port bufs e v u out reg kind fresh new fewer
  refine ⟨fun adm filling free clean size peer unused => ?_, fun held filling => ?_⟩
  · refine retires_of_body (execCbind d a t) rfl rfl ?_ adm
    have sized : (!out && (bits u 4 3 == 0 || decide (4 < bits u 4 3))) = false := by
      rcases size with h | ⟨low, high⟩
      · rw [h]; rfl
      · rw [beq_eq_false_iff_ne.mpr (by omega), decide_eq_false (by omega), Bool.or_self, Bool.and_false]
    simp only [show s.fillingReg d.toNat = false from filling, show s.boundOf d.toNat = none from free,
      show cbindReserved (s.x a).toNat (s.x t).toNat = false from clean,
      show (!bit (s.x t).toNat 0 && (bits (s.x t).toNat 4 3 == 0 || decide (4 < bits (s.x t).toNat 4 3))) = false from sized,
      show s.peerOf (s.x a).toNat = some p from peer,
      show ((s.core s.cur).cx.bounds.any fun b => b.isEnd (bit (s.x t).toNat 0) (bits (s.x t).toNat 1 3)) = false from unused,
      Option.isSome_none, Bool.false_eq_true, if_false]
    rfl
  · have held' : s.boundOf d.toNat = some w := held
    have filling' : s.fillingReg d.toNat = false := filling
    refine ⟨fun adm end_ some_ => ⟨fun linked there => ?_, fun nowhere => ?_⟩, fun adm end_ linked credit => ?_,
      fun adm end_ none_ => ?_, fun adm source => ?_⟩
    · exact retires_of_body (execCret d) rfl rfl
        (by simp only [held', filling', end_, there, linked, Nat.one_le_iff_ne_zero.mp some_, Bool.false_eq_true, if_false, if_true]
            rfl) adm
    · refine retires_of_body (execCret d) rfl rfl ?_ adm
      simp only [held', filling', end_, Nat.one_le_iff_ne_zero.mp some_, Bool.false_eq_true, if_false]
      rcases h : s.creditTo w with _ | e
      · rfl
      · rw [h] at nowhere
        exact if_neg (Bool.eq_false_iff.mp (nowhere.resolve_right (by simp)))
    · have room : w.hasRoom = true := by
        simp only [Bound.hasRoom, end_, linked, Bool.true_and, decide_eq_true_eq]
        exact credit
      exact retires_of_body (execCeos d) rfl rfl
        (by simp only [held', filling', end_, room, Bool.false_eq_true, if_false, if_true]) adm
    · have full : w.hasRoom = false := by
        simp only [Bound.hasRoom, end_, Bool.and_eq_false_iff, decide_eq_false_iff_not, Nat.not_lt, Nat.le_zero]
        exact none_
      exact waits_of_body (execCeos d) rfl rfl
        (by simp only [held', filling', end_, full, Bool.false_eq_true, if_false]; rfl) adm
    · have test : (w.fifo.head? == some none) = decide (w.fifo.head? = some none) :=
        Bool.eq_iff_iff.mpr (by rw [beq_iff_eq, decide_eq_true_eq])
      have goes := branches_of_body (execBceos d o) rfl rfl (t := s) (o := o) (by
        simp only [held', filling', source, Bool.not_true, Bool.or_self, Bool.false_eq_true, if_false]) test rfl adm
      simpa only [decide_eq_true_eq] using goes
end
section
/-! PROOFS. The mailbox (O37) and the instructions of Gust (O38). -/

namespace Sys2Proof.Machine

/-! The buffer that `mbopen` takes (R204). -/

/-- A rising list's first entry with a property stands before every other that has it. -/
theorem find?_least {l : List Nat} {p : Nat → Bool} {b : Nat} (rising : l.Pairwise (· < ·)) (h : l.find? p = some b) :
    b ∈ l ∧ p b = true ∧ ∀ c ∈ l, c < b → p c = false := by
  obtain ⟨has, before, after, rfl, none_⟩ := List.find?_eq_some_iff_append.mp h
  refine ⟨by simp, has, fun c hc less => ?_⟩
  rcases List.mem_append.mp hc with hc | hc
  · simpa using none_ c hc
  · rw [List.pairwise_append, List.pairwise_cons] at rising
    obtain ⟨-, ⟨later, -⟩, -⟩ := rising
    rcases List.mem_cons.mp hc with rfl | hc
    · exact absurd less (lt_irrefl _)
    · exact absurd less (not_lt.mpr (later c hc).le)

/-- Walking along a rising list and changing to an entry only where it is smaller ends at the first of the smallest. -/
theorem foldl_first_min {f : Nat → Nat} {a : Nat} {l : List Nat} (rising : (a :: l).Pairwise (· < ·)) :
    let best := (a :: l).foldl (fun x b => if f b < f x then b else x) ((a :: l).getD 0 0)
    best ∈ a :: l ∧ ∀ b ∈ a :: l, f best ≤ f b ∧ (b < best → f best < f b) := by
  obtain ⟨before, after, parts, larger, rest⟩ := foldl_first_max (fun x => OrderDual.toDual (f x)) a l
  have walk : (a :: l).foldl (fun x b => if f b < f x then b else x) ((a :: l).getD 0 0) =
      l.foldl (fun x b => if OrderDual.toDual (f x) < OrderDual.toDual (f b) then b else x) a := by
    simp only [List.foldl_cons, List.getD_cons_zero, lt_irrefl, if_false, OrderDual.toDual_lt_toDual]
  dsimp only
  rw [walk]
  generalize l.foldl (fun x b => if OrderDual.toDual (f x) < OrderDual.toDual (f b) then b else x) a = best at parts larger rest
  rw [parts] at rising ⊢
  refine ⟨by simp, fun b hb => ?_⟩
  rw [List.pairwise_append, List.pairwise_cons] at rising
  obtain ⟨-, ⟨later, -⟩, -⟩ := rising
  rcases List.mem_append.mp hb with hb | hb
  · have above : f best < f b := larger b hb
    exact ⟨above.le, fun _ => above⟩
  · rcases List.mem_cons.mp hb with rfl | hb
    · exact ⟨le_rfl, fun h => absurd h (lt_irrefl _)⟩
    · exact ⟨rest b hb, fun h => absurd h (not_lt.mpr (later b hb).le)⟩

/-- The buffers that `mbopen` may take: neither the latest nor pinned. -/
theorem canOpen_rising (k : MbSlot) :
    ((List.range 4).filter fun b => (k.buf b).st != .latest && (k.buf b).pins == 0).Pairwise (· < ·) :=
  List.pairwise_lt_range.filter _

/-! Bytes read from storage. -/

theorem memRead_getD (m : List Host.Cell) (a n j : Nat) : (memRead m a n).getD j 0 = if j < n then memByte m (a + j) else 0 := by
  induction n generalizing a j with
  | zero => rfl
  | succ n ih =>
    cases j with
    | zero => rfl
    | succ j =>
      have rest := ih (a + 1) j
      simp only [memRead, List.getD_cons_succ, rest, Nat.add_lt_add_iff_right, Nat.add_right_comm a 1 j, Nat.add_assoc]

/-! The image of a version (R203). -/

theorem mbRead_image {s : State} {n m b : Nat} (clean : s.mbClean n b (min m (s.mbSlot n).size) = true)
    (source : (s.mbSlot n).source.1 = some b) : s.mbRead n m = (s.mbImage n (some b) false (s.mbSlot n).source.2 m, s) := by
  simp only [State.mbRead, State.mbFetch, source, clean, if_true]

/-- The bytes of an image behind its header are those of the buffer. -/
theorem mbImage_getD {s : State} {n b m j : Nat} {older stale : Bool} (size : 32 ≤ (s.mbSlot n).size) (behind : 32 ≤ j)
    (within : j < m) : (s.mbImage n (some b) older stale m).getD j 0 =
      if j < (s.mbSlot n).size then memByte s.mem (mbLoc ((s.mbSlot n).base b) + j) else 0 := by
  have fits : (leBytes 32 (s.mbHeader n b older stale) ++
      s.read (mbLoc ((s.mbSlot n).base b) + 32) (min m (s.mbSlot n).size - 32)).length ≤ m := by
    rw [List.length_append, leBytes_length, State.read, memRead_length]
    omega
  unfold State.mbImage
  dsimp only
  rw [List.take_of_length_le fits, List.append_assoc, List.getD_append_right _ _ _ _ (by rw [leBytes_length]; exact behind),
    leBytes_length, State.read]
  by_cases inside : j < (s.mbSlot n).size
  · rw [if_pos inside, List.getD_append _ _ _ _ (by rw [memRead_length]; omega), memRead_getD, if_pos (by omega),
      Nat.add_assoc, Nat.add_sub_cancel' behind]
  · rw [if_neg inside, List.getD_append_right _ _ _ _ (by rw [memRead_length]; omega), List.getD_replicate]
    rw [List.length_append, leBytes_length, memRead_length]
    omega

/-! The checks of R213. -/

theorem gustRefuses_outside {s : State} {v : Nat} (h : v < 2 ^ 32) (big : 16 ≤ v) : s.gustRefuses v = 1 :=
  if_pos (by rw [bits]; omega)

theorem gustRefuses_of_profile {s : State} {v : Nat} (small : v < 16) :
    s.gustRefuses v = if (s.gustAt (v % 16)).valid = false then 2 else if s.isHolder s.issuer (v % 16) = false then 3 else 0 := by
  have low : bits v 0 4 = v % 16 := by simp [bits]
  have high : bits v 4 28 = 0 := bits_high_zero 28 small
  simp only [State.gustRefuses, low, high, ne_eq, not_true_eq_false, if_false, Bool.not_eq_true']

end Sys2Proof.Machine

open Sys2Proof Sys2Proof.Machine

/-- Settles O37: the buffer that R204 chooses, the bytes of an image, and the instructions as their checks pass. -/
theorem mailboxOperations : Obligations.MailboxOperations := by
  unfold Obligations.MailboxOperations
  refine ⟨fun k => ?_, fun s n m b stale => ?_, fun s d a t b => ?_⟩
  · intro can bad some_
    have rising : can.Pairwise (· < ·) := canOpen_rising k
    rcases found : can.find? fun b => (k.buf b).bad with _ | x
    · have clean : ∀ b ∈ can, ¬bad b := List.find?_eq_none.mp found
      obtain ⟨a, l, parts⟩ := List.exists_cons_of_ne_nil some_
      have chosen : k.choose = can.foldl (fun a b => if (k.buf b).ver < (k.buf a).ver then b else a) (can.getD 0 0) := by
        unfold MbSlot.choose
        dsimp only
        rw [show List.find? _ _ = none from found]
      obtain ⟨mem, least⟩ := foldl_first_min (f := fun b => (k.buf b).ver) (parts ▸ rising)
      rw [← parts, ← chosen] at mem least
      exact ⟨mem, fun ⟨b, hb, isBad⟩ => absurd isBad (clean b hb), fun _ b hb => least b hb⟩
    · have chosen : k.choose = x := by
        unfold MbSlot.choose
        dsimp only
        rw [show List.find? _ _ = some x from found]
      obtain ⟨mem, isBad, first⟩ := find?_least rising found
      rw [chosen]
      exact ⟨mem, fun _ => ⟨isBad, fun b hb less => Bool.eq_false_iff.mp (first b hb less)⟩, fun none_ => absurd isBad (none_ x mem)⟩
  · intro k clean
    refine ⟨fun none_ => ?_, fun latest good clean => ?_, fun c latest isBad newest clean => ?_,
      fun size j behind within => mbImage_getD size behind within⟩
    · simp only [State.mbRead, State.mbFetch, MbSlot.source, show (s.mbSlot n).latest = none from none_]
    · have source : (s.mbSlot n).source = (some b, false) := by
        simp only [MbSlot.source, show (s.mbSlot n).latest = some b from latest, show ((s.mbSlot n).buf b).bad = false from good,
          Bool.false_eq_true, if_false]
      rw [mbRead_image clean (by rw [source]), source]
    · have source : (s.mbSlot n).source = (some b, true) := by
        simp only [MbSlot.source, show (s.mbSlot n).latest = some c from latest, show ((s.mbSlot n).buf c).bad = true from isBad,
          show (s.mbSlot n).newestClean = some b from newest, if_true]
      rw [mbRead_image clean (by rw [source]), source]
  · intro v n k u len r kr head published got block snap copy
    have operand : mbOperand (s.x a) = n := by simp [mbOperand, bits, n, v]
    refine ⟨fun small valid => ?_, fun small valid adm aligned own => ?_⟩
    · have pad : bits (s.x a).toNat 12 20 = 0 := bits_high_zero 20 small
      have valid' : (s.mbSlot n).valid = true := valid
      refine ⟨fun adm allowed => ?_, fun adm word allowed opened fits => ?_, fun adm low high reach unbound idle => ?_,
        fun adm unbound idle => ?_⟩
      · have body := exec_of_meaning (execMbopen d a) rfl rfl adm
        simp only [operand, pad, valid', show s.mbDenied (s.mbSlot n) = false from allowed, ne_eq, not_true_eq_false, if_false,
          Bool.not_true, Bool.false_eq_true] at body
        refine ⟨fun busy => ?_, fun free => ?_⟩
        · rw [Retires, body, if_pos (Option.isSome_iff_ne_none.mpr busy)]
          rfl
        · rw [Retires, body, show (s.mbSlot n).openBuf = none from free]
          rfl
      · have pad' : bits (s.x t).toNat 28 4 = 0 := bits_high_zero 4 word
        refine retires_of_body (execMbpub d a t) rfl rfl ?_ adm
        simp only [operand, pad, pad', valid', show s.mbDenied (s.mbSlot n) = false from allowed,
          show (s.mbSlot n).openBuf = some b from opened,
          show ¬(s.mbSlot n).size < bits (s.x t).toNat 0 20 + 32 from Nat.not_lt.mpr fits, ne_eq, not_true_eq_false, or_self,
          if_false, Bool.not_true, Bool.false_eq_true]
        rfl
      · have word : bits (s.x t).toNat 0 4 = u := bits_low_small (show u < 2 ^ 4 by omega)
        have pad' : bits (s.x t).toNat 4 28 = 0 := bits_high_zero 28 (show u < 2 ^ 4 by omega)
        refine retires_of_body (execMbld d a t) rfl rfl ?_ adm
        simp only [operand, pad, pad', word, valid', unbound, idle, show ¬u = 0 by omega, show ¬8 < u by omega,
          show ¬32 < d.toNat + u by omega, ne_eq, not_true_eq_false, or_self, if_false, Bool.not_true, Bool.false_eq_true]
        rfl
      · refine retires_of_body (execMbver d a) rfl rfl ?_ adm
        simp only [operand, pad, valid', unbound, idle, ne_eq, not_true_eq_false, if_false, Bool.not_true, Bool.false_eq_true]
        rfl
    · have pad : bits (s.x a).toNat 18 14 = 0 := bits_high_zero 14 small
      have body := exec_of_meaning (execMbsnap d a t) rfl rfl adm
      simp only [operand, pad, show (s.mbSlot n).valid = true from valid, show (s.x t).toNat % 32 = 0 from aligned,
        show s.ownAllowed s.issuer (s.x t).toNat (s.mbSlot n).size = true from own, ne_eq, not_true_eq_false, if_false,
        Bool.not_true, Bool.false_eq_true] at body
      refine ⟨fun full => ?_, fun room => ?_⟩
      · rw [Retires, body, if_pos full]
        rfl
      · rw [Retires, body, if_neg (Nat.not_le.mpr room)]
        rfl

/-- Settles O38: the first check of R213 that fails, and what each instruction does where none does. -/
theorem gustOperations : Obligations.GustOperations := by
  unfold Obligations.GustOperations
  intro s d a v p g traps checked r held seized
  have sees : s.gustRefuses v = if 16 ≤ v then 1 else if g.valid = false then 2 else if s.isHolder s.issuer p = false then 3 else 0 := by
    by_cases big : 16 ≤ v
    · rw [gustRefuses_outside (s.x a).isLt big, if_pos big]
    · rw [gustRefuses_of_profile (Nat.not_le.mp big), if_neg big]
  have low (small : v < 16) : bits (s.x a).toNat 0 4 = p := by simp [bits, p, v]
  have codes (i : Instr) (by_ : Admitted i s → ∀ c, s.gustRefuses v = c → c ≠ 0 → traps i c) : checked i := by
    refine fun adm => ⟨fun big => by_ adm 1 (by rw [sees, if_pos big]) (by decide), fun small bad => by_ adm 2 ?_ (by decide),
      fun small valid other => by_ adm 3 ?_ (by decide)⟩
    · rw [sees, if_neg (Nat.not_le.mpr small), if_pos bad]
    · rw [sees, if_neg (Nat.not_le.mpr small), if_neg (by rw [valid]; decide), if_pos other]
  refine ⟨fun small valid holder => ?_, codes _ fun adm c is real => ?_, codes _ fun adm c is real => ?_, fun adm small => ?_,
    fun adm big => ?_⟩
  · have passes : s.gustRefuses (s.x a).toNat = 0 := by
      rw [show (s.x a).toNat = v from rfl, sees, if_neg (Nat.not_le.mpr small), if_neg (by rw [valid]; decide),
        if_neg (by rw [holder]; decide)]
    refine ⟨fun adm on => ?_, fun adm off => ?_, fun adm => ?_⟩
    · refine retires_of_body (execGust d a) rfl rfl ?_ adm
      simp only [passes, low small, show (s.gustAt p).held = true from on, ne_eq, not_true_eq_false, if_false, if_true]
      rfl
    · refine retires_of_body (execGust d a) rfl rfl ?_ adm
      simp only [passes, low small, show (s.gustAt p).held = false from off, ne_eq, not_true_eq_false, if_false, Bool.false_eq_true]
      rfl
    · refine retires_of_body (execGustrel a) rfl rfl ?_ adm
      simp only [passes, low small, ne_eq, not_true_eq_false, if_false]
      rfl
  · refine traps_of_body (execGust d a) rfl rfl ?_ adm
    simp only [show s.gustRefuses (s.x a).toNat = c from is, ne_eq, real, not_false_eq_true, if_true]
  · refine traps_of_body (execGustrel a) rfl rfl ?_ adm
    simp only [show s.gustRefuses (s.x a).toNat = c from is, ne_eq, real, not_false_eq_true, if_true]
  · refine retires_of_body (execGustq d a) rfl rfl ?_ adm
    have same : bits (s.x a).toNat 0 4 = p := by simp [bits, p, v]
    have pad : bits (s.x a).toNat 5 27 = 0 := bits_high_zero 27 small
    simp only [pad, same, ne_eq, not_true_eq_false, if_false]
    rfl
  · refine traps_of_body (execGustq d a) rfl rfl (if_pos ?_) adm
    have := (s.x a).isLt
    rw [bits]
    omega
end
section
/-! PROOFS. Time, streams and lines (O39), queues and launches (O40), and the system instructions (O42). -/

namespace Sys2Proof.Machine

/-! Line operations (R268). -/

/-- A line operation answers the code of its first check that fails, or what it does. -/
theorem lineOp_answers {i : Instr} {s : State} {d p : Reg} {owned frames : Bool} {op : State → Nat → Nat → State × Word}
    {body : State → Res} (m : State → Out) (hx : exec i s = m s) (hm : m s = issue i body s)
    (hb : body s = s.lineOp d p owned frames op) (adm : Admitted i s) :
    let r := s.drain
    let pa := (r.p p).toNat / 128 * 128
    let code := r.lineRefuses pa owned frames
    (code ≠ 0 → Retires i s (r.setX d (BitVec.ofNat 32 code))) ∧
    (code = 0 → Retires i s ((op r (unitIndex r.cur) (lineKey pa)).1.setX d (op r (unitIndex r.cur) (lineKey pa)).2)) := by
  intro r pa code
  exact ⟨fun bad => retires_of_body m hx hm (hb.trans (if_pos bad)) adm,
    fun good => retires_of_body m hx hm (hb.trans (if_neg (not_not_intro good))) adm⟩

/-! Prefixes (R73, R74). -/

/-- A prefix's word is its opcode and KIND before its payload. -/
theorem ofNat_add_payload (k : Nat) (z : BitVec 24) :
    BitVec.ofNat 32 (2 ^ 24 * k + z.toNat) = BitVec.ofNat 32 (2 ^ 24 * k) ||| z.setWidth 32 := by
  apply BitVec.eq_of_toNat_eq
  rw [Nat.two_pow_add_eq_or_of_lt z.isLt, BitVec.toNat_or, BitVec.toNat_ofNat, BitVec.toNat_ofNat, BitVec.toNat_setWidth,
    Nat.or_mod_two_pow]

/-- The opcode field of a word. -/
theorem opcode_iff (w : Word) : bits w.toNat 26 6 = 63 ↔ w.extractLsb' 26 6 = 63 := by
  rw [← BitVec.toNat_inj, BitVec.extractLsb'_toNat, Nat.shiftRight_eq_div_pow]
  rfl

/-! The entries that `tinv` drops (R113). -/

theorem tinvDrops_eq (current : BitVec 16) (a : Dword) (m : Word) :
    tinvDrops current a m = fun t =>
      if m.toNat % 4 = 2 then true
      else if m.toNat % 4 = 1 then t.asid == m.extractLsb' 16 16 && !t.leaf.getLsbD 4
      else t.maps (pathRoot (pathByte a)) (if m.toNat % 4 = 0 then current else m.extractLsb' 16 16) (bits a.toNat 0 56) := by
  funext t
  have low : bits m.toNat 0 2 = m.toNat % 4 := by simp [bits]
  have leaf : t.leaf.getLsbD 4 = bit t.leaf.toNat 4 := (bit_eq_testBit _ _).symm
  unfold tinvDrops
  rw [low, leaf]
  have few : m.toNat % 4 < 4 := Nat.mod_lt _ (by decide)
  generalize m.toNat % 4 = sel at few
  match sel, few with
  | 0, _ => rfl
  | 1, _ => rfl
  | 2, _ => rfl
  | 3, _ => rfl

end Sys2Proof.Machine

open Sys2Proof Sys2Proof.Machine

/-- Settles O39: the operands pass their checks, and a line operation answers by its checks. -/
theorem timeStreamsAndLines : Obligations.TimeStreamsAndLines := by
  unfold Obligations.TimeStreamsAndLines
  refine ⟨fun s d p t => ?_, fun s d p t => ?_⟩
  · intro v timers timer armed k r
    refine ⟨retires_of_body (execTnow d) rfl rfl rfl, fun adm small has => ?_, fun adm valid small => ?_, fun adm valid small => ?_⟩
    · have low : bits (s.x t).toNat 0 6 = v := bits_low_small (n := 6) small
      have pad : bits (s.x t).toNat 6 26 = 0 := bits_high_zero (lo := 6) 26 small
      have body := exec_of_meaning (execTuntil d p t) rfl rfl adm
      simp only [low, pad, show s.hasCounter v = true from has, ne_eq, not_true_eq_false, if_false, Bool.not_true,
        Bool.false_eq_true] at body
      refine ⟨fun full => ?_, fun room => ?_⟩
      · rw [Retires, body, if_pos full]
        rfl
      · rw [Retires, body, if_neg (Nat.not_le.mpr room)]
        rfl
    · have pad : bits (s.x t).toNat 8 24 = 0 := bits_high_zero (lo := 8) 24 small
      have byTime : bit v 7 = decide (¬v < 128) := by
        rw [bit_eq_testBit, Nat.testBit_eq_decide_div_mod_eq]
        exact decide_eq_decide.mpr (by omega)
      refine retires_of_body (execSwget d p t) rfl rfl ?_ adm
      simp only [pad, show (s.streamAt (bits (s.x t).toNat 0 7)).valid = true from valid, show bit (s.x t).toNat 7 = _ from byTime,
        ne_eq, not_true_eq_false, if_false, Bool.not_true, Bool.false_eq_true, decide_eq_true_eq, ite_not]
      rfl
    · have pad : bits (s.x t).toNat 7 25 = 0 := bits_high_zero (lo := 7) 25 small
      have low : bits (s.x t).toNat 0 7 = v := bits_low_small (n := 7) small
      have low' : bits v 0 7 = v := low
      have valid' : (s.streamAt v).valid = true := by
        rw [← low']
        exact valid
      refine retires_of_body (execSwadv d p t) rfl rfl ?_ adm
      simp only [pad, low, valid', ne_eq, not_true_eq_false, if_false, Bool.not_true, Bool.false_eq_true]
      simp only [r, k, low']
      rfl
  · intro r pa n key v off loc answers
    refine ⟨lineOp_answers (op := State.pinLine) (execLpin d p) rfl rfl rfl,
      lineOp_answers (op := State.unpinLine) (execLunpin d p) rfl rfl rfl,
      lineOp_answers (op := fun s n key => (s, s.probeLine n key)) (execLprobe d p) rfl rfl rfl,
      fun adm small => ?_, fun adm pad aligned => ⟨fun zeros => ?_, fun bytes own clean => ?_⟩⟩
    · refine lineOp_answers (op := fun s n key => s.discardLine n key (bit v 0)) (execLdrop d p t) rfl rfl
        (if_neg (not_not_intro (bits_high_zero (lo := 1) 31 small))) adm
    · refine lineOp_answers (op := fun s n key => s.fillLine n key none false) (execLfill d p t) rfl rfl ?_ adm
      simp only [show bits (s.x t).toNat 17 13 = 0 from pad, show bits (s.x t).toNat 0 17 % 128 = 0 from aligned,
        show bit (s.x t).toNat 31 = true from zeros, ne_eq, not_true_eq_false, or_self, if_false, if_true]
    · refine lineOp_answers (op := fun s n key => s.fillLine n key (some (s.read loc 128)) (bit v 30)) (execLfill d p t) rfl rfl ?_ adm
      simp only [show bits (s.x t).toNat 17 13 = 0 from pad, show bits (s.x t).toNat 0 17 % 128 = 0 from aligned,
        show bit (s.x t).toNat 31 = false from bytes, show s.ownAllowed s.issuer (bits (s.x t).toNat 0 17) 128 = true from own,
        show s.poisoned (sramLoc s.cur (bits (s.x t).toNat 0 17)) (sramLoc s.cur (bits (s.x t).toNat 0 17) + 128) = none from clean,
        ne_eq, not_true_eq_false, or_self, if_false, Bool.not_true, Bool.false_eq_true]
      rfl

/-- Settles O40: the operands pass their checks, as an entry, a place or a gang is there or not. -/
theorem queuesAndLaunches : Obligations.QueuesAndLaunches := by
  unfold Obligations.QueuesAndLaunches
  refine ⟨fun s d a t i e => ?_, fun s u d p a t l bs g => ?_⟩
  · intro v cm me mine taken b r bank old bump
    refine ⟨fun adm small some_ free idle => ?_, fun adm small few owner => ?_⟩
    · have low : bits (s.x a).toNat 0 3 = cm := rfl
      have same : cm = v := bits_low_small (n := 3) small
      have pad : bits (s.x a).toNat 3 29 = 0 := bits_high_zero (lo := 3) 29 small
      have body := exec_of_meaning (execQclaim d a) rfl rfl adm
      simp only [pad, low, show ¬cm = 0 from same ▸ some_, free, idle, ne_eq, not_true_eq_false, or_self, if_false, Option.isSome_none,
        Bool.false_eq_true] at body
      refine ⟨fun there entry => ?_, fun none_ => ?_⟩
      · rw [Retires, body, there]
        simp only [List.getD_eq_getElem?_getD, entry, Option.getD_some]
        rfl
      · rw [Waits, body, none_]
    · have pad : bits (s.x a).toNat 5 27 = 0 := bits_high_zero (lo := 5) 27 small
      have pad' : bits (s.x t).toNat 4 28 = 0 := bits_high_zero (lo := 4) 28 (show b < 2 ^ 4 by omega)
      refine retires_of_body (execHacc a t) rfl rfl ?_ adm
      simp only [pad, pad', show ¬8 < (s.x t).toNat from Nat.not_lt.mpr few, owner, ne_eq, not_true_eq_false, or_self, if_false]
      rfl
  · intro ea v asid
    refine ⟨fun adm rule aligned window lanes walk read => ?_, fun adm small mode => ?_⟩
    · have body := exec_of_meaning (execGlaunch d p) rfl rfl adm
      simp only [State.launchGang, show s.safeRule true true (pathByte (s.p p)) = 0 from rule,
        show (s.p p).toNat % 4 = 0 from aligned, show s.windowAllows false (s.p p) 0 60 = true from window,
        show s.checkLanes (s.p p) 4 (fun i => (i : Int)) .load (List.range 15) = .ok l from lanes, walk, read, ne_eq,
        not_true_eq_false, if_false, Bool.not_true, Bool.false_eq_true] at body
      refine ⟨fun full => ?_, fun room => ?_⟩
      · rw [Retires, body, if_pos full]
        rfl
      · rw [Retires, body, if_neg (Nat.not_le.mpr room)]
        rfl
    · have pad : bits (s.x t).toNat 16 16 = 0 := bits_high_zero (lo := 16) 16 small
      have allowed : (!s.sup && s.x t != 0) = false := by
        rcases mode with h | h
        · rw [h]; rfl
        · rw [show s.x t = 0 from h]; exact Bool.and_false _
      have body := exec_of_meaning (execGabort d a t) rfl rfl adm
      simp only [pad, allowed, ne_eq, not_true_eq_false, if_false, Bool.false_eq_true] at body
      refine ⟨fun live => ?_, fun none_ => ?_⟩
      · rw [Retires, body, show s.liveGang (s.x a).toNat (if s.sup = true then (s.x t).setWidth 16 else s.act.asid) = some g from live]
        rfl
      · rw [Retires, body, show s.liveGang (s.x a).toNat (if s.sup = true then (s.x t).setWidth 16 else s.act.asid) = none from none_]
        rfl

/-- Settles O42: each meaning's case. -/
theorem systemInstructions : Obligations.SystemInstructions := by
  unfold Obligations.SystemInstructions
  refine ⟨fun s => ?_, fun s p m h n z w => ?_⟩
  · intro claimed back
    refine ⟨traps_of_body execEcall rfl rfl rfl, fun adm on => ?_, fun adm off own plain => ?_, fun adm off other => ?_,
      exec_of_meaning execEret rfl rfl, exec_of_meaning execHalt rfl rfl⟩
    · exact retires_of_body execEbreak rfl rfl (if_pos on) adm
    · refine settles_of_body execEbreak rfl rfl ?_ adm
      rw [off, show (s.core s.cur).dbg.ebkclm = true from own, plain]
      rfl
    · have free : ((s.core s.cur).dbg.ebkclm && !s.isGust) = false := by
        rcases other with h | h
        · rw [show (s.core s.cur).dbg.ebkclm = false from h, Bool.false_and]
        · rw [h, Bool.not_true, Bool.and_false]
      refine traps_of_body execEbreak rfl rfl ?_ adm
      rw [off, free]
      rfl
  · intro a v sel i c drops
    refine ⟨fun adm pad path => ?_, fun adm inside => ?_, fun adm outside => ?_, fun adm => ?_, fun adm => ?_, fun none_ other => ?_,
      fun none_ prefix_ => ?_⟩
    · have low : bits (s.x m).toNat 0 2 = sel := by simp [bits, sel, v]
      have refused : ((sel == 0 || sel == 3) && !isTranslated (bits (s.p p).toNat 56 8)) = false := by
        rcases path with one | two | there
        · rw [one]; rfl
        · rw [two]; rfl
        · rw [show isTranslated (bits (s.p p).toNat 56 8) = true from there]; exact Bool.and_false _
      refine retires_of_body (execTinv p m) rfl rfl ?_ adm
      simp only [show bits (s.x m).toNat 2 14 = 0 from pad, low, refused, ne_eq, not_true_eq_false, if_false, Bool.false_eq_true,
        show tinvDrops s.act.asid (s.p p) (s.x m) = drops from tinvDrops_eq _ _ _]
      rfl
    · exact (exec_of_meaning (execSafe h n) rfl rfl adm).trans (by rw [if_neg (Nat.not_le.mpr inside)])
    · exact traps_of_body (execSafe h n) rfl rfl (if_pos outside) adm
    · rw [exec_of_meaning (execPfxExt z) rfl rfl adm]
      exact congrArg (fun w => Host.Outcome.next (s.finish (.pending w s))) (ofNat_add_payload 0xFC z)
    · rw [exec_of_meaning (execPfxOpt z) rfl rfl adm]
      exact congrArg (fun w => Host.Outcome.next (s.finish (.pending w s))) (ofNat_add_payload 0xFD z)
    · exact congrArg Host.Outcome.next (if_neg (fun h => other ((opcode_iff w).mp h)))
    · exact congrArg Host.Outcome.next (if_pos ((opcode_iff w).mpr prefix_))
end
section
/-! PROOFS. CSRs and engine registers (O41). -/

namespace Sys2Proof.Machine

/-! Fields of words. -/

theorem setWidth_setWidth_eq_and (v : Word) {k : Nat} (h : k ≤ 32) :
    (v.setWidth k).setWidth 32 = v &&& BitVec.ofNat 32 (2 ^ k - 1) := by
  have small : 2 ^ k ≤ 2 ^ 32 := Nat.pow_le_pow_right (by decide) h
  have low : 2 ^ k - 1 < 2 ^ 32 := lt_of_lt_of_le (Nat.sub_lt (Nat.two_pow_pos k) Nat.one_pos) small
  apply BitVec.eq_of_toNat_eq
  rw [BitVec.toNat_and, BitVec.toNat_ofNat, Nat.mod_eq_of_lt low, Nat.and_two_pow_sub_one_eq_mod, BitVec.toNat_setWidth,
    BitVec.toNat_setWidth, Nat.mod_eq_of_lt (lt_of_lt_of_le (Nat.mod_lt _ (Nat.two_pow_pos k)) small)]

theorem low_setLow (v : Dword) (w : Word) : low (setLow v w) = w := by
  ext i h
  rw [low, setLow, BitVec.getElem_extractLsb', BitVec.getLsbD_append, Nat.zero_add, if_pos h, BitVec.getLsbD_eq_getElem]

theorem high_setHigh (v : Dword) (w : Word) : high (setHigh v w) = w := by
  ext i h
  rw [high, setHigh, BitVec.getElem_extractLsb', BitVec.getLsbD_append, if_neg (by omega), Nat.add_sub_cancel_left,
    BitVec.getLsbD_eq_getElem]

/-- The two lowest bits of a word. -/
theorem and_three_eq (v : Word) :
    v &&& 3 = BitVec.ofNat 32 ((if v.getLsbD 1 then 2 else 0) + (if v.getLsbD 0 then 1 else 0)) := by
  apply BitVec.eq_of_toNat_eq
  have low : (v &&& 3).toNat = v.toNat % 4 := Nat.and_two_pow_sub_one_eq_mod v.toNat 2
  rw [low, BitVec.toNat_ofNat, ← BitVec.testBit_toNat, ← BitVec.testBit_toNat, Nat.testBit_eq_decide_div_mod_eq,
    Nat.testBit_eq_decide_div_mod_eq]
  simp only [decide_eq_true_eq]
  split <;> split <;> omega

theorem status_put (c : Csrs) (v : Word) : (c.put 0x20 v).status = (v &&& 3) ||| (c.status &&& ~~~3) := by
  rw [and_three_eq]
  simp only [Csrs.put, Csrs.status]
  cases c.gustc <;> cases c.gelig <;> cases c.bank <;> cases c.pmode <;> cases c.mode <;> cases v.getLsbD 1 <;>
    cases v.getLsbD 0 <;> rfl

theorem cause_put (c : Csrs) (v : Word) : (c.put 0x23 v).cause = v &&& 0x800000FF := by
  have mask : ∀ i : Fin 32, (0x800000FF : Word).getLsbD i = (decide (i.val < 8) || decide (i.val = 31)) := by decide
  have top : (if v.getLsbD 31 then 2 ^ 31 else 0) = 2 ^ 31 * (v.toNat / 2 ^ 31) := by
    rw [← BitVec.testBit_toNat, Nat.testBit_eq_decide_div_mod_eq]
    simp only [decide_eq_true_eq]
    split <;> omega
  have small : (v.setWidth 8).toNat < 2 ^ 31 := (v.setWidth 8).isLt.trans (by decide)
  show BitVec.ofNat 32 ((if v.getLsbD 31 then 2 ^ 31 else 0) + (v.setWidth 8).toNat) = _
  ext i h
  rw [BitVec.getElem_and, ← BitVec.getLsbD_eq_getElem, ← BitVec.getLsbD_eq_getElem, ← BitVec.getLsbD_eq_getElem, mask ⟨i, h⟩,
    BitVec.getLsbD_ofNat, decide_eq_true h, Bool.true_and, top, Nat.testBit_two_pow_mul_add _ small, BitVec.testBit_toNat,
    BitVec.getLsbD_setWidth]
  by_cases below : i < 31
  · rw [if_pos below, decide_eq_false (show ¬i = 31 by omega), Bool.or_false, Bool.and_comm]
  · obtain rfl : i = 31 := by omega
    rw [if_neg below, Nat.sub_self, Nat.testBit_div_two_pow, BitVec.testBit_toNat]
    simp

theorem chst_put (c : BitVec 8) (v : Word) : (c &&& ~~~(v.setWidth 8)).setWidth 32 = c.setWidth 32 &&& ~~~v := by
  ext i h
  simp only [BitVec.getElem_setWidth, BitVec.getElem_and, BitVec.getElem_not, BitVec.getLsbD_and, BitVec.getLsbD_not,
    BitVec.getLsbD_setWidth, BitVec.getLsbD_eq_getElem h]
  by_cases in8 : i < 8
  · simp [in8]
  · simp [in8, BitVec.getLsbD_of_ge c i (by omega)]

/-! Reading a CSR after a write (R387). -/

section
variable {s : State} {c n num : Nat} {v : Word}

/-- A CSR that the slot keeps reads what the write put there. -/
theorem csrRead_slotCsr (hw : s.csrWrite c n num v = (s.modThread c n fun t => { t with csr := t.csr.put num v }, false))
    (hr : ∀ u : State, u.csrRead c n num = ((u.thread c n).csr.get num).getD 0) :
    (s.csrWrite c n num v).1.csrRead c n num = (((s.thread c n).csr.put num v).get num).getD 0 := by
  rw [hw, hr, thread_modThread, if_pos ⟨rfl, rfl⟩]

/-- A CSR that the core keeps reads what the write put there. -/
theorem csrRead_coreCsr {k : Core} {b : Bool} {f : Core → Word} (hw : s.csrWrite c n num v = (s.setCore c k, b))
    (hr : ∀ u : State, u.csrRead c n num = f (u.core c)) : (s.csrWrite c n num v).1.csrRead c n num = f k := by
  rw [hw, hr, core_setCore_same]

theorem setClasses_slotcls (k : Core) (v : Byte) (now : Nat) : (k.setClasses v now).slotcls = v := by
  have keeps (l : List Nat) (j : Core) : (l.foldl (fun k n => let t := k.thread n
      if t.act.isNone then k.setThread n (t.takeClass (bits v.toNat (2 * n) 2) now) else k) j).slotcls = j.slotcls := by
    induction l generalizing j with
    | nil => rfl
    | cons n l ih =>
      rw [List.foldl_cons, ih]
      dsimp only
      split <;> rfl
  exact keeps _ _

end

/-- A write of `l1cfg` that fits starts the change, and one that does not is ignored (R85). -/
theorem csrWrite_l1cfg (s : State) (c n : Nat) (v : Word) :
    s.csrWrite c n 0x43 v =
      if coreType c = .reasoning ∧ s.l1Fits c (v.setWidth 2) = true ∧ (s.core c).l1pending = none then
        (s.setCore c { s.core c with l1pending := some (v.setWidth 2) }, true)
      else (s, false) := by
  simp only [State.csrWrite, Option.isNone_iff_eq_none]

/-- Only a change of `l1cfg` interlocks its writer. -/
theorem csrWrite_free {s : State} {c n num : Nat} {v : Word} (other : num ≠ 0x43) : (s.csrWrite c n num v).2 = false := by
  unfold State.csrWrite
  dsimp only
  split
  case h_4 => exact absurd rfl other
  case h_2 => split <;> rfl
  case h_3 => split <;> rfl
  all_goals rfl

/-- What each CSR reads after a write of it (R63 to R65, R85, R86). -/
theorem csr_written (s : State) (c n num : Nat) (v : Word) :
    let now := (s.csrWrite c n num v).1.csrRead c n num
    let old := s.csrRead c n num
    let k := s.core c
    let fits := coreType c = .reasoning ∧ s.l1Fits c (v.setWidth 2) = true ∧ k.l1pending = none
    let ring (base size : Word) : Prop := base.toNat + size.toNat ≤ s.ringLimit c ∧ k.pending = []
    (num ∈ [0x00, 0x01] → now = v &&& 0xF) ∧ (num = 0x02 → now = v &&& 3) ∧ (num = 0x03 → now = old &&& ~~~v) ∧
    (num ∈ [0x18, 0x19, 0x21, 0x22, 0x24, 0x25, 0x27, 0x28, 0x48, 0x49, 0x4A] → now = v) ∧
    (num = 0x1A → now = if v.toNat ≤ 4096 then v else old) ∧ (num = 0x20 → now = (v &&& 3) ||| (old &&& ~~~3)) ∧
    (num = 0x23 → now = v &&& 0x800000FF) ∧ (num = 0x26 → now = v &&& ~~~3) ∧ (num = 0x40 → now = v &&& 0xFF) ∧
    (num = 0x41 → now = if v.toNat % 64 = 0 ∧ ring v k.spsize then v else old) ∧
    (num = 0x42 → now = if v.toNat % 0x1000 = 0 ∧ 0x1000 ≤ v.toNat ∧ v.toNat ≤ 0x10000 ∧ ring k.spbase v then v else old) ∧
    (num ∈ [0x10, 0x11, 0x12, 0x13, 0x14, 0x30, 0x31, 0x43, 0x50, 0x51, 0x60, 0x61] → now = old) ∧
    ((s.csrWrite c n num v).2 = true ↔ num = 0x43 ∧ fits) ∧
    (num = 0x43 → ((s.csrWrite c n num v).1.core c).l1pending = if fits then some (v.setWidth 2) else k.l1pending) := by
  intro now old k fits ring
  refine ⟨fun h => ?_, fun h => ?_, fun h => ?_, fun h => ?_, fun h => ?_, fun h => ?_, fun h => ?_, fun h => ?_, fun h => ?_,
    fun h => ?_, fun h => ?_, fun h => ?_, ?_, fun h => ?_⟩
  · simp only [List.mem_cons, List.not_mem_nil, or_false] at h
    rcases h with rfl | rfl <;>
      exact (csrRead_slotCsr rfl fun _ => rfl).trans (setWidth_setWidth_eq_and v (k := 4) (by decide))
  · subst h
    exact (csrRead_slotCsr rfl fun _ => rfl).trans (setWidth_setWidth_eq_and v (k := 2) (by decide))
  · subst h
    exact (csrRead_slotCsr rfl fun _ => rfl).trans (chst_put _ v)
  · simp only [List.mem_cons, List.not_mem_nil, or_false] at h
    rcases h with rfl | rfl | rfl | rfl | rfl | rfl | rfl | rfl | rfl | rfl | rfl
    · exact (csrRead_slotCsr rfl fun _ => rfl).trans (low_setLow _ v)
    · exact (csrRead_slotCsr rfl fun _ => rfl).trans (high_setHigh _ v)
    · exact (csrRead_slotCsr rfl fun _ => rfl).trans (low_setLow _ v)
    · exact (csrRead_slotCsr rfl fun _ => rfl).trans (high_setHigh _ v)
    · exact (csrRead_slotCsr rfl fun _ => rfl).trans (low_setLow _ v)
    · exact (csrRead_slotCsr rfl fun _ => rfl).trans (high_setHigh _ v)
    · exact (csrRead_slotCsr rfl fun _ => rfl).trans (high_setHigh _ v)
    · exact csrRead_slotCsr rfl fun _ => rfl
    · exact csrRead_coreCsr (num := 0x48) (k := { k with cx := { k.cx with w4sc := v } }) (f := fun k => k.cx.w4sc) rfl fun _ => rfl
    · exact csrRead_coreCsr (num := 0x49) (k := { k with cx := { k.cx with w3sc := v } }) (f := fun k => k.cx.w3sc) rfl fun _ => rfl
    · exact csrRead_coreCsr (num := 0x4A) (k := { k with cx := { k.cx with mxsc := v } }) (f := fun k => k.cx.mxsc) rfl fun _ => rfl
  · subst h
    refine (csrRead_slotCsr rfl fun _ => rfl).trans ?_
    by_cases fits : v.toNat ≤ 4096
    · simp only [Csrs.put, if_neg (Nat.not_lt.mpr fits), if_pos fits]
      rfl
    · simp only [Csrs.put, if_pos (Nat.lt_of_not_le fits), if_neg fits]
      rfl
  · subst h
    exact (csrRead_slotCsr rfl fun _ => rfl).trans (status_put _ v)
  · subst h
    exact (csrRead_slotCsr rfl fun _ => rfl).trans (cause_put _ v)
  · subst h
    exact (csrRead_slotCsr rfl fun _ => rfl).trans (low_setLow _ _)
  · subst h
    exact (csrRead_coreCsr (f := fun k => k.slotcls.setWidth 32) rfl fun _ => rfl).trans
      ((congrArg (BitVec.setWidth 32) (setClasses_slotcls _ _ _)).trans (setWidth_setWidth_eq_and v (k := 8) (by decide)))
  · subst h
    have same : (v.toNat % 64 = 0 ∧ ringFits v.toNat k.spsize.toNat (s.ringLimit c) = true ∧ k.pending.isEmpty = true) ↔
        v.toNat % 64 = 0 ∧ ring v k.spsize := by
      simp only [ringFits, decide_eq_true_eq, List.isEmpty_iff, ring]
    by_cases ok : v.toNat % 64 = 0 ∧ ring v k.spsize
    · rw [if_pos ok]
      have wrote : s.csrWrite c n 0x41 v = (s.setCore c { k with spbase := v }, false) := if_pos (same.mpr ok)
      exact csrRead_coreCsr (f := fun k => k.spbase) wrote fun _ => rfl
    · rw [if_neg ok]
      have kept : s.csrWrite c n 0x41 v = (s, false) := if_neg (mt same.mp ok)
      simp only [now, kept]
      rfl
  · subst h
    have same : (v.toNat % 0x1000 = 0 ∧ 0x1000 ≤ v.toNat ∧ v.toNat ≤ 0x10000 ∧
          ringFits k.spbase.toNat v.toNat (s.ringLimit c) = true ∧ k.pending.isEmpty = true) ↔
        v.toNat % 0x1000 = 0 ∧ 0x1000 ≤ v.toNat ∧ v.toNat ≤ 0x10000 ∧ ring k.spbase v := by
      simp only [ringFits, decide_eq_true_eq, List.isEmpty_iff, ring]
    by_cases ok : v.toNat % 0x1000 = 0 ∧ 0x1000 ≤ v.toNat ∧ v.toNat ≤ 0x10000 ∧ ring k.spbase v
    · rw [if_pos ok]
      have wrote : s.csrWrite c n 0x42 v = (s.setCore c { k with spsize := v }, false) := if_pos (same.mpr ok)
      exact csrRead_coreCsr (f := fun k => k.spsize) wrote fun _ => rfl
    · rw [if_neg ok]
      have kept : s.csrWrite c n 0x42 v = (s, false) := if_neg (mt same.mp ok)
      simp only [now, kept]
      rfl
  · simp only [List.mem_cons, List.not_mem_nil, or_false] at h
    rcases h with rfl | rfl | rfl | rfl | rfl | rfl | rfl | rfl | rfl | rfl | rfl | rfl
    · exact csrRead_slotCsr rfl fun _ => rfl
    · exact csrRead_slotCsr rfl fun _ => rfl
    · exact csrRead_slotCsr rfl fun _ => rfl
    · exact csrRead_slotCsr rfl fun _ => rfl
    · exact csrRead_slotCsr rfl fun _ => rfl
    · show BitVec.ofNat 32 ((s.modThread c n _).thread c n).run.thst = _
      rw [thread_modThread, if_pos ⟨rfl, rfl⟩]
      rfl
    · exact csrRead_slotCsr rfl fun _ => rfl
    · by_cases ok : fits
      · have wrote := (csrWrite_l1cfg s c n v).trans (if_pos ok)
        exact (csrRead_coreCsr (f := fun k => k.l1cfg.setWidth 32) wrote fun _ => rfl).trans rfl
      · have kept := (csrWrite_l1cfg s c n v).trans (if_neg ok)
        exact congrArg (fun r : State × Bool => r.1.csrRead c n 0x43) kept
    · rfl
    · rfl
    · rfl
    · exact csrRead_coreCsr (k := k.setThread n { s.thread c n with csr := (s.thread c n).csr.put 0x61 v })
        (f := fun k => k.asid.setWidth 32) rfl fun _ => rfl
  · by_cases l1 : num = 0x43
    · subst l1
      rw [csrWrite_l1cfg]
      by_cases ok : fits
      · rw [if_pos ok]
        exact ⟨fun _ => ⟨rfl, ok⟩, fun _ => rfl⟩
      · rw [if_neg ok]
        exact ⟨fun h => absurd h Bool.false_ne_true, fun h => absurd h.2 ok⟩
    · rw [csrWrite_free l1]
      exact ⟨fun h => absurd h Bool.false_ne_true, fun h => absurd h.1 l1⟩
  · subst h
    rw [csrWrite_l1cfg]
    by_cases ok : fits
    · rw [if_pos ok, if_pos ok, core_setCore_same]
    · rw [if_neg ok, if_neg ok]

/-! Engine registers (R392). -/

/-- An engine register that the slot keeps reads what was written to it, and the others read as before. -/
theorem engineRead_engineWrite (s : State) (c n r : Nat) {eng : Nat} (own : 16 ≤ eng) (v : Dword) :
    (s.engineWrite c n eng v).engineRead c n r =
      if r = eng then (v &&& BitVec.ofNat 64 (engineMask eng)) ||| (s.engineRead c n eng &&& ~~~BitVec.ofNat 64 (engineMask eng))
      else s.engineRead c n r := by
  have wrote : s.engineWrite c n eng v = s.modThread c n (·.setE eng
      ((v &&& BitVec.ofNat 64 (engineMask eng)) ||| (s.engineRead c n eng &&& ~~~BitVec.ofNat 64 (engineMask eng)))) := by
    simp only [State.engineWrite, if_neg (show ¬eng = 5 by omega), if_neg (show ¬(eng = 6 ∨ eng = 9) by omega)]
  rw [wrote]
  generalize (v &&& BitVec.ofNat 64 (engineMask eng)) ||| (s.engineRead c n eng &&& ~~~BitVec.ofNat 64 (engineMask eng)) = new
  have tile : ((s.modThread c n (·.setE eng new)).core c).cx.mx = (s.core c).cx.mx := by
    rw [show (s.modThread c n (·.setE eng new)).core c = _ from core_setCore_same s c _]
    rfl
  have slot : ((s.modThread c n (·.setE eng new)).thread c n).getE r = if r = eng then new else (s.thread c n).getE r := by
    rw [thread_modThread, if_pos ⟨rfl, rfl⟩]
    exact FMap.get_put _ _ _ _ _
  simp only [State.engineRead, tile, slot]
  by_cases same : r = eng
  · subst same
    simp only [if_true, if_neg (show ¬r = 5 by omega), if_neg (show ¬r = 6 by omega), if_neg (show ¬r = 9 by omega)]
  · simp only [if_neg same]

end Sys2Proof.Machine

open Sys2Proof Sys2Proof.Machine

/-- Settles O41: each access as its check passes or not, with what a CSR or an engine register reads after a write. -/
theorem controlRegisterAccesses : Obligations.ControlRegisterAccesses := by
  unfold Obligations.ControlRegisterAccesses
  intro s d a c n num old set clear w eng k
  refine ⟨fun may => ⟨fun adm => ?_, fun free => ?_⟩, fun refused => ?_, fun v => csr_written s s.cur s.slot num v, fun has => ?_,
    fun own r v => engineRead_engineWrite s s.cur s.slot r own v⟩
  · exact retires_of_body (execCsrr d c) rfl rfl (if_neg (not_not_intro may)) adm
  · have puts (i : Instr) (word : Word) (val : Word) (m : State → Out) (body : State → Res) (hx : exec i s = m s)
        (hm : m s = issue i body s) (hb : body s = s.putCsr word num val) (adm : Admitted i s) :
        ((w val).2 = false → Retires i s (w val).1) ∧
          ((w val).2 = true → exec i s = .next (s.finish (.leave (.blocked .interlock) (w val).1))) := by
      have put : s.putCsr word num val = if (w val).2 = true then .leave (.blocked .interlock) (w val).1 else .retire (w val).1 := by
        rw [State.putCsr, if_neg (not_not_intro may), if_neg free]
      have body' := (exec_of_meaning m hx hm adm).trans (congrArg (fun r => Host.Outcome.next (s.finish r)) (hb.trans put))
      exact ⟨fun off => body'.trans (by rw [off, if_neg Bool.false_ne_true]), fun on => body'.trans (by rw [on, if_pos rfl])⟩
    have clears : isClearCsr num = decide (num = 3) := rfl
    simp only [List.forall_mem_cons]
    refine ⟨puts _ _ _ (execCsrw a c) _ rfl rfl rfl, puts _ (encode (.csrs a c)) _ (execCsrs a c) _ rfl rfl ?_,
      puts _ (encode (.csrc a c)) _ (execCsrc a c) _ rfl rfl ?_,
      List.forall_mem_nil _⟩
    · simp only [show isClearCsr c.toNat = _ from clears, decide_eq_true_eq]
      rfl
    · simp only [show isClearCsr c.toNat = _ from clears, decide_eq_true_eq]
      rfl
  · have trapped (word : Word) (val : Word) : s.putCsr word num val = .trap (s.csrRefuses num) (wordValue word) s :=
      if_pos refused
    simp only [List.forall_mem_cons]
    exact ⟨traps_of_body (execCsrr d c) rfl rfl (if_pos refused), traps_of_body (execCsrw a c) rfl rfl (trapped _ _),
      traps_of_body (execCsrs a c) rfl rfl (trapped _ _), traps_of_body (execCsrc a c) rfl rfl (trapped _ _),
      List.forall_mem_nil _⟩
  · exact ⟨retires_of_body (execErd d n) rfl rfl (if_pos has), retires_of_body (execEwr a n) rfl rfl (if_pos has)⟩
end
section
/-! PROOFS. Arrivals (O43). -/

namespace Sys2Proof.Machine

/-! Events. -/

section
variable {i : Instr} {s t : State} {ok : Bool} {P : Prop} {body : State → State} (m : State → Out)

/-- An event happens where its units exist, with its effect. -/
theorem happens_of_event (hx : exec i s = m s) (hm : m s = event ok body s) (hok : ok = true ↔ P) (hb : body s = t) :
    Happens i s P t := by
  rw [Happens, hx, hm, event_eq, hb]
  exact ⟨fun p => if_pos (hok.mpr p), fun np => if_neg (mt hok.mp np)⟩

/-- An event that names no unit happens. -/
theorem happens_always (hx : exec i s = m s) (hm : m s = event true body s) (hb : body s = t) : Happens i s True t :=
  happens_of_event m hx hm ⟨fun _ => trivial, fun _ => rfl⟩ hb

theorem isCore_iff (c : Nat) : isCore c = true ↔ c < 360 := decide_eq_true_iff

/-- An event of a core happens where the core exists. -/
theorem happens_at_core {c : Nat} (hx : exec i s = m s) (hm : m s = event (isCore c) body s) (hb : body s = t) :
    Happens i s (c < 360) t :=
  happens_of_event m hx hm (isCore_iff c) hb
end

theorem both_decided (P Q : Prop) [Decidable P] [Decidable Q] : (decide P && decide Q) = true ↔ P ∧ Q := by
  rw [Bool.and_eq_true, decide_eq_true_iff, decide_eq_true_iff]

end Sys2Proof.Machine

open Sys2Proof Sys2Proof.Machine

/-- Settles O43: each event's cases are those of its meaning. -/
theorem arrivalEvents : Obligations.ArrivalEvents := by
  unfold Obligations.ArrivalEvents
  intro s c n j k fl fewer happens credit notice arrival add beat early back left sent loaded started landed arrived taken placed
    dispatched accepted placement found reported scanned stale
  have one {α : Type} (l : List α) : l.eraseIdx j = fewer l := List.eraseIdx_eq_take_drop_succ l j
  refine ⟨happens_always (execMessageArrival j) rfl rfl ?_, happens_at_core (execInboxPortAccept c) rfl rfl ?_,
    happens_at_core (execMessageDispatch c) rfl rfl ?_, happens_always (execCreditReturn j) rfl rfl ?_,
    happens_at_core (execSuccessorSend c) rfl rfl ?_, happens_at_core (execUnboundHoldExpiry c) rfl rfl rfl,
    happens_always execGangRequestAccept rfl rfl ?_, happens_always execPlacementPass rfl rfl rfl,
    happens_of_event (execGangMemberStart c n) rfl rfl (both_decided _ _) ?_, happens_always (execTriggerNotice j) rfl rfl ?_,
    happens_always (execBarrierArrival j) rfl rfl ?_, happens_always (execRemoteCaddArrival j) rfl rfl ?_,
    happens_always (execChannelBeatArrival j) rfl rfl ?_, happens_always (execChannelCreditReturn j) rfl rfl ?_,
    happens_always execSquallScan rfl rfl ?_⟩
  · rcases h : s.flight.messages[j]? with _ | e
    · simp only [State.arrive, arrived, fl, h]
    · simp only [State.arrive, State.deliver, arrived, landed, fl, h, Bool.or_eq_true, decide_eq_true_eq, List.isEmpty_iff] <;> rfl
  · rcases h : k.inbox with _ | ⟨m, rest⟩
    · simp only [State.takeInbox, taken, show (s.core c).inbox = [] from h, h]
    · simp only [State.takeInbox, taken, show (s.core c).inbox = m :: rest from h, h]
      rfl
  · rcases due : s.startable c with _ | ⟨i, m, idx, e, msg⟩
    · rcases load : s.loadable c with _ | ⟨i, m, idx, e, msg⟩
      · simp only [State.dispatch, dispatched, due, load] <;> rfl
      · simp only [State.dispatch, dispatched, placed, due, load] <;> rfl
    · simp only [State.dispatch, dispatched, placed, due] <;> rfl
  · rcases h : s.flight.credits[j]? with _ | e
    · simp only [h]
    · simp only [fl, credit, ← one]
  · rcases h : k.succQ with _ | ⟨m, rest⟩
    · simp only [sent, h, Core.successorDue, show (s.core c).succQ = [] from h, ite_self]
    · have queue : (s.core c).succQ = m :: rest := h
      cases m with
      | gang d asid =>
        have due : k.successorDue = true := by rw [Core.successorDue, h]
        simp only [show (s.core c).successorDue = true from due, sent, queue, h, Bool.not_true, Bool.false_eq_true, if_false]
        rfl
      | message dst m =>
        by_cases due : k.successorDue = true
        · simp only [show (s.core c).successorDue = true from due, sent, queue, h, due, Bool.not_true, Bool.false_eq_true, if_false,
            if_true]
          rfl
        · simp only [show (s.core c).successorDue = false from Bool.eq_false_iff.mpr due, sent, h, due, Bool.not_false, if_true,
            Bool.false_eq_true, if_false]
  · rcases h : s.gangPort with _ | ⟨r, rest⟩
    · simp only [State.acceptGang, accepted, h]
    · simp only [State.acceptGang, accepted, h, ne_eq, ite_not]
      cases r.step <;> rfl
  · rcases h : (s.thread c n).shadow with _ | m
    · simp only [started, h]
    · simp only [started, loaded, h, State.startLoaded, Bool.and_eq_true]
      rfl
  · rcases h : s.flight.notices[j]? with _ | e
    · simp only [h]
    · simp only [fl, notice, ← one] <;> rfl
  · rcases h : s.flight.arrivals[j]? with _ | e
    · simp only [h]
    · simp only [fl, arrival, ← one]
  · rcases h : s.flight.cadds[j]? with _ | e
    · simp only [h]
    · simp only [fl, add, ← one]
  · rcases h : s.flight.beats[j]? with _ | e
    · simp only [h]
    · simp only [fl, h, beat, early, ← one, Bool.or_eq_true]
  · rcases h : s.flight.chanCredits[j]? with _ | e
    · simp only [h]
    · simp only [fl, back, ← one]
  · simp only [State.squallScan, scanned, reported, found, Bool.not_eq_true']
end
section
/-! PROOFS. Memory, translation, the engines and the slices answer (O44). -/

namespace Sys2Proof.Machine

theorem slotOk_iff (c n : Nat) : (isCore c && decide (n < 4)) = true ↔ c < 360 ∧ n < 4 := both_decided _ _

theorem targetOk_iff (c n : Nat) :
    ((isCore c || (isAway c && decide (c < 8192))) && decide (n < 4)) = true ↔ (c < 360 ∨ (4096 ≤ c ∧ c < 8192)) ∧ n < 4 := by
  simp only [isCore, isAway, Bool.and_eq_true, Bool.or_eq_true, decide_eq_true_eq]

theorem lineEventOk_iff (e : LineEvent) :
    lineEventOk e = true ↔ e.slice < 64 ∧ isBacked e.pa.toNat = true ∧ homeSlice e.pa.toNat = e.slice := by
  simp only [lineEventOk, Bool.and_eq_true, decide_eq_true_eq, beq_iff_eq, and_assoc]

theorem agentSlot_iff (c n : Nat) :
    (coreType c == .agent && decide (c < 352) && decide (n < 4)) = true ↔ 288 ≤ c ∧ c < 352 ∧ n < 4 := by
  have agent : coreType c = .agent ↔ 288 ≤ c ∧ c < 352 := by
    unfold coreType
    split
    · simp; omega
    · split
      · simp; omega
      · split
        · simp; omega
        · simp; omega
  simp only [agent, Bool.and_eq_true, beq_iff_eq, decide_eq_true_eq]
  tauto

/-- A change of the tenant's context leaves it saved or not. -/
theorem modCtx_saved (k : Core) (f : TileCtx → TileCtx) : (k.modCtx f).saved.isSome = k.saved.isSome := by
  unfold Core.modCtx
  split
  · next i saved => rw [saved]; rfl
  · next saved => rfl

theorem modTenantCtx_saved {s : State} {c : Nat} (here : isAway c = false) (f : TileCtx → TileCtx) :
    ((s.modTenantCtx c f).core c).saved.isSome = (s.core c).saved.isSome := by
  rw [State.modTenantCtx, here, if_neg Bool.false_ne_true, core_modCore, if_pos rfl, modCtx_saved]

/-- A channel that runs no command does nothing. -/
theorem moverStep_idle {s : State} {c n : Nat}
    (idle : ((s.core c).cx.mover n).st ≠ .running ∨ ((s.core c).cx.mover n).run = none) : s.moverStep c n = s := by
  unfold State.moverStep
  dsimp only
  split
  · next running cmd =>
    rcases idle with still | none_
    · exact absurd running still
    · rw [none_] at cmd
      cases cmd
  · rfl

/-- A line that is listed is at its slice. -/
theorem lineAt_of_listed {s : State} {n key : Nat} {l : Line} (h : FMap.find (s.sliceAt n).lines key = some l) :
    s.lineAt n key = some l := by
  rw [State.lineAt, h]

theorem lineAt_of_unlisted {s : State} {n key : Nat} (h : FMap.find (s.sliceAt n).lines key = none) (off : s.sinkLine key = false) :
    s.lineAt n key = none := by
  rw [State.lineAt, h, off]
  rfl

end Sys2Proof.Machine

open Sys2Proof Sys2Proof.Machine

/-- Settles O44: each event's cases are those of its meaning. -/
theorem memoryAndEngineEvents : Obligations.MemoryAndEngineEvents := by
  unfold Obligations.MemoryAndEngineEvents
  intro s c n j f h e k t slotOk wakes ready target key line homed spent ended evicted resized served walked answered o accessed
    computed mx filled moved mov issuer copied q ctl asid desc loaded
  have tile : isTile c = true ↔ c < 288 := decide_eq_true_iff
  have faults (a : FaultAnswer) : s.answerFault f a = answered a := by
    cases f with
    | thread c n =>
      by_cases waits : (FMap.get (s.tenantCtx c).threads n ({} : Thread)).run = .suspended .fault ∧
          (FMap.get (s.tenantCtx c).threads n ({} : Thread)).answer = .waiting
      · have asked : ¬((FMap.get (s.tenantCtx c).threads n ({} : Thread)).run ≠ .suspended .fault ∨
            (FMap.get (s.tenantCtx c).threads n ({} : Thread)).answer ≠ .waiting) := by tauto
        simp only [State.answerFault, State.answerThread, answered, if_pos waits, if_neg asked, Bool.or_eq_true]
        cases away : isAway c
        · simp only [Bool.false_eq_true, false_or, modTenantCtx_saved away]
        · simp only [true_or, if_true]
      · have free : (FMap.get (s.tenantCtx c).threads n ({} : Thread)).run ≠ .suspended .fault ∨
            (FMap.get (s.tenantCtx c).threads n ({} : Thread)).answer ≠ .waiting := by tauto
        simp only [State.answerFault, State.answerThread, answered, if_neg waits, if_pos free]
    | channel c n => rfl
  have targets : faultTargetOk f = true ↔ target := by
    cases f
    · exact targetOk_iff _ _
    · exact targetOk_iff _ _
  have homedIff : lineEventOk e = true ↔ homed := lineEventOk_iff e
  have element (on : k.enginesRun = true) (ok : slotOk) : exec (.moverElement c n) s = .next (s.moverTurn c n) := by
    refine (happens_of_event (execMoverElement c n) rfl rfl (slotOk_iff c n) ?_).1 ok
    exact if_pos on
  refine ⟨happens_of_event (execL1ResizeComplete c) rfl rfl decide_eq_true_iff ?_,
    happens_of_event (execPageWalkComplete c n) rfl rfl (slotOk_iff c n) ?_,
    happens_of_event (execTranslationReplay f) rfl rfl targets (faults _),
    happens_of_event (execTranslationAbort f) rfl rfl targets (faults _),
    happens_of_event (execStoreBufferPerform c n) rfl rfl (slotOk_iff c n) rfl,
    happens_always (execHostMemoryAccess h) rfl rfl ?_,
    happens_of_event (execRequestResponse c n) rfl rfl (slotOk_iff c n) ?_,
    happens_of_event (execWrsTimeout c n) rfl rfl (slotOk_iff c n) rfl,
    happens_of_event (execFgetParkRetry c n) rfl rfl (slotOk_iff c n) rfl,
    happens_of_event (execFutureWake c n) rfl rfl (slotOk_iff c n) rfl,
    happens_of_event (execMatrixCommandComplete c) rfl rfl tile ?_,
    happens_of_event (execLatchFillComplete c j) rfl rfl (both_decided _ _) ?_,
    happens_of_event (execHandoffClaim c) rfl rfl tile rfl,
    happens_of_event (execHandoffComplete c) rfl rfl tile rfl,
    happens_of_event (execMoverElement c n) rfl rfl (slotOk_iff c n) rfl,
    fun ok on quiet idle => ?_, fun m bs u ok on quiet runs cmd alone got put => ?_,
    happens_always (execMbsnapCopyComplete j) rfl rfl rfl,
    fun ok there => ?_, fun ok absent off free => ?_, fun ok full => ?_, fun l w ok there filling way => ?_,
    fun l ok there present free pins off => ?_, fun away => ?_,
    happens_of_event (execAgentBudgetExpiry c n) rfl rfl (agentSlot_iff c n) ?_,
    happens_of_event (execLoaderStart j) rfl rfl decide_eq_true_iff rfl,
    happens_of_event (execLoaderDescriptorComplete j) rfl rfl decide_eq_true_iff ?_⟩
  · rcases h : k.l1pending with _ | new
    · simp only [State.resizeL1, resized, show (s.core c).l1pending = none from h, h]
    · simp only [State.resizeL1, resized, show (s.core c).l1pending = some new from h, h, Bool.and_eq_true, decide_eq_true_eq]
      rfl
  · have serves (r : WalkReq) : s.endRequest r = served r := by
      simp only [State.endRequest, served, Bool.not_eq_true', List.contains_eq_mem, decide_eq_false_iff_not]
    rcases h : s.walkOf c n with _ | r
    · rcases g : k.prefetches.find? (·.slot == n) with _ | p
      · simp only [State.endWalk, walked, h, show (s.core c).prefetches.find? (·.slot == n) = none from g, g]
      · simp only [State.endWalk, walked, h, show (s.core c).prefetches.find? (·.slot == n) = some p from g, g, serves]
    · simp only [State.endWalk, walked, h, serves]
  · simp only [State.hostAccess, accessed, Bool.and_eq_true, decide_eq_true_eq, and_assoc]
    rfl
  · rfl
  · rcases h : k.cx.mx.running with _ | m
    · simp only [State.matrixDone, computed, show (s.core c).cx.mx.running = none from h, h]
    · have running : (s.core c).cx.mx.running = some m := h
      rcases bad : (s.runMatrix c m).2 with _ | g
      · simp only [State.matrixDone, computed, running, h, bad] <;> rfl
      · simp only [State.matrixDone, computed, running, h, bad] <;> rfl
  · refine if_congr Iff.rfl ?_ rfl
    rcases h : mx.fills.find? (·.buf == j) with _ | x
    · simp only [State.fillStep, filled, show (s.core c).cx.mx.fills.find? (·.buf == j) = none from h, h]
    · simp only [State.fillStep, filled, show (s.core c).cx.mx.fills.find? (·.buf == j) = some x from h, h]
      rfl
  · refine (element on ok).trans (congrArg Host.Outcome.next ?_)
    rw [State.moverTurn, quiet]
    exact moverStep_idle idle
  · refine (element on ok).trans (congrArg Host.Outcome.next ?_)
    rw [State.moverTurn, quiet]
    simp only [State.moverStep, show ((s.core c).cx.mover n).st = .running from runs, show ((s.core c).cx.mover n).run = some m from cmd,
      show (s.core c).cx.streamOf n = none from alone, show s.elemGet m { m.issuer with core := c } m.idx = .inl bs from got,
      show (s.touchSource m { m.issuer with core := c } m.idx).elemPut m { m.issuer with core := c } m.idx bs = .inl u from put]
  · have at_ : (s.lineAt e.slice key).isSome = true := by
      obtain ⟨l, h⟩ := Option.isSome_iff_exists.mp there
      rw [lineAt_of_listed h]
      rfl
    exact (happens_of_event (execLineMissEvent e) rfl rfl homedIff (if_pos at_)).1 ok
  · have missed : s.lineAt e.slice key = none := lineAt_of_unlisted absent off
    refine ⟨_, ?_, ?_, (happens_of_event (execLineMissEvent e) rfl rfl homedIff (if_neg ?_)).1 ok⟩
    · exact Option.isNone_iff_eq_none.mpr free
    · rfl
    · rw [missed]
      exact Bool.false_ne_true
  · refine (happens_of_event (execLineFillEvent e) rfl rfl homedIff ?_).1 ok
    dsimp only
    rw [full, ite_self]
  · have listed (d : Line) : (s.lineAt e.slice key).getD d = l := by
      rw [lineAt_of_listed there]
      rfl
    refine ⟨if ((s.sliceAt e.slice).waysUsed key).contains e.way || 16 ≤ e.way then w else e.way,
      (happens_of_event (execLineFillEvent e) rfl rfl homedIff ?_).1 ok⟩
    dsimp only
    rw [listed, if_pos filling, way]
  · have leaves : ¬(!l.present || l.held || l.pins ≠ 0 || s.sinkLine key) = true := by
      rw [present, free, pins, off]
      decide
    refine (happens_of_event (execLineEvictionEvent e) rfl rfl homedIff ?_).1 ok
    dsimp only
    rw [show FMap.find (s.sliceAt e.slice).lines (lineKey e.pa.toNat) = some l from there]
    refine (if_neg leaves).trans ?_
    rw [List.contains_eq_mem]
    simp only [decide_eq_true_eq]
    rfl
  · have off : lineEventOk e = false := Bool.eq_false_iff.mpr (mt homedIff.mp away)
    exact ⟨(happens_of_event (execLineMissEvent e) rfl rfl homedIff rfl).2 away,
      (happens_of_event (execLineFillEvent e) rfl rfl homedIff rfl).2 away,
      (happens_of_event (execLineEvictionEvent e) rfl rfl homedIff rfl).2 away⟩
  · rcases h : spent with _ | p
    · simp only [ended, h, show ((s.thread c n).act.bind fun a => a.rowOf.map fun r => (a, r)) = none from h]
    · simp only [ended, h, show ((s.thread c n).act.bind fun a => a.rowOf.map fun r => (a, r)) = some p from h]
  · simp only [State.loaderStep, loaded, Bool.not_eq_true']
    rfl
end
section
/-! PROOFS. What device time brings (O45). -/

namespace Sys2Proof.Machine

theorem reflexSlot_iff (c n : Nat) : (coreType c == .reflex && decide (n < 4)) = true ↔ 256 ≤ c ∧ c < 288 ∧ n < 4 := by
  have reflex : coreType c = .reflex ↔ 256 ≤ c ∧ c < 288 := by
    unfold coreType
    split
    · simp; omega
    · split
      · simp; omega
      · split
        · simp; omega
        · simp; omega
  simp only [reflex, Bool.and_eq_true, beq_iff_eq, decide_eq_true_eq, and_assoc]

/-- A heartbeat window ends where the role watches for heartbeats and 160000 cycles have passed. -/
theorem windowOver_iff (s : State) :
    s.windowOver = true ↔ s.spare.role ≠ 0 ∧ s.spare.windowAt + 160000 ≤ s.clock.cc := by
  simp only [State.windowOver, Bool.and_eq_true, bne_iff_ne, decide_eq_true_eq]

/-- A count of missed heartbeats, which stays at 255, is read back as it was written. -/
theorem missed_toNat (n : Nat) : (BitVec.ofNat 8 (min n 255)).toNat = min n 255 := by
  rw [BitVec.toNat_ofNat]
  omega

/-- A controller tick is one of its five cases (R296). -/
theorem thermalTick_eq (s : State) (temp power : Nat) :
    let sd := s.shed
    let below (b : Nat) : State := { s with shed := { sd with temp := BitVec.ofNat 8 (min temp 255), below := b } }
    s.thermalTick temp power =
      if sd.tlim.toNat < temp ∨ sd.env.toNat < power then
        (if sd.level < 5 then (below 0).setLevel (sd.level + 1) temp power else below 0)
      else if ¬(temp + 5 < sd.tlim.toNat ∧ 100 * power < 95 * sd.env.toNat) then below 0
      else if sd.below + 1 < 10 then below (sd.below + 1)
      else if 0 < sd.level then (below 0).setLevel (sd.level - 1) temp power
      else below 0 := by
  intro sd below
  unfold State.thermalTick
  dsimp only
  by_cases hot : sd.tlim.toNat < temp ∨ sd.env.toNat < power
  · rw [if_pos hot, if_pos hot]
  · rw [if_neg hot, if_neg hot]
    by_cases cool : temp + 5 < sd.tlim.toNat ∧ 100 * power < 95 * sd.env.toNat
    · rw [if_pos cool, if_neg (not_not_intro cool)]
      by_cases few : sd.below + 1 < 10
      · rw [if_pos few, if_neg (show ¬10 ≤ s.shed.below + 1 from Nat.not_le.mpr few)]
      · rw [if_neg few, if_pos (show 10 ≤ s.shed.below + 1 from Nat.not_lt.mp few)]
    · rw [if_neg cool, if_pos cool]

end Sys2Proof.Machine

open Sys2Proof Sys2Proof.Machine

/-- Settles O45: each event's cases are those of its meaning. -/
theorem timedEvents : Obligations.TimedEvents := by
  unfold Obligations.TimedEvents
  refine ⟨?_, ?_⟩
  · intro s c n j ns r p m reflex h ck missed waited lapsed window taken stepped corrected firing mb buf head mirrored owed quiet
      k skip tick covered after expired acted overspent relocated sd hot cool below thermal
    have takes (cause : Nat) : s.takeOver cause = taken cause := by
      simp only [State.takeOver, taken, Bool.not_eq_true']
      rfl
    have reflexOk : (coreType c == .reflex && decide (n < 4)) = true ↔ reflex := reflexSlot_iff c n
    have small (n b : Nat) : decide (n < b) = true ↔ n < b := decide_eq_true_iff
    refine ⟨happens_of_event (execTickDelivery j) rfl rfl (small _ _) rfl,
      happens_of_event (execTickStart c n) rfl rfl reflexOk ?_,
      happens_of_event (execBudgetExpiry c n) rfl rfl reflexOk rfl,
      happens_of_event (execBudgetKill c n) rfl rfl reflexOk rfl,
      happens_of_event (execGustCodeStart c) rfl rfl (small _ _) ?_,
      happens_of_event (execGustHoldExpiry j) rfl rfl (small _ _) ?_,
      happens_of_event (execGustRelocation c) rfl rfl (small _ _) ?_,
      happens_always execHeartbeatSend rfl rfl rfl,
      happens_always execHeartbeatReceive rfl rfl rfl,
      happens_always execHeartbeatWindowExpiry rfl rfl ?_,
      happens_always execFatalErrorMessage rfl rfl (takes 2),
      happens_always execHsctlTake rfl rfl (if_congr Iff.rfl (takes 3) rfl),
      happens_of_event (execMirrorPublishReceive p) rfl rfl (small _ _) ?_,
      happens_of_event (execKeepRegionMirrorReceive m) rfl rfl (small _ _) ?_,
      happens_always (execTimeSourceCorrection ns) rfl rfl rfl,
      happens_always execSourceLockLoss rfl rfl rfl,
      happens_of_event (execStreamRecordArrival j r) rfl rfl (small _ _) rfl,
      happens_of_event (execIngestRecordCommit j) rfl rfl (small _ _) rfl,
      happens_of_event (execDecodeTick j) rfl rfl (small _ _) ?_,
      happens_of_event (execDecodeTickLate j) rfl rfl (small _ _) ?_,
      happens_of_event (execLogDwellExpiry c n) rfl rfl (slotOk_iff c n) rfl,
      happens_of_event (execMsixWindowExpiry j) rfl rfl (small _ _) ?_,
      happens_always (execThermalControlTick j n) rfl rfl (thermalTick_eq s j n)⟩
    · rcases loaded : (s.thread c n).shadow with _ | m
      · simp only [firing, loaded]
      · simp only [firing, loaded, Bool.and_eq_true]
    · rcases due : s.gustDue c with _ | p
      · rfl
      · rfl
    · by_cases ended : s.holdOver j = true
      · simp only [ended, Bool.not_true, Bool.false_eq_true, if_false, if_true, expired]
      · simp only [Bool.not_eq_true] at ended
        simp only [ended, Bool.not_false, Bool.false_eq_true, if_false, if_true]
    · rcases target : s.relocTarget c with _ | d
      · rfl
      · rfl
    · by_cases ended : s.windowOver = true
      · have open_ : ¬¬lapsed := not_not_intro ((windowOver_iff s).mp ended)
        simp only [window, if_neg open_, ended, Bool.not_true, Bool.false_eq_true, if_false, missed_toNat, Bool.and_eq_true,
          Bool.not_eq_true']
        rfl
      · have shut : ¬lapsed := mt (windowOver_iff s).mpr ended
        simp only [Bool.not_eq_true] at ended
        simp only [window, if_pos shut, ended, Bool.not_false, if_true]
    · simp only [Bool.not_eq_true']
      rfl
    · by_cases spare : h.role = 2
      · simp only [if_pos spare, if_neg (not_not_intro (show s.spare.role = 2 from spare))]
        rfl
      · simp only [if_neg spare, if_pos (show s.spare.role ≠ 2 from spare)]
    · rcases due : s.decodeDue j with _ | _
      · simp only [Bool.not_false, if_true]
      · by_cases held : covered
        · have reached : decide ((s.streamAt j).tickTime ((s.streamAt j).tick + (s.streamAt j).skipped s.clock.now) ≤
              ((s.streamAt j).cover : Int)) = true := decide_eq_true held
          simp only [Bool.not_true, reduceCtorEq, if_false, if_pos held, reached, if_true, after, tick, skip, k]
        · have short : decide ((s.streamAt j).tickTime ((s.streamAt j).tick + (s.streamAt j).skipped s.clock.now) ≤
              ((s.streamAt j).cover : Int)) = false := decide_eq_false held
          simp only [Bool.not_true, reduceCtorEq, if_false, if_neg held, short, after, tick, skip, k]
    · rcases due : s.lateDue j with _ | n
      · rfl
      · rfl
    · rcases due : s.msixDue j with _ | _
      · rfl
      · rfl
  · intro s c j q t f rest due k mac freed late gone
    have dropped (i : Nat) (x : TileCtx) : ({ x with timers := x.timers.eraseIdx i } : TileCtx) = freed i x :=
      congrArg (fun l => { x with timers := l }) (List.eraseIdx_eq_take_drop_succ x.timers i)
    refine ⟨fun ok at_ now own => ?_, fun ok at_ now gust => ?_, fun ok at_ early => ?_, fun ok none_ => ?_, fun away => ?_,
      fun ok first leaves => ?_, fun ok stays => ?_, fun away => ?_⟩
    · refine (happens_at_core (execTuntilTimerExpiry c j) rfl rfl ?_).1 ok
      simp only [show (s.core c).timerLine[j]? = some t from at_, if_neg (Nat.not_lt.mpr now), if_pos own, dropped]
    · refine (happens_at_core (execTuntilTimerExpiry c j) rfl rfl ?_).1 ok
      simp only [show (s.core c).timerLine[j]? = some t from at_, if_neg (Nat.not_lt.mpr now), if_neg (Nat.not_lt.mpr gust),
        dropped]
    · refine (happens_at_core (execTuntilTimerExpiry c j) rfl rfl ?_).1 ok
      simp only [show (s.core c).timerLine[j]? = some t from at_, if_pos early]
    · refine (happens_at_core (execTuntilTimerExpiry c j) rfl rfl ?_).1 ok
      simp only [show (s.core c).timerLine[j]? = none from none_]
    · exact (happens_at_core (execTuntilTimerExpiry c j) rfl rfl rfl).2 (Nat.not_lt.mpr away)
    · refine (happens_of_event (execEgressLaunch q) rfl rfl decide_eq_true_iff ?_).1 ok
      simp only [show (s.egressAt q).frames = f :: rest from first, leaves, Bool.not_true, Bool.false_eq_true, if_false]
      rfl
    · refine (happens_of_event (execEgressLaunch q) rfl rfl decide_eq_true_iff ?_).1 ok
      rcases frames : (s.egressAt q).frames with _ | ⟨f', rest'⟩
      · simp only [frames]
      · rcases stays with shut | empty
        · simp only [frames, shut, Bool.not_false, if_true]
        · exact absurd (empty.symm.trans frames) (List.cons_ne_nil _ _).symm
    · exact (happens_of_event (execEgressLaunch q) rfl rfl decide_eq_true_iff rfl).2 (Nat.not_lt.mpr away)

end
section
/-! PROOFS. Services, doorbells, partitions and errors of storage (O46). -/

namespace Sys2Proof.Machine

theorem frontEndSlot_iff (c n : Nat) :
    (isCore c && coreType c == .frontEnd && decide (n < 4)) = true ↔ 352 ≤ c ∧ c < 360 ∧ n < 4 := by
  have frontEnd : coreType c = .frontEnd ↔ 352 ≤ c := by
    unfold coreType
    split
    · simp; omega
    · split
      · simp; omega
      · split
        · simp; omega
        · simp; omega
  simp only [isCore, frontEnd, Bool.and_eq_true, beq_iff_eq, decide_eq_true_eq]
  tauto

theorem reqFree_false_iff (r : ServiceReq) : reqFree r = false ↔ r.supervisor = false ∧ r.driver = false := by
  rw [reqFree, Bool.or_eq_false_iff]

/-- A request that its sender may not make is refused, and any other of its number is served. -/
theorem serviceEvent_eq (num : Nat) (r : ServiceReq) (sup : Bool) (body : State → State) (s : State) :
    serviceEvent num r sup body s =
      if r.number ≠ num then s
      else
        match s.takeService r with
        | none => s
        | some t => if sup = true ∧ r.supervisor = false ∧ r.driver = false then t.refuse r 2 else body t := by
  simp only [serviceEvent, Bool.and_eq_true, Bool.not_eq_true', reqFree_false_iff] <;> rfl

theorem knownService_iff (n : Nat) :
    knownService n = true ↔ n ∈ [0x20, 0x30, 0x31, 0x32] ++ [0x02, 0x10, 0x33, 0x34] := by
  simp only [knownService, List.contains_eq_mem, decide_eq_true_eq, List.mem_append, List.mem_cons, List.not_mem_nil, or_false]
  tauto

theorem supService_iff (n : Nat) : supService n = true ↔ n ∈ [0x02, 0x10, 0x33, 0x34] := by
  rw [supService, List.contains_eq_mem, decide_eq_true_iff]

theorem known_of_sup {n : Nat} (h : supService n = true) : knownService n = true := by
  rw [knownService_iff, List.mem_append]
  exact Or.inr ((supService_iff n).mp h)

/-- A completed HALT leaves its partition halted, another command the state it leads to (R305). -/
theorem partDone_eq (s : State) (n : Nat) :
    let p := s.partAt n
    let u := s.modPart n fun q => { q with st := if p.st = .halting then .halted else p.next.getD p.st, next := none }
    s.partDone n = if p.cen = true then u.addFrontEnd p.ctile.toNat p.ccnt.toNat else u := by
  intro p u
  cases st : (s.partAt n).st
  all_goals simp only [State.partDone, u, p, st, reduceCtorEq, if_true, if_false]

end Sys2Proof.Machine

open Sys2Proof Sys2Proof.Machine

/-- Settles O46: each event's cases are those of its meaning. -/
theorem serviceAndPartitionEvents : Obligations.ServiceAndPartitionEvents := by
  unfold Obligations.ServiceAndPartitionEvents
  intro s c n j r o v w u served sup known barred posted rolled part cores busy halted saved loaded restored resumed refused ended
    eq unit counted noted corrected qu seq idx widx rung rings storage recorded
  have small (n b : Nat) : decide (n < b) = true ↔ n < b := decide_eq_true_iff
  have serves (num : Nat) (sup : Bool) (body : State → State) : serviceEvent num r sup body s = served num sup body :=
    serviceEvent_eq num r sup body s
  have isKnown : knownService r.number = true ↔ r.number ∈ known := knownService_iff r.number
  have isSup : supService r.number = true ↔ r.number ∈ sup := supService_iff r.number
  have isBarred : (supService r.number && !reqFree r) = true ↔ barred := by
    simp only [Bool.and_eq_true, Bool.not_eq_true', isSup, reqFree_false_iff, barred]
  refine ⟨happens_always (execServiceInstallContext r) rfl rfl (serves _ _ _),
    happens_always (execServiceShootdown r) rfl rfl (serves _ _ _),
    happens_always (execServiceStepScheduler r) rfl rfl (serves _ _ _),
    happens_always (execServiceCreateQueue r) rfl rfl (serves _ _ _),
    happens_always (execServiceDestroyQueue r) rfl rfl (serves _ _ _),
    happens_at_core (execServiceLoadCodeObject r o) rfl rfl (if_congr Iff.rfl rfl (serves _ _ _)),
    happens_always (execServiceMigratePage r) rfl rfl (serves _ _ _),
    happens_always (execServiceSetFrameOwner r) rfl rfl (serves _ _ _),
    fun isOne free => ?_, fun t taken unknown => ?_, fun t taken bar => ?_,
    happens_always execStepBoundary rfl rfl rfl, fun dst m there dest => ?_, fun none_ => ?_,
    happens_of_event (execQueuePacketStart c n) rfl rfl (frontEndSlot_iff c n) rfl,
    happens_of_event (execDoorbellWrite j w) rfl rfl (small _ _) rfl,
    happens_always execReconcilePass rfl rfl rfl,
    happens_always execShootdownComplete rfl rfl ?_,
    happens_of_event (execQueueDestroyComplete j) rfl rfl (small _ _) ?_,
    happens_of_event (execPartitionEntryWrite j v) rfl rfl (small _ _) rfl,
    happens_of_event (execPartitionHalt j) rfl rfl (small _ _) rfl,
    happens_of_event (execPartitionSave j) rfl rfl (small _ _) rfl,
    happens_of_event (execPartitionRestore j) rfl rfl (small _ _) rfl,
    happens_of_event (execPartitionResume j) rfl rfl (small _ _) rfl,
    happens_of_event (execPartitionSpill j) rfl rfl (small _ _) rfl,
    happens_of_event (execPartitionFill j) rfl rfl (small _ _) ?_,
    happens_of_event (execPartitionCommandComplete j) rfl rfl (small _ _) (if_congr Iff.rfl ?_ rfl),
    happens_of_event (execCorrectableError u j) rfl rfl Iff.rfl rfl,
    happens_of_event (execFatalError u j) rfl rfl Iff.rfl rfl,
    happens_of_event (execUncorrectableError u j) rfl rfl Iff.rfl ?_⟩
  · refine (happens_always (execServiceUnknown r) rfl rfl ?_).1 trivial
    refine if_pos ?_
    rw [Bool.and_eq_true, Bool.not_eq_true', Bool.eq_false_iff]
    exact ⟨isKnown.mpr isOne, mt isBarred.mp free⟩
  · refine (happens_always (execServiceUnknown r) rfl rfl ?_).1 trivial
    have strange : knownService r.number = false := Bool.eq_false_iff.mpr (mt isKnown.mp unknown)
    simp only [strange, Bool.false_and, Bool.false_eq_true, if_false, taken]
  · refine (happens_always (execServiceUnknown r) rfl rfl ?_).1 trivial
    have one : knownService r.number = true := known_of_sup (isSup.mpr bar.1)
    simp only [isBarred.mpr bar, one, Bool.not_true, Bool.and_false, Bool.false_eq_true, if_false, if_true, taken]
  · refine (happens_always (execSamplingQueuePost j) rfl rfl ?_).1 trivial
    subst dest
    rcases late : s.overtakes j (queueDest, m) with _ | _
    · simp only [there, late, ne_eq, not_true_eq_false, decide_false, Bool.false_or, Bool.false_eq_true, if_false,
        posted, List.eraseIdx_eq_take_drop_succ]
    · simp only [there, late, Bool.or_true, if_true]
  · refine (happens_always (execSamplingQueuePost j) rfl rfl ?_).1 trivial
    simp only [none_]
  · rcases waiting : s.shootdowns with _ | ⟨d, rest⟩
    · rfl
    · rfl
  · rcases due : s.destroyDue j with _ | _
    · rfl
    · rfl
  · simp only [State.partCmd, Bool.not_eq_true']
    rfl
  · exact partDone_eq s j
  · rcases place : errLoc u j with _ | loc
    · simp only [recorded, storage, place]
    · simp only [recorded, storage, place]

end
section
/-! PROOFS. Writes of device registers, debug commands, start-up and attestation (O47). -/

namespace Sys2Proof.Machine

/-! Bits of a number that is written to a register. -/

theorem bit_toNat {n : Nat} (v : BitVec n) (i : Nat) : bit v.toNat i = v.getLsbD i := by
  rw [bit_eq_testBit, BitVec.testBit_toNat]

theorem bits_zero (v n : Nat) : bits v 0 n = v % 2 ^ n := by
  rw [bits, pow_zero, Nat.div_one]

/-- A field that a mask covers reads as before under the mask. -/
theorem bits_masked {v mask lo n : Nat} (covered : bits mask lo n = 2 ^ n - 1) : bits (masked v mask) lo n = bits v lo n := by
  show (v &&& mask) / 2 ^ lo % 2 ^ n = v / 2 ^ lo % 2 ^ n
  rw [Nat.and_div_two_pow, Nat.and_mod_two_pow, show mask / 2 ^ lo % 2 ^ n = 2 ^ n - 1 from covered,
    Nat.and_two_pow_sub_one_eq_mod, Nat.mod_mod]

theorem bit_masked {v mask i : Nat} (covered : bits mask i 1 = 1) : bit (masked v mask) i = bit v i := by
  rw [bit, bit, bits_masked covered]

/-- A bit that a mask leaves out reads zero under the mask. -/
theorem bit_masked_out {v mask i : Nat} (out : bit mask i = false) : bit (masked v mask) i = false := by
  rw [bit_eq_testBit] at out ⊢
  exact (Nat.testBit_and v mask i).trans (by rw [out, Bool.and_false])

theorem bit_lor (v w i : Nat) : bit (Nat.lor v w) i = (bit v i || bit w i) := by
  simp only [bit_eq_testBit]
  exact Nat.testBit_or v w i

/-! Debug commands. -/

/-- A slot that is idle when HALTREQ is set stops (R321). -/
def State.haltSlot (s : State) (c n : Nat) : State :=
  if (s.thread c n).run = .idle then
    (s.modThread c n (·.stop s.clock.now)).modCore c fun k => { k with dbg := { k.dbg with reason := 1 } }
  else s

theorem haltIdle_eq (s : State) (c : Nat) : s.haltIdle c = (List.range 4).foldl (fun s n => s.haltSlot c n) s := rfl

theorem thread_modCore_of_cx (s : State) (c m n : Nat) {f : Core → Core} (kept : (f (s.core c)).cx = (s.core c).cx) :
    (s.modCore c f).thread m n = s.thread m n := by
  unfold State.thread
  rw [core_modCore]
  split
  · next same => rw [same, Core.thread, kept, Core.thread]
  · rfl

theorem haltSlot_run (s : State) (c m n : Nat) :
    ((s.haltSlot c m).thread c n).run = if n = m ∧ (s.thread c n).run = .idle then .stopped else (s.thread c n).run := by
  unfold State.haltSlot
  by_cases idle : (s.thread c m).run = .idle
  · rw [if_pos idle, thread_modCore_of_cx _ _ _ _ (by rfl), thread_modThread]
    by_cases same : n = m
    · subst same
      rw [if_pos ⟨rfl, rfl⟩, if_pos ⟨rfl, idle⟩]
      rfl
    · rw [if_neg (mt And.right same), if_neg (mt And.left same)]
  · rw [if_neg idle, if_neg]
    rintro ⟨same, idle'⟩
    exact idle (same ▸ idle')

theorem haltSlots_stopped {c n : Nat} (l : List Nat) {s : State} (h : (s.thread c n).run = .stopped) :
    ((l.foldl (fun s m => s.haltSlot c m) s).thread c n).run = .stopped := by
  induction l generalizing s with
  | nil => exact h
  | cons m l ih =>
    refine ih ?_
    rw [haltSlot_run, h, if_neg (by rintro ⟨-, idle⟩; cases idle)]

theorem haltSlots_idle {c n : Nat} (l : List Nat) {s : State} (h : (s.thread c n).run = .idle) (mem : n ∈ l) :
    ((l.foldl (fun s m => s.haltSlot c m) s).thread c n).run = .stopped := by
  induction l generalizing s with
  | nil => cases mem
  | cons m l ih =>
    by_cases same : n = m
    · refine haltSlots_stopped l ?_
      rw [haltSlot_run, if_pos ⟨same, h⟩]
    · refine ih ?_ (List.mem_of_ne_of_mem same mem)
      rw [haltSlot_run, if_neg (mt And.left same), h]

/-- The value that a debug command writes: `dbgctl` as it stands, with one bit more. -/
def State.dbgWord (s : State) (c i : Nat) : Nat :=
  Nat.lor (masked (s.core c).dbgctl (fieldMask 31 1 + fieldMask 25 4 + fieldMask 20 2)) (2 ^ i)

theorem dbgWord_set (s : State) (c i : Nat) : bit (s.dbgWord c i) i = true := by
  rw [State.dbgWord, bit_lor, bit_eq_testBit (2 ^ i), Nat.testBit_two_pow_self, Bool.or_true]

theorem dbgWord_command {s : State} {c i j : Nat} (command : j = 24 ∨ j = 29 ∨ j = 30) (other : i ≠ j) :
    bit (s.dbgWord c i) j = false := by
  have out : bit (fieldMask 31 1 + fieldMask 25 4 + fieldMask 20 2) j = false := by
    rcases command with rfl | rfl | rfl
    all_goals decide
  rw [State.dbgWord, bit_lor, bit_masked_out out, bit_eq_testBit, Nat.testBit_two_pow_of_ne other, Bool.or_false]

/-- The core is asked to halt: its idle slots stop, unless Gust holds the core (R321). -/
theorem dbgHalt_stops {s : State} {c n : Nat} (alone : (s.core c).gust = none) (slot : n < 4)
    (idle : (s.thread c n).run = .idle) : ((s.dbgCommand c 31).thread c n).run = .stopped := by
  show ((s.writeDbgctl c (s.dbgWord c 31)).thread c n).run = .stopped
  unfold State.writeDbgctl
  dsimp only
  rw [dbgWord_command (j := 24) (by decide) (by decide), dbgWord_command (j := 29) (by decide) (by decide),
    dbgWord_command (j := 30) (by decide) (by decide), dbgWord_set, core_modCore, if_pos rfl]
  simp only [alone, Option.isNone_none, Bool.and_self, if_true, Bool.false_eq_true, if_false]
  rw [haltIdle_eq]
  refine haltSlots_idle _ ?_ (List.mem_range.mpr slot)
  rw [thread_modCore_of_cx _ _ _ _ (by rfl)]
  exact idle

/-- The command to reload the break bits marks the reload (R325). -/
theorem dbgBksync_busy (s : State) (c : Nat) : ((s.dbgCommand c 24).core c).dbg.bkbusy = true := by
  show ((s.writeDbgctl c (s.dbgWord c 24)).core c).dbg.bkbusy = true
  unfold State.writeDbgctl
  dsimp only
  rw [dbgWord_set, if_pos rfl, State.bksync, core_modCore, if_pos rfl]

/-! Start-up. -/

theorem inRun_iff (off len n : Nat) : inRun off len n = true ↔ off + len ≤ n := decide_eq_true_iff

/-- The checks of a copied image, in the order of R337's list. -/
theorem bootCheck_eq (u : State) (i : BootImage) :
    let part (off len : Nat) : List Byte := u.read (sramLoc 352 off) len
    let inside (off len n : Nat) : Prop := off + len ≤ n
    let held (off len : Nat) : List Byte := ((part i.manifest i.manifestLen).drop off).take len
    u.bootCheck i =
      if ¬inside i.key i.keyLen i.len ∨ sha256 (part i.key i.keyLen) ≠ Config.vendorKeyHash then 2
      else if ¬inside i.manifest i.manifestLen i.len ∨ ¬inside i.signature 7856 i.len ∨
        Config.slhVerify (part i.key i.keyLen) (part i.manifest i.manifestLen) (part i.signature 7856) = false then 3
      else if ∃ p ∈ i.parts, ¬inside p.off p.len i.len ∨ ¬inside p.hash 32 i.manifestLen ∨
        sha256 (part p.off p.len) ≠ held p.hash 32 then 4
      else if ¬inside i.version 4 i.manifestLen ∨ leNat (held i.version 4) < Config.rollbackCounter.toNat then 5
      else 0 := by
  simp only [State.bootCheck, Bool.or_eq_true, Bool.not_eq_true', ← Bool.not_eq_true, inRun_iff, bne_iff_ne, List.any_eq_true,
    decide_eq_true_eq, or_assoc]

end Sys2Proof.Machine

open Sys2Proof Sys2Proof.Machine

/-- Settles O47: each event's cases are those of its meaning. -/
theorem registerAndBootEvents : Obligations.RegisterAndBootEvents := by
  unfold Obligations.RegisterAndBootEvents
  intro s c n j v32 v64 v128 v256 v512 v2048 i core b q ck thresh env src size moved placed fits enabled cleared squall shed
    outside part manifest key inside held failed fault verified verify bs fresh tick tv period run ticked tickWritten on mbNew
    mbWritten prof count profNew profWritten str sv strNew strTicked strBad strWritten oldTmpl tmpl tmplWritten oldRow row
    rowWritten report
  have small (n b : Nat) : decide (n < b) = true ↔ n < b := decide_eq_true_iff
  refine ⟨happens_always (execErrqWrite v256) rfl rfl ?_,
    happens_at_core (execDbgHaltreq c) rfl rfl rfl,
    happens_at_core (execDbgResume c) rfl rfl rfl,
    happens_at_core (execDbgStep c) rfl rfl rfl,
    happens_at_core (execDbgBksync c) rfl rfl rfl,
    fun _ => dbgHalt_stops, fun _ => dbgBksync_busy s c,
    happens_at_core (execBksyncComplete c) rfl rfl ?_,
    happens_at_core (execDbgdatAccess c (some v64)) rfl rfl rfl,
    happens_at_core (execDbgdatAccess c none) rfl rfl rfl,
    happens_at_core (execLogctlWrite c v64) rfl rfl rfl,
    happens_at_core (execPmselWrite c v64) rfl rfl rfl,
    happens_of_event (execTickEntryWrite j v256) rfl rfl (small _ _) ?_,
    happens_of_event (execMailboxSlotWrite j v128) rfl rfl (small _ _) ?_,
    happens_always (execGustPoolWrite v256) rfl rfl ?_,
    happens_of_event (execGustProfileWrite j v128) rfl rfl (small _ _) ?_,
    happens_always (execTmctlWrite v32) rfl rfl ?_,
    happens_of_event (execTimedStreamWrite j v512) rfl rfl (small _ _) ?_,
    happens_of_event (execTreeTemplateWrite j v2048) rfl rfl (small _ _) ?_,
    happens_of_event (execEventTableRowWrite j n v128) rfl rfl (both_decided _ _) ?_,
    happens_always (execSqcfgWrite v32) rfl rfl ?_,
    happens_always (execShedctlWrite v32) rfl rfl ?_,
    happens_always (execFeataccWrite v256) rfl rfl ?_,
    happens_always execPerstRelease rfl rfl rfl,
    happens_always execPerstAssert rfl rfl rfl,
    happens_always execBootGo rfl rfl rfl,
    fun idle => ?_, fun waits lost => ?_, fun u waits copied => ?_,
    happens_always execAttestRequest rfl rfl ?_,
    happens_always execAttestComplete rfl rfl ?_,
    happens_of_event (execRegisterWrite c n j) rfl rfl decide_eq_true_iff ?_⟩
  · have placing : (if q.en = true then moved
        else { moved with base := BitVec.ofNat 64 (bits v256.toNat 192 64), host := bit v256.toNat 62,
                          log2n := if 6 ≤ size ∧ size ≤ 16 then BitVec.ofNat 5 size else q.log2n }) = placed := by
      simp only [placed, bit_toNat]
    have keeps : placed.en = q.en := by
      rcases on : q.en with _ | _
      · simp only [placed, on, Bool.false_eq_true, if_false, moved]
      · simp only [placed, on, if_true, moved]
    have enables : (bit v256.toNat 63 && (placed.en || (decide (6 ≤ placed.log2n.toNat) && decide (placed.log2n.toNat ≤ 16) &&
        placed.base.toNat % (64 * 2 ^ placed.log2n.toNat) == 0 && (placed.host || isBacked placed.base.toNat)))) =
        decide enabled := by
      rw [Bool.eq_iff_iff, keeps]
      simp only [bit_toNat, Bool.and_eq_true, Bool.or_eq_true, decide_eq_true_eq, beq_iff_eq, enabled, fits, and_assoc]
    show s.writeErrq v256.toNat = _
    rw [← enables, ← placing]
    rfl
  · rcases busy : (s.core c).dbg.bkbusy with _ | _
    · simp only [State.bksyncDone, busy, Bool.not_false, if_true]
    · simp only [State.bksyncDone, busy, Bool.not_true, Bool.false_eq_true, Bool.true_eq_false, if_false]
      rfl
  · show s.writeTick j v256.toNat = _
    have starts : bit v256.toNat 0 = v256.getLsbD 0 := bit_toNat v256 0
    by_cases on' : run
    · simp only [State.writeTick, starts, show v256.getLsbD 0 = true from on', tickWritten, on', true_and, ticked,
        bit_toNat]
      rfl
    · simp only [State.writeTick, starts, show v256.getLsbD 0 = false from Bool.eq_false_iff.mpr on', tickWritten, if_neg on',
        on', false_and, ticked, Bool.false_eq_true, if_false]
      rfl
  · have valid : bit (masked v128.toNat (fieldMask 111 17 + fieldMask 71 25 + fieldMask 0 25)) 127 = v128.getLsbD 127 :=
      (bit_masked (by decide)).trans (bit_toNat v128 127)
    show s.writeMbSlot j v128.toNat = _
    rcases set : v128.getLsbD 127 with _ | _
    · simp only [State.writeMbSlot, valid, set, mbWritten, on, Bool.false_eq_true, not_false_eq_true, if_false, if_true]
      rfl
    · simp only [State.writeMbSlot, valid, set, mbWritten, on, not_true_eq_false, if_false, if_true, Bool.or_eq_true,
        beq_iff_eq, decide_eq_true_eq, or_assoc]
      rfl
  · show s.writeGustPool v256.toNat = _
    simp only [State.writeGustPool, BitVec.ofNat_toNat, BitVec.setWidth_eq, Bool.or_eq_true, List.any_eq_true,
      decide_eq_true_eq]
  · have valid : bit (masked v128.toNat (fieldMask 119 9 + fieldMask 64 51 + fieldMask 0 18)) 127 = v128.getLsbD 127 :=
      (bit_masked (by decide)).trans (bit_toNat v128 127)
    have counts : bits (masked v128.toNat (fieldMask 119 9 + fieldMask 64 51 + fieldMask 0 18)) 119 7 = count :=
      bits_masked (by decide)
    show s.writeProfile j v128.toNat = _
    rcases set : v128.getLsbD 127 with _ | _
    · simp only [State.writeProfile, valid, set, counts, profWritten, on, Bool.false_eq_true, not_false_eq_true, if_false,
        if_true, Bool.and_false, Bool.or_false, and_false, or_false]
      rfl
    · simp only [State.writeProfile, valid, set, counts, profWritten, on, not_true_eq_false, if_false, if_true, Bool.and_true,
        and_true, Bool.or_eq_true]
      rfl
  · show s.writeTmctl v32.toNat = _
    simp only [State.writeTmctl, bits_zero, bit_toNat]
    rfl
  · show s.writeStream j v512.toNat = _
    simp only [State.writeStream, bit_toNat, strWritten, strBad, Bool.not_eq_true', str, strNew, strTicked, sv]
  · show s.writeTemplate j v2048.toNat = _
    simp only [State.writeTemplate, tmplWritten, Bool.not_eq_true', tmpl, oldTmpl]
  · show s.writeRow j n v128.toNat = _
    rcases feature : s.feature 6 with _ | _
    · simp only [State.writeRow, rowWritten, feature, Bool.not_false, if_true]
    · rcases valid : bit row 127 with _ | _
      · simp only [State.writeRow, rowWritten, feature, valid, show bit (masked v128.toNat (fieldMask 127 1 + fieldMask 121 5 +
          fieldMask 88 24 + fieldMask 48 32 + fieldMask 0 17)) 127 = false from valid, Bool.not_true, Bool.false_eq_true,
          Bool.true_eq_false, if_false, if_true]
        rfl
      · simp only [State.writeRow, rowWritten, feature, valid, show bit (masked v128.toNat (fieldMask 127 1 + fieldMask 121 5 +
          fieldMask 88 24 + fieldMask 48 32 + fieldMask 0 17)) 127 = true from valid, Bool.not_true, Bool.false_eq_true,
          Bool.true_eq_false, if_false, if_true, Bool.or_eq_true, Bool.not_eq_true']
        rfl
  · show s.writeSqcfg v32.toNat = _
    simp only [State.writeSqcfg, bits_zero, bit_toNat, squall, thresh]
  · have limit : BitVec.ofNat 8 (bits v32.toNat 16 8) = v32.extractLsb' 16 8 := by
      apply BitVec.eq_of_toNat_eq
      simp only [BitVec.toNat_ofNat, BitVec.extractLsb'_toNat, Nat.shiftRight_eq_div_pow, bits, Nat.mod_mod]
    show s.writeShedctl v32.toNat = _
    rw [State.writeShedctl, limit]
    rfl
  · have accepted : BitVec.ofNat 256 (Nat.lor (Nat.land v256.toNat featcap) 1) = (v256 &&& 0x3FF) ||| 1 := by
      apply BitVec.eq_of_toNat_eq
      rw [BitVec.toNat_or, BitVec.toNat_and, BitVec.toNat_ofNat]
      refine Nat.mod_eq_of_lt (Nat.or_lt_two_pow (Nat.and_lt_two_pow _ ?_) ?_)
      all_goals decide
    show s.writeFeatacc v256.toNat = _
    rw [State.writeFeatacc, accepted]
  · refine (happens_always (execBootVerifyComplete i) rfl rfl ?_).1 trivial
    exact if_pos idle
  · refine (happens_always (execBootVerifyComplete i) rfl rfl ?_).1 trivial
    simp only [show s.boot.stage = 2 from waits, lost, ne_eq, not_true_eq_false, if_false]
    rfl
  · refine (happens_always (execBootVerifyComplete i) rfl rfl ?_).1 trivial
    have checks : u.bootCheck i = fault u := bootCheck_eq u i
    simp only [show s.boot.stage = 2 from waits, copied, checks, ne_eq, not_true_eq_false, if_false]
    rfl
  · show s.attestRequest = _
    simp only [State.attestRequest, Bool.or_eq_true, bne_iff_ne]
    rfl
  · rcases busy : b.busy with _ | _
    · simp only [show s.boot.busy = false from busy, Bool.not_false, if_true]
    · simp only [show s.boot.busy = true from busy, Bool.not_true, Bool.false_eq_true, Bool.true_eq_false, if_false]
      rfl
  · refine if_congr Iff.rfl rfl ?_
    rcases place : barPlace c with ⟨sp, o⟩ | ⟨m, o⟩ | _
    · simp only [State.barWrite, place, leBytes_length, List.isEmpty_iff]
      rfl
    · simp only [State.barWrite, place]
      rfl
    · simp only [State.barWrite, place]

end
section
/-! PROOFS. What an instruction that stores nothing leaves unchanged (O57), with the layer that all frames go through. -/

namespace Sys2Proof.Machine

/-! Operations that change no register. -/

/-- Every register but pc of every thread stays, and so do the turn and the debug stops that wait. -/
structure KeepsRegs (s u : State) : Prop where
  cur : u.cur = s.cur
  slot : u.slot = s.slot
  regs : ∀ c n, RegsKept (s.thread c n) (u.thread c n)
  stop : ∀ c n, (u.thread c n).stopWhy = (s.thread c n).stopWhy

theorem KeepsRegs.refl (s : State) : KeepsRegs s s := ⟨rfl, rfl, fun _ _ => .refl _, fun _ _ => rfl⟩

theorem KeepsRegs.trans {s u v : State} (h : KeepsRegs s u) (g : KeepsRegs u v) : KeepsRegs s v :=
  ⟨g.cur.trans h.cur, g.slot.trans h.slot, fun c n => (h.regs c n).trans (g.regs c n),
    fun c n => (g.stop c n).trans (h.stop c n)⟩

theorem KeepsRegs.of_threads {s u : State} (cur : u.cur = s.cur) (slot : u.slot = s.slot)
    (threads : ∀ c n, u.thread c n = s.thread c n) : KeepsRegs s u :=
  ⟨cur, slot, fun c n => .of_eq (threads c n), fun c n => congrArg Thread.stopWhy (threads c n)⟩

theorem keepsRegs_setThread (s : State) (c n : Nat) {h : Thread} (regs : RegsKept (s.thread c n) h)
    (stop : h.stopWhy = (s.thread c n).stopWhy) : KeepsRegs s (s.setThread c n h) := by
  refine ⟨rfl, rfl, fun d m => ?_, fun d m => ?_⟩
  · rw [thread_setThread]
    split
    · next own => obtain ⟨rfl, rfl⟩ := own; exact regs
    · exact .refl _
  · rw [thread_setThread]
    split
    · next own => obtain ⟨rfl, rfl⟩ := own; exact stop
    · rfl

theorem keepsRegs_modCore (s : State) (c : Nat) {f : Core → Core} (kept : (f (s.core c)).cx = (s.core c).cx) :
    KeepsRegs s (s.modCore c f) := .of_threads rfl rfl (fun m n => thread_modCore_of_cx s c m n kept)

theorem KeepsRegs.thread_turn {s u : State} (h : KeepsRegs s u) : u.th = u.thread s.cur s.slot := by
  rw [State.th, h.cur, h.slot]

theorem KeepsRegs.th {s u : State} (h : KeepsRegs s u) : RegsKept s.th u.th := h.thread_turn ▸ h.regs s.cur s.slot

theorem KeepsRegs.stopWhy {s u : State} (h : KeepsRegs s u) : u.th.stopWhy = s.th.stopWhy :=
  h.thread_turn ▸ h.stop s.cur s.slot

theorem KeepsRegs.others {s u : State} (h : KeepsRegs s u) : OthersKept s u := fun c n _ => h.regs c n

theorem OthersKept.trans {s u v : State} (h : OthersKept s u) (cur : u.cur = s.cur) (slot : u.slot = s.slot)
    (g : OthersKept u v) : OthersKept s v := fun c n other =>
  (h c n other).trans (g c n (by rwa [cur, slot]))

theorem keepsRegs_countRead (s : State) (path : Nat) : KeepsRegs s (s.countRead path) := by
  rcases countRead_cases s path with h | h
  · rw [h]
    exact .refl s
  · rw [h]
    exact keepsRegs_setThread s _ _ (.refl _) rfl

theorem countRead_storageKept (s : State) (path : Nat) : StorageKept s (s.countRead path) := by
  rcases countRead_cases s path with h | h
  · rw [h]
    exact ⟨rfl, rfl, rfl⟩
  · rw [h]
    exact ⟨rfl, rfl, rfl⟩

theorem keepsRegs_touchTlb (s : State) (c : Nat) (asid : BitVec 16) (path va : Nat) (kind : AccessKind) :
    KeepsRegs s (s.touchTlb c asid path va kind) := by
  obtain ⟨k, h⟩ := touchTlb_eq s c asid path va kind
  refine .of_threads ?_ ?_ (touchTlb_thread s c asid path va kind)
  · rw [h]
  · rw [h]

theorem touchTlb_storageKept (s : State) (c : Nat) (asid : BitVec 16) (path va : Nat) (kind : AccessKind) :
    StorageKept s (s.touchTlb c asid path va kind) := by
  obtain ⟨k, h⟩ := touchTlb_eq s c asid path va kind
  rw [h]
  exact ⟨rfl, rfl, rfl⟩

/-! Reads. -/

/-- An operation that changes neither a register nor storage. -/
def OnlyReads (s u : State) : Prop := KeepsRegs s u ∧ StorageKept s u

theorem OnlyReads.refl (s : State) : OnlyReads s s := ⟨.refl s, rfl, rfl, rfl⟩

theorem OnlyReads.trans {s u v : State} (h : OnlyReads s u) (g : OnlyReads u v) : OnlyReads s v :=
  ⟨h.1.trans g.1, h.2.trans g.2⟩

theorem onlyReads_countRead (s : State) (path : Nat) : OnlyReads s (s.countRead path) :=
  ⟨keepsRegs_countRead s path, countRead_storageKept s path⟩

theorem onlyReads_touchTlb (s : State) (c : Nat) (asid : BitVec 16) (path va : Nat) (kind : AccessKind) :
    OnlyReads s (s.touchTlb c asid path va kind) :=
  ⟨keepsRegs_touchTlb s c asid path va kind, touchTlb_storageKept s c asid path va kind⟩

theorem onlyReads_noteSeen (s : State) (i : Issuer) (locs : List Nat) : OnlyReads s (s.noteSeen i locs) :=
  ⟨keepsRegs_setThread s _ _ (.refl _) rfl, rfl, rfl, rfl⟩

theorem onlyReads_touchDbgdat (s : State) (c : Nat) : OnlyReads s (s.touchDbgdat c) := by
  unfold State.touchDbgdat
  split
  · exact ⟨keepsRegs_modCore s c rfl, rfl, rfl, rfl⟩
  · exact .refl s

theorem onlyReads_foldl {α : Type} {f : State → α → State} (each : ∀ s a, OnlyReads s (f s a)) (l : List α) (s : State) :
    OnlyReads s (l.foldl f s) := by
  induction l generalizing s with
  | nil => exact .refl s
  | cons a l ih => exact (each s a).trans (ih (f s a))

theorem onlyReads_regTouch (s : State) (sp : RegSpace) (offs : List Nat) : OnlyReads s (s.regTouch sp offs) := by
  refine onlyReads_foldl (fun s e => ?_) _ s
  split
  · exact onlyReads_touchDbgdat s _
  · exact .refl s

section
variable {s u : State} {i : Issuer} {a : Dword} {p : Place} {offs : List Nat} {l : List Byte}

theorem readAt_onlyReads {loc : Nat} (h : s.readAt a loc offs = .bytes l u) : OnlyReads s u := by
  unfold State.readAt at h
  split at h
  · cases h
  · cases h
    exact .refl _

theorem readView_onlyReads {c off : Nat} {v : View} (h : s.readView c v off offs = .bytes l u) : OnlyReads s u := by
  unfold State.readView at h
  split at h
  · cases h
  · cases h
    exact .refl _

/-- A read of a register changes at most an error flag of a debug block, and a read of storage nothing. -/
theorem readPlace_onlyReads (h : s.readPlace i a p offs = .bytes l u) : OnlyReads s u := by
  cases p with
  | mem loc =>
    simp only [State.readPlace] at h
    split at h
    · cases h
    · exact readAt_onlyReads h
  | virt path va =>
    simp only [State.readPlace] at h
    split at h
    · cases h
    · next loc _ =>
      have touched := onlyReads_touchTlb s i.core i.asid path va .load
      split at h
      · split at h
        · cases h
        · exact touched.trans (readAt_onlyReads h)
      · split at h
        · cases h
          exact touched.trans (onlyReads_noteSeen _ _ _)
        · cases h
        · exact touched.trans (readAt_onlyReads h)
  | view v off => exact readView_onlyReads h
  | mailbox n off =>
    simp only [State.readPlace] at h
    split at h
    · exact readAt_onlyReads h
    · cases h
      exact .refl _
  | egress q off =>
    cases h
    exact .refl _
  | slice n off =>
    simp only [State.readPlace] at h
    split at h
    · cases h
    · cases h
      exact onlyReads_regTouch _ _ _
  | device off =>
    simp only [State.readPlace] at h
    split at h
    · cases h
    · cases h
      exact onlyReads_regTouch _ _ _

theorem loadReads_onlyReads {b : BitVec 4} {o : BitVec 15} {size : Nat} (h : LoadReads s b o size l u) : OnlyReads s u := by
  obtain ⟨-, _, _, -, -, -, bytes⟩ := h
  exact readPlace_onlyReads bytes
end

/-! Leaving. -/

/-- An instruction leaves `u` by retiring or by a jump, without an answer of its own. -/
def Leaves (s u t : State) : Prop := t = s.finish (.retire u) ∨ ∃ pc, t = s.finish (.jump pc u)

section
variable {s u v t : State} {f : Thread → Thread}

/-- The leaving itself changes no register but pc, and nothing of storage. -/
theorem leaves_kept (hc : u.cur = s.cur) (hn : u.slot = s.slot) (free : u.th.stopWhy = 0) (h : Leaves s u t) :
    OthersKept u t ∧ RegsKept u.th (t.thread s.cur s.slot) ∧ StorageKept u t := by
  rcases h with h | ⟨pc, h⟩
  · obtain ⟨-, kept, others, storage⟩ :=
      left_of_retired (f := fun h => h.retire (h.bank.pc + 4) false) s.th.words hc hn free (retire_regsKept _ _ _)
    exact h ▸ ⟨others, kept, storage⟩
  · obtain ⟨-, kept, others, storage⟩ :=
      left_of_retired (f := fun h => h.retire pc false) s.th.words hc hn free (retire_regsKept _ _ _)
    exact h ▸ ⟨others, kept, storage⟩

/-- An operation that changes no register, then the leaving. -/
theorem leaves_regsKept (go : s.th.stopWhy = 0) (kept : KeepsRegs s u) (h : Leaves s u t) :
    OthersKept s t ∧ RegsKept s.th (t.thread s.cur s.slot) ∧ StorageKept u t := by
  obtain ⟨others, own, storage⟩ := leaves_kept kept.cur kept.slot (kept.stopWhy.trans go) h
  exact ⟨kept.others.trans kept.cur kept.slot others, kept.th.trans own, storage⟩

/-- An operation that changes no register, then a change of the thread whose turn it is, then the leaving: of the other threads
no register changes, of this one those of the change, and of storage what the operation changes. -/
theorem leaves_frame (go : s.th.stopWhy = 0) (kept : KeepsRegs s v) (stop : (f v.th).stopWhy = v.th.stopWhy)
    (h : Leaves s (v.modTh f) t) :
    OthersKept s t ∧ RegsKept (f v.th) (t.thread s.cur s.slot) ∧ StorageKept v t := by
  have own : (v.modTh f).th = f v.th := th_modTh v f
  have free : (v.modTh f).th.stopWhy = 0 := by rw [own, stop, kept.stopWhy, go]
  obtain ⟨others, regs, storage⟩ := leaves_kept (u := v.modTh f) kept.cur kept.slot free h
  have changed : OthersKept s (v.modTh f) := kept.others.trans kept.cur kept.slot (othersKept_modTh v f)
  exact ⟨changed.trans kept.cur kept.slot others, own ▸ regs, storage⟩

end

section
variable {s t : State} {w : Nat → Prop}

/-- A change of a thread that reaches only x registers that `w` names. -/
def ChangesX (w : Nat → Prop) (h k : Thread) : Prop :=
  SideRegsKept h k ∧ (∀ r, ¬w r → k.getX r = h.getX r) ∧ k.stopWhy = h.stopWhy

theorem setX_changesX (h : Thread) {r : Nat} (v : Word) (named : w r) : ChangesX w h (h.setX r v) := by
  refine ⟨?_, fun q other => h.getX_setX_other v (fun same => other (same ▸ named)), ?_⟩
  · unfold Thread.setX
    split
    · exact SideRegsKept.refl h
    · exact ⟨fun _ => rfl, fun _ => rfl, fun _ => rfl, fun _ => rfl, rfl, rfl, rfl⟩
  · unfold Thread.setX
    split <;> rfl

theorem ChangesX.trans {h k l : Thread} (hk : ChangesX w h k) (kl : ChangesX w k l) : ChangesX w h l := by
  obtain ⟨side, same, stop⟩ := hk
  obtain ⟨side', same', stop'⟩ := kl
  exact ⟨side.trans side', fun r out => (same' r out).trans (same r out), stop'.trans stop⟩

theorem setP_changesX (h : Thread) {d : Nat} (v : Dword) (low : w (2 * d)) (high : w (2 * d + 1)) :
    ChangesX w h (h.setP d v) := (setX_changesX h _ low).trans (setX_changesX _ _ high)

/-- An instruction that reads, then writes x registers that `w` names, then leaves. -/
theorem onlyXChanged_of_leaves {v : State} {f : Thread → Thread} (go : s.th.stopWhy = 0) (reads : OnlyReads s v)
    (change : ChangesX w v.th (f v.th)) (h : Leaves s (v.modTh f) t) : OnlyXChanged w s t := by
  obtain ⟨kept, storage⟩ := reads
  obtain ⟨side, same, stop⟩ := change
  obtain ⟨others, own, still⟩ := leaves_frame go kept stop h
  obtain ⟨before, side'⟩ := kept.th
  exact ⟨storage.trans still, others, (side'.trans side).trans own.2,
    fun r out => (own.1 r).trans ((same r out).trans (before r))⟩

/-- An instruction that reads and leaves changes no x register. -/
theorem onlyXChanged_of_reads {v : State} (go : s.th.stopWhy = 0) (reads : OnlyReads s v) (h : Leaves s v t) :
    OnlyXChanged w s t := by
  obtain ⟨kept, storage⟩ := reads
  obtain ⟨others, own, still⟩ := leaves_regsKept go kept h
  exact ⟨storage.trans still, others, own.2, fun r _ => own.1 r⟩

variable {i : Instr} {body : State → Res} (m : State → Out)

/-- The outcome of an admitted instruction that retires or jumps is the state in which it leaves. -/
theorem leaves_of_body {u : State} (hx : exec i s = m s) (hm : m s = issue i body s)
    (hb : body s = .retire u ∨ ∃ pc, body s = .jump pc u) (adm : Admitted i s) (h : exec i s = .next t) : Leaves s u t := by
  rw [exec_of_meaning m hx hm adm] at h
  cases h
  rcases hb with hb | ⟨pc, hb⟩
  · exact Or.inl (by rw [hb])
  · exact Or.inr ⟨pc, by rw [hb]⟩

theorem framed_of_writes {d : Reg} {f : State → Word} (hx : exec i s = m s)
    (hm : m s = issue i (fun s => s.retX d (f s)) s) (go : s.th.stopWhy = 0) (adm : Admitted i s) (h : exec i s = .next t) :
    OnlyXChanged (fun r => r = d.toNat) s t :=
  onlyXChanged_of_leaves go (.refl s) (setX_changesX s.th (w := fun r => r = d.toNat) _ rfl) (leaves_of_body m hx hm (Or.inl rfl) adm h)

theorem framed_of_writesPair {d : Reg} {f : State → Dword} (hx : exec i s = m s)
    (hm : m s = issue i (fun s => s.retP d (f s)) s) (go : s.th.stopWhy = 0) (adm : Admitted i s) (h : exec i s = .next t) :
    OnlyXChanged (fun r => r = 2 * d.toNat ∨ r = 2 * d.toNat + 1) s t :=
  onlyXChanged_of_leaves go (.refl s) (setP_changesX _ _ (Or.inl rfl) (Or.inr rfl))
    (leaves_of_body m hx hm (Or.inl rfl) adm h)

/-- A branch jumps or goes on. -/
theorem branch_leaves (u : State) (taken : Bool) (o : BitVec 16) :
    u.branch taken o = .retire u ∨ ∃ pc, u.branch taken o = .jump pc u := by
  cases taken with
  | true => exact Or.inr ⟨_, rfl⟩
  | false => exact Or.inl rfl

theorem framed_of_branches {o : BitVec 16} {cond : State → Bool} (hx : exec i s = m s)
    (hm : m s = issue i (fun s => s.branch (cond s) o) s) (go : s.th.stopWhy = 0) (adm : Admitted i s)
    (h : exec i s = .next t) : OnlyXChanged (fun _ => False) s t :=
  onlyXChanged_of_reads go (.refl s) (leaves_of_body m hx hm (branch_leaves s _ o) adm h)

theorem framed_of_load {b : BitVec 4} {o : BitVec 15} {n : Nat} {l : List Byte} {u : State} {f : Thread → Thread} {word : Word}
    {use : List Byte → State → Res} (hx : exec i s = m s) (hm : m s = issue i (fun s => s.load word b o n use) s)
    (hu : ∀ v, use l v = .retire (v.modTh f)) (change : ∀ h, ChangesX w h (f h)) (go : s.th.stopWhy = 0)
    (reads : LoadReads s b o n l u) (adm : Admitted i s) (h : exec i s = .next t) : OnlyXChanged w s t :=
  onlyXChanged_of_leaves go ((loadReads_onlyReads reads).trans (onlyReads_countRead u _)) (change _)
    (leaves_of_body m hx hm (Or.inl ((load_reads word use reads).trans (hu _))) adm h)

/-- A load of one word, extended. -/
theorem framed_of_loadX {d : Reg} {b : BitVec 4} {o : BitVec 15} {n k : Nat} {sx : Bool} {l : List Byte} {u : State} {word : Word}
    (hx : exec i s = m s) (hm : m s = issue i (fun s => s.load word b o n (State.loadX d k sx)) s) (go : s.th.stopWhy = 0)
    (reads : LoadReads s b o n l u) (adm : Admitted i s) (h : exec i s = .next t) :
    OnlyXChanged (fun r => r = d.toNat) s t :=
  framed_of_load m hx hm (fun _ => rfl) (fun h => setX_changesX h _ rfl) go reads adm h

theorem framed_of_writesMask {d : BitVec 3} {f : State → Word} (hx : exec i s = m s)
    (hm : m s = issue i (fun s => s.retK d (f s)) s) (go : s.th.stopWhy = 0) (adm : Admitted i s) (h : exec i s = .next t) :
    StorageKept s t ∧ OthersKept s t ∧ (∀ r, (t.thread s.cur s.slot).getX r = s.th.getX r) ∧
      (t.thread s.cur s.slot).csr = s.th.csr ∧ ∀ r, r ≠ d.toNat → (t.thread s.cur s.slot).getK r = s.th.getK r := by
  have same : (s.th.setK d.toNat (f s)).getX = s.th.getX ∧ (s.th.setK d.toNat (f s)).csr = s.th.csr ∧
      (s.th.setK d.toNat (f s)).stopWhy = s.th.stopWhy := by
    unfold Thread.setK
    split
    · exact ⟨rfl, rfl, rfl⟩
    · exact ⟨rfl, rfl, rfl⟩
  obtain ⟨x, csr, stop⟩ := same
  obtain ⟨others, ⟨ownX, -, ownK, -, -, ownCsr, -⟩, storage⟩ :=
    leaves_frame (f := (·.setK d.toNat (f s))) go (.refl s) stop (leaves_of_body m hx hm (Or.inl rfl) adm h)
  exact ⟨storage, others, fun r => (ownX r).trans (congrFun x r), ownCsr.trans csr,
    fun r other => (ownK r).trans (s.th.getK_setK_other (f s) other)⟩

end

section
variable {s t u : State} (go : s.th.stopWhy = 0)
include go

/-- The instructions with two source registers that write one word. -/
theorem binary_framed {d a b : Reg} :
    ∀ e ∈ ([.add d a b, .sub d a b, .and d a b, .or d a b, .xor d a b, .andn d a b, .sll d a b, .srl d a b, .sra d a b,
        .rol d a b, .slt d a b, .sltu d a b, .min d a b, .max d a b, .minu d a b, .maxu d a b, .mul d a b, .mulh d a b,
        .mulhu d a b, .div d a b, .divu d a b, .rem d a b, .remu d a b] : List Instr),
      Admitted e s → exec e s = .next t → OnlyXChanged (fun r => r = d.toNat) s t := by
  simp only [List.forall_mem_cons]
  exact ⟨framed_of_writes (execAdd d a b) rfl rfl go, framed_of_writes (execSub d a b) rfl rfl go,
    framed_of_writes (execAnd d a b) rfl rfl go, framed_of_writes (execOr d a b) rfl rfl go,
    framed_of_writes (execXor d a b) rfl rfl go, framed_of_writes (execAndn d a b) rfl rfl go,
    framed_of_writes (execSll d a b) rfl rfl go, framed_of_writes (execSrl d a b) rfl rfl go,
    framed_of_writes (execSra d a b) rfl rfl go, framed_of_writes (execRol d a b) rfl rfl go,
    framed_of_writes (execSlt d a b) rfl rfl go, framed_of_writes (execSltu d a b) rfl rfl go,
    framed_of_writes (execMin d a b) rfl rfl go, framed_of_writes (execMax d a b) rfl rfl go,
    framed_of_writes (execMinu d a b) rfl rfl go, framed_of_writes (execMaxu d a b) rfl rfl go,
    framed_of_writes (execMul d a b) rfl rfl go, framed_of_writes (execMulh d a b) rfl rfl go,
    framed_of_writes (execMulhu d a b) rfl rfl go, framed_of_writes (execDiv d a b) rfl rfl go,
    framed_of_writes (execDivu d a b) rfl rfl go, framed_of_writes (execRem d a b) rfl rfl go,
    framed_of_writes (execRemu d a b) rfl rfl go, fun _ none_ => absurd none_ List.not_mem_nil⟩

/-- The instructions with one source register, a field, an immediate or a mask that write one word. -/
theorem unary_framed {d a b h : Reg} {i : BitVec 16} {f : BitVec 10} {ka : BitVec 3} :
    ∀ e ∈ ([.clz d a, .ctz d a, .popc d a, .sextB d a, .sextH d a,
        .zextB d a, .zextH d a, .bfx d a b, .bfi d a b, .addi d a i, .andi d a i, .ori d a i, .xori d a i, .slti d a i,
        .sltiu d a i, .lui d i, .slli d a h, .srli d a h, .srai d a h, .jalr d a f, .kmovX d ka, .kpopc d ka,
        .kfirst d ka] : List Instr),
      Admitted e s → exec e s = .next t → OnlyXChanged (fun r => r = d.toNat) s t := by
  simp only [List.forall_mem_cons]
  exact ⟨framed_of_writes (execClz d a) rfl rfl go,
    framed_of_writes (execCtz d a) rfl rfl go, framed_of_writes (execPopc d a) rfl rfl go,
    framed_of_writes (execSextB d a) rfl rfl go, framed_of_writes (execSextH d a) rfl rfl go,
    framed_of_writes (execZextB d a) rfl rfl go, framed_of_writes (execZextH d a) rfl rfl go,
    framed_of_writes (execBfx d a b) rfl rfl go, framed_of_writes (execBfi d a b) rfl rfl go,
    framed_of_writes (execAddi d a i) rfl rfl go, framed_of_writes (execAndi d a i) rfl rfl go,
    framed_of_writes (execOri d a i) rfl rfl go, framed_of_writes (execXori d a i) rfl rfl go,
    framed_of_writes (execSlti d a i) rfl rfl go, framed_of_writes (execSltiu d a i) rfl rfl go,
    framed_of_writes (execLui d i) rfl rfl go, framed_of_writes (execSlli d a h) rfl rfl go,
    framed_of_writes (execSrli d a h) rfl rfl go, framed_of_writes (execSrai d a h) rfl rfl go,
    fun adm left => onlyXChanged_of_leaves go (.refl s) (setX_changesX s.th (w := fun r => r = d.toNat) _ rfl)
      (leaves_of_body (execJalr d a f) rfl rfl (Or.inr ⟨_, rfl⟩) adm left),
    framed_of_writes (execKmovX d ka) rfl rfl go, framed_of_writes (execKpopc d ka) rfl rfl go,
    framed_of_writes (execKfirst d ka) rfl rfl go, fun _ none_ => absurd none_ List.not_mem_nil⟩

/-- The loads of one word. -/
theorem loads_framed {d : Reg} {m : BitVec 4} {j : BitVec 15} {l : List Byte} :
    ∀ e ∈ ([(.lb d m j, 1), (.lbu d m j, 1), (.lh d m j, 2), (.lhu d m j, 2), (.lw d m j, 4)] : List (Instr × Nat)),
      LoadReads s m j e.2 l u → l.length = e.2 → Admitted e.1 s → exec e.1 s = .next t →
        OnlyXChanged (fun r => r = d.toNat) s t := by
  simp only [List.forall_mem_cons]
  exact ⟨fun reads _ => framed_of_loadX (execLb d m j) rfl rfl go reads,
    fun reads _ => framed_of_loadX (execLbu d m j) rfl rfl go reads,
    fun reads _ => framed_of_loadX (execLh d m j) rfl rfl go reads,
    fun reads _ => framed_of_loadX (execLhu d m j) rfl rfl go reads,
    fun reads _ => framed_of_loadX (execLw d m j) rfl rfl go reads,
    fun _ none_ => absurd none_ List.not_mem_nil⟩
end

end Sys2Proof.Machine

open Sys2Proof Sys2Proof.Machine

/-- Settles O57: each instruction reads, changes x registers or a mask of its own thread, and leaves. -/
theorem registerInstructionFrames : Obligations.RegisterInstructionFrames := by
  unfold Obligations.RegisterInstructionFrames
  intro s t u d a b h i k kd ka kb f o m j l word pair framed go
  refine ⟨List.forall_mem_append.mpr ⟨binary_framed go, unary_framed go⟩, ?_, ?_, ?_, ?_, ?_, ?_, ?_⟩
  · simp only [List.forall_mem_cons]
    refine ⟨framed_of_writesPair (execAddp d a b) rfl rfl go, framed_of_writesPair (execSubp d a b) rfl rfl go,
      framed_of_writesPair (execMovp d a) rfl rfl go, framed_of_writesPair (execAddpi d a i) rfl rfl go, fun adm left => ?_,
      fun _ none_ => absurd none_ List.not_mem_nil⟩
    by_cases linked : d = 0
    · exact onlyXChanged_of_reads go (.refl s)
        (leaves_of_body (execJalrFar d a f) rfl rfl (Or.inr ⟨_, congrArg _ (if_pos linked)⟩) adm left)
    · exact onlyXChanged_of_leaves go (.refl s) (setP_changesX s.th (w := pair) _ (Or.inl rfl) (Or.inr rfl))
        (leaves_of_body (execJalrFar d a f) rfl rfl (Or.inr ⟨_, congrArg _ (if_neg linked)⟩) adm left)
  · simp only [List.forall_mem_cons]
    exact ⟨framed_of_branches (execBeq a b i) rfl rfl go, framed_of_branches (execBne a b i) rfl rfl go,
      framed_of_branches (execBlt a b i) rfl rfl go, framed_of_branches (execBge a b i) rfl rfl go,
      framed_of_branches (execBltu a b i) rfl rfl go, framed_of_branches (execBgeu a b i) rfl rfl go,
      framed_of_branches (execBkany k i) rfl rfl go, framed_of_branches (execBkall k i) rfl rfl go,
      framed_of_branches (execBknone k i) rfl rfl go,
      fun adm left => onlyXChanged_of_reads go (.refl s) (leaves_of_body (execJ o) rfl rfl (Or.inr ⟨_, rfl⟩) adm left),
      fun _ none_ => absurd none_ List.not_mem_nil⟩
  · exact fun adm left => onlyXChanged_of_leaves go (.refl s) (setX_changesX s.th (w := fun r => r = a.toNat) _ rfl)
      (leaves_of_body (execDbnz a i) rfl rfl (branch_leaves _ _ _) adm left)
  · exact fun adm left => onlyXChanged_of_leaves go (.refl s) (setX_changesX s.th (w := fun r => r = 1) _ rfl)
      (leaves_of_body (execJal o) rfl rfl (Or.inr ⟨_, rfl⟩) adm left)
  · exact loads_framed go
  · exact framed_of_load (execLd d m j) rfl rfl (fun _ => rfl)
      (fun h => setP_changesX h (w := pair) _ (Or.inl rfl) (Or.inr rfl)) go
  · simp only [List.forall_mem_cons]
    exact ⟨framed_of_writesMask (execKand kd ka kb) rfl rfl go, framed_of_writesMask (execKor kd ka kb) rfl rfl go,
      framed_of_writesMask (execKxor kd ka kb) rfl rfl go, framed_of_writesMask (execKnot kd ka) rfl rfl go,
      framed_of_writesMask (execKmovK kd ka) rfl rfl go, framed_of_writesMask (execKgen kd a) rfl rfl go,
      fun _ none_ => absurd none_ List.not_mem_nil⟩
end
section
/-! PROOFS. What a store to plain memory leaves unchanged (O58). -/

namespace Sys2Proof.Machine

section
variable {s u : State} {i : Issuer} {cells : List (Nat × Byte)} {scalar : Bool}

/-- Every byte of storage that is none of some cells from a location reads as before. -/
def BytesOutside (s u : State) (loc : Nat) (cells : List (Nat × Byte)) : Prop :=
  ∀ q, (∀ c ∈ cells, q ≠ loc + c.1) → memByte u.mem q = memByte s.mem q

theorem storeCells_outside {loc : Nat} (wf : Memory.wf s.mem) :
    BytesOutside s (s.storeCells (cells.map fun e => (loc + e.1, e.2))) loc cells := by
  intro q far
  refine memByte_cells_outside wf fun c mem => ?_
  obtain ⟨e, inside, rfl⟩ := List.mem_map.mp mem
  exact far e inside

theorem keepsRegs_storeCells (s : State) (l : List (Nat × Byte)) : KeepsRegs s (s.storeCells l) :=
  .of_threads rfl rfl fun _ _ => rfl

theorem ownPortStore_eq (s : State) (i : Issuer) (path : Nat) (locs : List Nat) :
    ∃ r, s.ownPortStore i path locs = { s with resvs := r } := by
  unfold State.ownPortStore
  split
  · split
    · exact ⟨_, rfl⟩
    · exact ⟨s.resvs, rfl⟩
  · exact ⟨s.resvs, rfl⟩

theorem keepsRegs_ownPortStore (s : State) (i : Issuer) (path : Nat) (locs : List Nat) :
    KeepsRegs s (s.ownPortStore i path locs) := by
  obtain ⟨r, own⟩ := ownPortStore_eq s i path locs
  rw [own]
  exact .of_threads rfl rfl fun _ _ => rfl

theorem ownPortStore_mem (s : State) (i : Issuer) (path : Nat) (locs : List Nat) :
    (s.ownPortStore i path locs).mem = s.mem := by
  obtain ⟨r, own⟩ := ownPortStore_eq s i path locs
  rw [own]

/-- A write to plain memory stores its cells at once. -/
theorem writePlace_mem {loc : Nat} (wf : Memory.wf s.mem) (h : s.writePlace i (.mem loc) cells scalar = .ok u) :
    KeepsRegs s u ∧ BytesOutside s u loc cells := by
  cases h
  exact ⟨keepsRegs_storeCells s _, storeCells_outside wf⟩

/-- A write through a translated path stores its cells at once, and through path 0x00 it enters the store buffer. -/
theorem writePlace_virt {path va loc : Nat} (wf : Memory.wf s.mem)
    (hit : s.translate i.core i.asid path va .store = .hit loc) (h : s.writePlace i (.virt path va) cells scalar = .ok u) :
    KeepsRegs s u ∧ if path = 0 then u.mem = s.mem else BytesOutside s u loc cells := by
  have touched := onlyReads_touchTlb s i.core i.asid path va .store
  simp only [State.writePlace, hit] at h
  by_cases buffered : path = 0
  · rw [if_pos buffered] at h ⊢
    split at h
    · cases h
    · cases h
      exact ⟨touched.1.trans (keepsRegs_setThread _ _ _ (.refl _) rfl), touched.2.1⟩
  · rw [if_neg buffered] at h ⊢
    cases h
    refine ⟨(touched.1.trans (keepsRegs_storeCells _ _)).trans (keepsRegs_ownPortStore _ _ _ _), fun q far => ?_⟩
    have same := storeCells_outside (s := s.touchTlb i.core i.asid path va .store) (cells := cells) (loc := loc)
      (touched.2.1 ▸ wf) q far
    rw [ownPortStore_mem]
    exact same.trans (congrArg (memByte · q) touched.2.1)
end

/-- A byte outside the bytes of a value is none of its cells. -/
theorem outside_of_valueCells {loc size v q : Nat} (far : q < loc ∨ loc + size ≤ q) :
    ∀ c ∈ (List.range size).zip (leBytes size v), q ≠ loc + c.1 := by
  intro c mem
  have low : c.1 < size := List.mem_range.mp (List.of_mem_zip mem).1
  omega

section
variable {s t u : State} {i : Instr} {b : BitVec 4} {o : BitVec 15} {size : Nat} {val : State → Nat} {p : Place}
  {word : Word}   (m : State → Out)

/-- A store of a value that passes its checks, to plain memory or through a translated path. -/
theorem framed_of_storeTo (hx : exec i s = m s) (hm : m s = issue i (fun s => s.storeTo word b o size (val s)) s)
    (go : s.th.stopWhy = 0) (wf : Memory.wf s.mem) (adm : Admitted i s) (takes : StoreTakes s b o size (val s) p u)
    (h : exec i s = .next t) :
    (∀ loc, p = .mem loc → (OthersKept s t ∧ RegsKept s.th (t.thread s.cur s.slot)) ∧
      ∀ q, q < loc ∨ loc + size ≤ q → memByte t.mem q = memByte s.mem q) ∧
    ∀ path va loc, p = .virt path va → s.translate s.cur s.act.asid path va .store = .hit loc →
      (OthersKept s t ∧ RegsKept s.th (t.thread s.cur s.slot)) ∧
        if path = 0 then t.mem = s.mem else ∀ q, q < loc ∨ loc + size ≤ q → memByte t.mem q = memByte s.mem q := by
  have left : Leaves s u t := leaves_of_body m hx hm (Or.inl (storeTo_takes word takes)) adm h
  obtain ⟨-, a, -, -, -, put⟩ := takes
  refine ⟨?_, ?_⟩
  · rintro loc rfl
    obtain ⟨kept, outside⟩ := writePlace_mem wf put
    obtain ⟨others, own, mem, -⟩ := leaves_regsKept go kept left
    exact ⟨⟨others, own⟩, fun q far => (congrArg (memByte · q) mem).trans (outside q (outside_of_valueCells far))⟩
  · rintro path va loc rfl hit
    obtain ⟨kept, outside⟩ := writePlace_virt wf hit put
    obtain ⟨others, own, mem, -⟩ := leaves_regsKept go kept left
    refine ⟨⟨others, own⟩, ?_⟩
    by_cases buffered : path = 0
    · rw [if_pos buffered] at outside ⊢
      exact mem.trans outside
    · rw [if_neg buffered] at outside ⊢
      exact fun q far => (congrArg (memByte · q) mem).trans (outside q (outside_of_valueCells far))
end

end Sys2Proof.Machine

open Sys2Proof Sys2Proof.Machine

/-- Settles O58: a store leaves what it is taken at, and the leaving changes neither a register nor storage. -/
theorem storeFrames : Obligations.StoreFrames := by
  unfold Obligations.StoreFrames
  intro s u t d b o p path va loc kept outside
  have framed {e : Instr} {n : Nat} {val : State → Nat} {word : Word} (m : State → Out) (hx : exec e s = m s)
      (hm : m s = issue e (fun s => s.storeTo word b o n (val s)) s) (go : s.th.stopWhy = 0) (wf : Memory.wf s.mem)
      (adm : Admitted e s) (takes : StoreTakes s b o n (val s) p u) (h : exec e s = .next t) :
      (p = .mem loc → kept ∧ outside loc n) ∧
        (p = .virt path va → s.translate s.cur s.act.asid path va .store = .hit loc →
          kept ∧ if path = 0 then t.mem = s.mem else outside loc n) := by
    obtain ⟨plain, virt⟩ := framed_of_storeTo m hx hm go wf adm takes h
    exact ⟨plain loc, virt path va loc⟩
  simp only [List.forall_mem_cons]
  exact ⟨framed (val := fun s => (s.x d).toNat) (execSb d b o) rfl rfl,
    framed (val := fun s => (s.x d).toNat) (execSh d b o) rfl rfl,
    framed (val := fun s => (s.x d).toNat) (execSw d b o) rfl rfl,
    framed (val := fun s => (s.p d).toNat) (execSd d b o) rfl rfl, fun _ none_ => absurd none_ List.not_mem_nil⟩
end
section
/-! PROOFS. What an atomic leaves unchanged (O59), with the relation by which the frames name what a turn may change. -/

namespace Sys2Proof.Machine

/-! What a turn may change. -/

/-- A thread keeps every register but pc that `x`, `v` and `k` do not name, and its CSRs up to `same`. -/
structure ThreadChanges (x v k : Nat → Prop) (same : Csrs → Csrs → Prop) (h j : Thread) : Prop where
  getX : ∀ r, ¬x r → j.getX r = h.getX r
  getV : ∀ r, ¬v r → j.getV r = h.getV r
  getK : ∀ r, ¬k r → j.getK r = h.getK r
  getM : ∀ r, j.getM r = h.getM r
  getE : ∀ r, j.getE r = h.getE r
  csr : same h.csr j.csr
  stop : j.stopWhy = h.stopWhy

/-- From `s` to `u` only the thread whose turn it is changes registers. -/
structure TurnChanges (x v k : Nat → Prop) (same : Csrs → Csrs → Prop) (s u : State) : Prop where
  cur : u.cur = s.cur
  slot : u.slot = s.slot
  others : OthersKept s u
  own : ThreadChanges x v k same s.th u.th

section
variable {x v k : Nat → Prop} {same : Csrs → Csrs → Prop} {s t u w : State}

theorem ThreadChanges.trans (chain : ∀ a b c : Csrs, same a b → same b c → same a c) {h j l : Thread}
    (hj : ThreadChanges x v k same h j) (jl : ThreadChanges x v k same j l) : ThreadChanges x v k same h l :=
  ⟨fun r out => (jl.getX r out).trans (hj.getX r out), fun r out => (jl.getV r out).trans (hj.getV r out),
    fun r out => (jl.getK r out).trans (hj.getK r out), fun r => (jl.getM r).trans (hj.getM r),
    fun r => (jl.getE r).trans (hj.getE r), chain _ _ _ hj.csr jl.csr, jl.stop.trans hj.stop⟩

theorem TurnChanges.trans (chain : ∀ a b c : Csrs, same a b → same b c → same a c) (h : TurnChanges x v k same s u)
    (g : TurnChanges x v k same u w) : TurnChanges x v k same s w :=
  ⟨g.cur.trans h.cur, g.slot.trans h.slot, h.others.trans h.cur h.slot g.others, h.own.trans chain g.own⟩

theorem ThreadChanges.of_regsKept (refl : ∀ a, same a a) {h j : Thread} (regs : RegsKept h j) (stop : j.stopWhy = h.stopWhy) :
    ThreadChanges x v k same h j := by
  obtain ⟨hx, hv, hk, hm, he, hcsr, -⟩ := regs
  exact ⟨fun r _ => hx r, fun r _ => hv r, fun r _ => hk r, hm, he, hcsr ▸ refl _, stop⟩

theorem KeepsRegs.turnChanges (refl : ∀ a, same a a) (h : KeepsRegs s u) : TurnChanges x v k same s u :=
  ⟨h.cur, h.slot, h.others, .of_regsKept refl h.th h.stopWhy⟩

theorem turnChanges_modTh {f : Thread → Thread} (change : ThreadChanges x v k same s.th (f s.th)) :
    TurnChanges x v k same s (s.modTh f) := by
  refine ⟨rfl, rfl, othersKept_modTh s f, ?_⟩
  rw [th_modTh]
  exact change

/-- An instruction whose effect is a change of its turn leaves that change, and its leaving changes nothing of storage. -/
theorem TurnChanges.leaves (subst : ∀ a b c : Csrs, same a b → c = b → same a c) (go : s.th.stopWhy = 0)
    (change : TurnChanges x v k same s u) (h : Leaves s u t) :
    OthersKept s t ∧ (∀ r, ¬x r → (t.thread s.cur s.slot).getX r = s.th.getX r) ∧
      (∀ r, ¬v r → (t.thread s.cur s.slot).getV r = s.th.getV r) ∧
      (∀ r, ¬k r → (t.thread s.cur s.slot).getK r = s.th.getK r) ∧
      (∀ r, (t.thread s.cur s.slot).getM r = s.th.getM r ∧ (t.thread s.cur s.slot).getE r = s.th.getE r) ∧
      same s.th.csr (t.thread s.cur s.slot).csr ∧ StorageKept u t := by
  obtain ⟨cur, slot, others, own⟩ := change
  obtain ⟨others', ⟨hx, hv, hk, hm, he, hcsr, -⟩, storage⟩ := leaves_kept cur slot (own.stop.trans go) h
  exact ⟨others.trans cur slot others', fun r out => (hx r).trans (own.getX r out), fun r out => (hv r).trans (own.getV r out),
    fun r out => (hk r).trans (own.getK r out), fun r => ⟨(hm r).trans (own.getM r), (he r).trans (own.getE r)⟩,
    subst _ _ _ own.csr hcsr, storage⟩
end

/-! Atomics. -/

/-- The CSRs agree but for the flags. -/
def FlagsApart (a b : Csrs) : Prop := { b with fflags := a.fflags } = a

theorem FlagsApart.refl (a : Csrs) : FlagsApart a a := rfl

theorem FlagsApart.trans {a b c : Csrs} (h : FlagsApart a b) (g : FlagsApart b c) : FlagsApart a c := by
  unfold FlagsApart at h g ⊢
  rw [← h, ← g]

theorem FlagsApart.subst {a b c : Csrs} (h : FlagsApart a b) (g : c = b) : FlagsApart a c := g ▸ h

/-- The registers that an atomic's old value goes to. -/
def oldRegs (d : Reg) (size : Nat) (r : Nat) : Prop :=
  if size = 4 then r = d.toNat else r = 2 * d.toNat ∨ r = 2 * d.toNat + 1

/-- What an atomic may change of its turn. -/
abbrev AtomicTurn (d : Reg) (size : Nat) : State → State → Prop :=
  TurnChanges (oldRegs d size) (fun _ => False) (fun _ => False) FlagsApart

/-- An atomic's effect up to its location: no register but its own, and storage only at the operand's bytes. -/
def AtomicEffect (d : Reg) (size loc : Nat) (s u : State) : Prop :=
  AtomicTurn d size s u ∧ ∀ b, b < loc ∨ loc + size ≤ b → memByte u.mem b = memByte s.mem b

section
variable {d : Reg} {size loc : Nat} {s t u v : State}

theorem AtomicEffect.trans (h : AtomicEffect d size loc s u) (g : AtomicEffect d size loc u v) :
    AtomicEffect d size loc s v :=
  ⟨h.1.trans (fun _ _ _ => FlagsApart.trans) g.1, fun b far => (g.2 b far).trans (h.2 b far)⟩

theorem atomicEffect_of_keeps (kept : KeepsRegs s u) (mem : u.mem = s.mem) : AtomicEffect d size loc s u :=
  ⟨kept.turnChanges FlagsApart.refl, fun b _ => congrArg (memByte · b) mem⟩

theorem ChangesX.threadChanges {x : Nat → Prop} {h j : Thread} (change : ChangesX x h j) :
    ThreadChanges x (fun _ => False) (fun _ => False) FlagsApart h j := by
  obtain ⟨⟨hv, hk, hm, he, hcsr, -⟩, hx, stop⟩ := change
  exact ⟨hx, fun r _ => hv r, fun r _ => hk r, hm, he, hcsr ▸ FlagsApart.refl _, stop⟩

theorem setOld_effect (s : State) (old : Nat) : AtomicEffect d size loc s (s.setOld d size old) := by
  unfold State.setOld
  split
  · next word =>
    refine ⟨turnChanges_modTh (setX_changesX _ _ ?_).threadChanges, fun _ _ => rfl⟩
    rw [oldRegs, if_pos word]
  · next wide =>
    split
    · exact atomicEffect_of_keeps (.refl s) rfl
    · refine ⟨turnChanges_modTh (setP_changesX _ _ ?_ ?_).threadChanges, fun _ _ => rfl⟩
      · rw [oldRegs, if_neg wide]
        exact Or.inl rfl
      · rw [oldRegs, if_neg wide]
        exact Or.inr rfl

theorem setOld_mem (s : State) (d : Reg) (size old : Nat) : (s.setOld d size old).mem = s.mem := by
  unfold State.setOld
  split
  · rfl
  · split
    · rfl
    · rfl

theorem flag_effect (s : State) (f : FlagSet) : AtomicEffect d size loc s (s.flag f) := by
  unfold State.flag State.modCsr
  refine ⟨turnChanges_modTh ?_, fun _ _ => rfl⟩
  exact ⟨fun _ _ => rfl, fun _ _ => rfl, fun _ _ => rfl, fun _ => rfl, fun _ => rfl, FlagsApart.refl _, rfl⟩

theorem countTry_effect (s : State) (path : Nat) : AtomicEffect d size loc s (s.countTry path) := by
  rcases countTry_cases s path with h | ⟨n, h⟩
  · rw [h]
    exact atomicEffect_of_keeps (.refl s) rfl
  · rw [h]
    exact atomicEffect_of_keeps (.of_threads rfl rfl fun _ _ => rfl) rfl

theorem storeNat_effect (wf : Memory.wf s.mem) (val : Nat) : AtomicEffect d size loc s (s.storeNat loc size val) :=
  ⟨KeepsRegs.turnChanges FlagsApart.refl (.of_threads rfl rfl fun _ _ => rfl),
    fun _ far => memByte_write_outside wf (by rwa [leBytes_length])⟩

theorem atomicStore_effect (wf : Memory.wf s.mem) (path val : Nat) :
    AtomicEffect d size loc s (s.atomicStore path loc size val) :=
  (storeNat_effect wf val).trans
    (atomicEffect_of_keeps (keepsRegs_ownPortStore _ _ _ _) (ownPortStore_mem _ _ _ _))

theorem loseOthers_effect (s : State) (i : Issuer) (lo hi : Nat) : AtomicEffect d size loc s (s.loseOthers i lo hi) :=
  atomicEffect_of_keeps (.of_threads rfl rfl fun _ _ => rfl) rfl

theorem dropResv_effect (s : State) (c n : Nat) : AtomicEffect d size loc s (s.dropResv c n) :=
  atomicEffect_of_keeps (.of_threads rfl rfl fun _ _ => rfl) rfl

theorem atomicAt_onlyReads {a : Dword} {scope : Nat} {rl : Bool} (h : AtomicAt s a size scope rl loc u) : OnlyReads s u := by
  obtain ⟨-, -, ⟨-, rfl⟩ | ⟨path, va, -, -, rfl⟩⟩ := h
  · exact .refl _
  · exact onlyReads_touchTlb _ _ _ _ _ _

theorem atomicReads_onlyReads {a : Dword} {scope : Nat} {rl : Bool} (h : AtomicReads s a size scope rl loc u) : OnlyReads s u := by
  obtain ⟨-, v, at_, rfl⟩ := h
  exact (atomicAt_onlyReads at_).trans (onlyReads_countRead _ _)

theorem OnlyReads.atomicEffect (h : OnlyReads s u) : AtomicEffect d size loc s u := atomicEffect_of_keeps h.1 h.2.1

theorem OnlyReads.wf (h : OnlyReads s u) (wf : Memory.wf s.mem) : Memory.wf u.mem := h.2.1 ▸ wf

theorem countTry_wf {path : Nat} (wf : Memory.wf s.mem) : Memory.wf (s.countTry path).mem := by
  rcases countTry_cases s path with h | ⟨n, h⟩
  · rwa [h]
  · rwa [h]
end

/-- What the frame of an atomic says of the registers. -/
def AtomicRegs (s t : State) (d : Reg) (size : Nat) : Prop :=
  OthersKept s t ∧
    (∀ r, ¬(if size = 4 then r = d.toNat else r = 2 * d.toNat ∨ r = 2 * d.toNat + 1) →
      (t.thread s.cur s.slot).getX r = s.th.getX r) ∧
    (∀ r, (t.thread s.cur s.slot).getV r = s.th.getV r ∧ (t.thread s.cur s.slot).getK r = s.th.getK r ∧
      (t.thread s.cur s.slot).getM r = s.th.getM r ∧ (t.thread s.cur s.slot).getE r = s.th.getE r) ∧
    { (t.thread s.cur s.slot).csr with fflags := s.th.csr.fflags } = s.th.csr

section
variable {d : Reg} {size loc : Nat} {s t u : State}

theorem AtomicEffect.leaves (go : s.th.stopWhy = 0) (effect : AtomicEffect d size loc s u) (h : Leaves s u t) :
    AtomicRegs s t d size ∧ t.mem = u.mem ∧ ∀ b, b < loc ∨ loc + size ≤ b → memByte t.mem b = memByte s.mem b := by
  obtain ⟨turn, outside⟩ := effect
  obtain ⟨others, hx, hv, hk, hme, hcsr, mem, -⟩ := TurnChanges.leaves (same := FlagsApart) (fun _ _ _ => FlagsApart.subst) go turn h
  exact ⟨⟨others, hx, fun r => ⟨hv r not_false, hk r not_false, hme r⟩, hcsr⟩, mem,
    fun b far => (congrArg (memByte · b) mem).trans (outside b far)⟩

variable {p a : Reg} {c : BitVec 2} {rl : Bool} {i : Instr} {word : Word} (m : State → Out)

/-- An `amo` changes its destination, flags and the operand's bytes. -/
theorem framed_of_amo {op : AmoOp} (go : s.th.stopWhy = 0) (wf : Memory.wf s.mem) (hx : exec i s = m s)
    (hm : m s = issue i (fun s => s.amo word op size d p a c rl) s) (adm : Admitted i s)
    (at_ : AtomicReads s (s.p p) size c.toNat rl loc u) (taken : portRefuses (s.p p) = false) (h : exec i s = .next t) :
    AtomicRegs s t d size ∧ ∀ b, b < loc ∨ loc + size ≤ b → memByte t.mem b = memByte s.mem b := by
  have reads := atomicReads_onlyReads at_
  have left := leaves_of_body m hx hm (Or.inl (amo_at word op at_ taken)) adm h
  have tried : AtomicEffect d size loc s (if op.loops then u.countTry (pathByte (s.p p)) else u) ∧
      Memory.wf (if op.loops then u.countTry (pathByte (s.p p)) else u).mem := by
    split
    · exact ⟨reads.atomicEffect.trans (countTry_effect u _), countTry_wf (reads.wf wf)⟩
    · exact ⟨reads.atomicEffect, reads.wf wf⟩
  obtain ⟨regs, -, outside⟩ := AtomicEffect.leaves go (((tried.1.trans (atomicStore_effect tried.2 _ _)).trans
    (flag_effect _ _)).trans (setOld_effect _ _)) left
  exact ⟨regs, outside⟩

theorem framed_of_cas (go : s.th.stopWhy = 0) (wf : Memory.wf s.mem) (hx : exec i s = m s)
    (hm : m s = issue i (fun s => s.cas word size d p a c rl) s) (adm : Admitted i s)
    (at_ : AtomicReads s (s.p p) size c.toNat rl loc u) (taken : portRefuses (s.p p) = false) (h : exec i s = .next t) :
    AtomicRegs s t d size ∧ ∀ b, b < loc ∨ loc + size ≤ b → memByte t.mem b = memByte s.mem b := by
  have reads := atomicReads_onlyReads at_
  have left := leaves_of_body m hx hm (Or.inl (cas_at word at_ taken)) adm h
  refine And.imp_right And.right (AtomicEffect.leaves go (AtomicEffect.trans ?_ (setOld_effect _ _)) left)
  by_cases same : u.readNat loc size = (if size = 4 then (s.x d).toNat else (s.p d).toNat)
  · rw [if_pos same]
    exact reads.atomicEffect.trans (atomicStore_effect (reads.wf wf) _ _)
  · rw [if_neg same]
    exact reads.atomicEffect.trans (loseOthers_effect _ _ _ _)

theorem framed_of_loadReserve (go : s.th.stopWhy = 0) (hx : exec i s = m s)
    (hm : m s = issue i (fun s => s.loadReserve word size d p c rl) s) (adm : Admitted i s)
    (at_ : AtomicReads s (s.p p) size c.toNat rl loc u) (h : exec i s = .next t) : AtomicRegs s t d size ∧ t.mem = s.mem := by
  have reads := atomicReads_onlyReads at_
  have left := leaves_of_body m hx hm (Or.inl (loadReserve_at word at_)) adm h
  have reserved (r : FMap Reservation) : AtomicEffect d size loc u { u with resvs := r } :=
    atomicEffect_of_keeps (.of_threads rfl rfl fun _ _ => rfl) rfl
  obtain ⟨regs, mem, -⟩ := AtomicEffect.leaves go ((reads.atomicEffect.trans (reserved _)).trans (setOld_effect _ _)) left
  exact ⟨regs, mem.trans ((setOld_mem _ _ _ _).trans reads.2.1)⟩

theorem framed_of_storeCond (go : s.th.stopWhy = 0) (wf : Memory.wf s.mem) (hx : exec i s = m s)
    (hm : m s = issue i (fun s => s.storeCond word size d p a c rl) s) (adm : Admitted i s)
    (at_ : AtomicAt s (s.p p) size c.toNat rl loc u) (notA : pathByte (s.p p) ≠ 0x08) (notB : pathByte (s.p p) ≠ 0x09)
    (h : exec i s = .next t) :
    AtomicRegs s t d size ∧ ∀ b, b < loc ∨ loc + size ≤ b → memByte t.mem b = memByte s.mem b := by
  have reads := atomicAt_onlyReads at_
  rcases held : u.holdsResv (pathByte (s.p p)) loc size with _ | r
  · have left := leaves_of_body m hx hm (Or.inl (storeCond_lost word at_ held)) adm h
    exact And.imp_right And.right (AtomicEffect.leaves go (((reads.atomicEffect.trans (loseOthers_effect _ _ _ _)).trans
      (dropResv_effect _ _ _)).trans (setOld_effect _ _)) left)
  · have left := leaves_of_body m hx hm (Or.inl (storeCond_held word at_ notA notB held)) adm h
    exact And.imp_right And.right (AtomicEffect.leaves go (((reads.atomicEffect.trans (storeNat_effect (reads.wf wf) _)).trans
      (dropResv_effect _ _ _)).trans (setOld_effect _ _)) left)
end

end Sys2Proof.Machine

open Sys2Proof Sys2Proof.Machine

/-- Settles O59: an atomic is the effect of its operation at its location, and its leaving changes nothing of it. -/
theorem atomicFrames : Obligations.AtomicFrames := by
  unfold Obligations.AtomicFrames
  intro s u t d p a c q l loc regs outside go wf
  have amo {i : Instr} {n : Nat} {op : AmoOp} {word : Word} (m : State → Out) (hx : exec i s = m s)
      (hm : m s = issue i (fun s => s.amo word op n d p a c (l == 1)) s) (adm : Admitted i s)
      (at_ : AtomicReads s (s.p p) n c.toNat (l == 1) loc u) (taken : portRefuses (s.p p) = false) (h : exec i s = .next t) :
      regs n ∧ outside n := framed_of_amo m go wf hx hm adm at_ taken h
  refine ⟨?_, ?_, ?_⟩
  · simp only [List.forall_mem_cons]
    exact ⟨amo (op := .add) (execAmoaddW d p a c q l) rfl rfl, amo (op := .add) (execAmoaddD d p a c q l) rfl rfl,
      amo (op := .swap) (execAmoswapW d p a c q l) rfl rfl, amo (op := .swap) (execAmoswapD d p a c q l) rfl rfl,
      amo (op := .and) (execAmoandW d p a c q l) rfl rfl, amo (op := .and) (execAmoandD d p a c q l) rfl rfl,
      amo (op := .or) (execAmoorW d p a c q l) rfl rfl, amo (op := .or) (execAmoorD d p a c q l) rfl rfl,
      amo (op := .xor) (execAmoxorW d p a c q l) rfl rfl, amo (op := .xor) (execAmoxorD d p a c q l) rfl rfl,
      amo (op := .min) (execAmominW d p a c q l) rfl rfl, amo (op := .min) (execAmominD d p a c q l) rfl rfl,
      amo (op := .max) (execAmomaxW d p a c q l) rfl rfl, amo (op := .max) (execAmomaxD d p a c q l) rfl rfl,
      amo (op := .minu) (execAmominuW d p a c q l) rfl rfl, amo (op := .minu) (execAmominuD d p a c q l) rfl rfl,
      amo (op := .maxu) (execAmomaxuW d p a c q l) rfl rfl, amo (op := .maxu) (execAmomaxuD d p a c q l) rfl rfl,
      amo (op := .fadd) (execAmofadd d p a c q l) rfl rfl, framed_of_cas (execCasW d p a c q l) go wf rfl rfl,
      framed_of_cas (execCasD d p a c q l) go wf rfl rfl, fun _ none_ => absurd none_ List.not_mem_nil⟩
  · simp only [List.forall_mem_cons]
    exact ⟨framed_of_loadReserve (execLrW d p c q l) go rfl rfl, framed_of_loadReserve (execLrD d p c q l) go rfl rfl,
      fun _ none_ => absurd none_ List.not_mem_nil⟩
  · simp only [List.forall_mem_cons]
    exact ⟨framed_of_storeCond (execScW d p a c q l) go wf rfl rfl, framed_of_storeCond (execScD d p a c q l) go wf rfl rfl,
      fun _ none_ => absurd none_ List.not_mem_nil⟩
end
section
/-! PROOFS. What the vector instructions leave unchanged (O60). -/

namespace Sys2Proof.Machine

/-! The effect of a vector instruction up to its leaving. -/

/-- The CSRs agree but for the flags and the end-of-stream bits. -/
def VectorCsrs (a b : Csrs) : Prop := { b with fflags := a.fflags, chst := a.chst } = a

theorem VectorCsrs.refl (a : Csrs) : VectorCsrs a a := rfl

theorem VectorCsrs.trans (a b c : Csrs) (h : VectorCsrs a b) (g : VectorCsrs b c) : VectorCsrs a c := by
  unfold VectorCsrs at h g ⊢
  rw [← h, ← g]

theorem VectorCsrs.subst (a b c : Csrs) (h : VectorCsrs a b) (g : c = b) : VectorCsrs a c := g ▸ h

/-- No register. -/
abbrev noReg (_ : Nat) : Prop := False

/-- An effect on registers that `x`, `v` and `k` name, the flags and the end-of-stream bits. -/
abbrev VectorTurn (x v k : Nat → Prop) : State → State → Prop := TurnChanges x v k VectorCsrs

/-- A vector effect that leaves storage. -/
def VectorEffect (x v k : Nat → Prop) (s u : State) : Prop := VectorTurn x v k s u ∧ StorageKept s u

section
variable {x v k : Nat → Prop} {s t u : State}

theorem VectorEffect.trans (h : VectorEffect x v k s t) (g : VectorEffect x v k t u) : VectorEffect x v k s u :=
  ⟨TurnChanges.trans (same := VectorCsrs) VectorCsrs.trans h.1 g.1, h.2.trans g.2⟩

theorem OnlyReads.vectorEffect (h : OnlyReads s u) : VectorEffect x v k s u :=
  ⟨KeepsRegs.turnChanges (same := VectorCsrs) VectorCsrs.refl h.1, h.2⟩

theorem VectorEffect.refl (s : State) : VectorEffect x v k s s := (OnlyReads.refl s).vectorEffect

theorem modTh_effect {f : Thread → Thread} (change : ThreadChanges x v k VectorCsrs s.th (f s.th)) :
    VectorEffect x v k s (s.modTh f) := ⟨turnChanges_modTh change, rfl, rfl, rfl⟩

theorem thread_modCore_of_threads (s : State) (c m n : Nat) {f : Core → Core}
    (kept : (f (s.core c)).cx.threads = (s.core c).cx.threads) : (s.modCore c f).thread m n = s.thread m n := by
  unfold State.thread
  rw [core_modCore]
  split
  · next same => rw [same, Core.thread, kept, Core.thread]
  · rfl

theorem onlyReads_modBound (s : State) (c slot r : Nat) (f : Bound → Bound) : OnlyReads s (s.modBound c slot r f) :=
  ⟨.of_threads rfl rfl fun m n => thread_modCore_of_threads s c m n rfl, rfl, rfl, rfl⟩

theorem onlyReads_sendBeat (s : State) (b : Bound) (beat : Option Vec) : OnlyReads s (s.sendBeat b beat) := by
  unfold State.sendBeat
  split
  · have spent := onlyReads_modBound s s.cur b.slot b.reg fun b => { b with credits := b.credits - 1 }
    dsimp only
    split
    · exact spent.trans ⟨.of_threads rfl rfl fun _ _ => rfl, rfl, rfl, rfl⟩
    · exact spent
  · exact .refl s

/-- A write of a vector destination changes that register, or only what it is bound to. -/
theorem vput_effect (s : State) {d : Nat} (val : Vec) (named : v d) : VectorEffect x v k s (s.vput d val) := by
  unfold State.vput
  split
  · refine modTh_effect ⟨fun _ _ => rfl, fun r out => ?_, fun _ _ => rfl, fun _ => rfl, fun _ => rfl, VectorCsrs.refl _, rfl⟩
    exact FMap.get_put_other _ _ _ fun same => out (same ▸ named)
  · split
    · exact (onlyReads_modBound _ _ _ _ _).vectorEffect
    · exact (onlyReads_sendBeat _ _ _).vectorEffect

theorem flag_vectorEffect (s : State) (f : FlagSet) : VectorEffect x v k s (s.flag f) := by
  unfold State.flag State.modCsr
  refine modTh_effect ?_
  exact ⟨fun _ _ => rfl, fun _ _ => rfl, fun _ _ => rfl, fun _ => rfl, fun _ => rfl, VectorCsrs.refl _, rfl⟩

theorem setX_vectorEffect (s : State) {d : Reg} (val : Word) (named : x d.toNat) : VectorEffect x v k s (s.setX d val) := by
  obtain ⟨⟨hv, hk, hm, he, hcsr, -⟩, hx, stop⟩ := setX_changesX s.th (w := x) val named
  exact modTh_effect ⟨hx, fun r _ => hv r, fun r _ => hk r, hm, he, hcsr ▸ VectorCsrs.refl _, stop⟩

theorem setK_vectorEffect (s : State) {d : BitVec 3} (val : Word) (named : k d.toNat) : VectorEffect x v k s (s.setK d val) := by
  have other (r : Nat) (out : ¬k r) : (s.th.setK d.toNat val).getK r = s.th.getK r :=
    s.th.getK_setK_other val fun same => out (same ▸ named)
  refine modTh_effect ?_
  unfold Thread.setK at other ⊢
  split
  · exact ⟨fun _ _ => rfl, fun _ _ => rfl, fun _ _ => rfl, fun _ => rfl, fun _ => rfl, VectorCsrs.refl _, rfl⟩
  · next wired =>
    rw [if_neg wired] at other
    exact ⟨fun _ _ => rfl, fun _ _ => rfl, other, fun _ => rfl, fun _ => rfl, VectorCsrs.refl _, rfl⟩

theorem popSource_effect (s : State) (r : Nat) : VectorEffect x v k s (s.popSource r) := by
  unfold State.popSource
  split
  · exact .refl s
  · split
    · exact .refl s
    · unfold State.modCsr
      refine modTh_effect ?_
      exact ⟨fun _ _ => rfl, fun _ _ => rfl, fun _ _ => rfl, fun _ => rfl, fun _ => rfl, VectorCsrs.refl _, rfl⟩
    · exact (onlyReads_modBound _ _ _ _ _).vectorEffect

theorem popSources_effect (s : State) (srcs : List Nat) : VectorEffect x v k s (s.popSources srcs) := by
  unfold State.popSources
  generalize srcs.eraseDups = l
  induction l generalizing s with
  | nil => exact .refl s
  | cons r l ih => exact (popSource_effect s r).trans (ih (s.popSource r))
end

/-! From the effect to the frame. -/

/-- What the frame of a vector instruction says of the registers. -/
def VectorRegs (x v k : Nat → Prop) (s t : State) : Prop :=
  OthersKept s t ∧ (∀ r, ¬x r → (t.thread s.cur s.slot).getX r = s.th.getX r) ∧
    (∀ r, ¬v r → (t.thread s.cur s.slot).getV r = s.th.getV r) ∧
    (∀ r, ¬k r → (t.thread s.cur s.slot).getK r = s.th.getK r) ∧
    (∀ r, (t.thread s.cur s.slot).getM r = s.th.getM r ∧ (t.thread s.cur s.slot).getE r = s.th.getE r) ∧
    { (t.thread s.cur s.slot).csr with fflags := s.th.csr.fflags, chst := s.th.csr.chst } = s.th.csr

/-- A vector instruction whose checks pass and whose operands are ready leads from `s` to `t`. -/
def VectorRuns (s t : State) (srcs dsts : List Nat) (i : Instr) : Prop :=
  Admitted i s ∧ s.vecCheck srcs dsts = .go ∧ exec i s = .next t

section
variable {x v k : Nat → Prop} {s t u : State} {srcs dsts : List Nat} {i : Instr} {body inner : State → Res}

theorem VectorTurn.leaves (go : s.th.stopWhy = 0) (turn : VectorTurn x v k s u) (h : Leaves s u t) :
    VectorRegs x v k s t ∧ StorageKept u t := by
  obtain ⟨others, hx, hv, hk, hme, hcsr, storage⟩ := TurnChanges.leaves (same := VectorCsrs) VectorCsrs.subst go turn h
  exact ⟨⟨others, hx, hv, hk, hme, hcsr⟩, storage⟩

/-- A vector instruction that retires leaves what its effect and the pops of its sources leave. -/
theorem leaves_of_vectorRetires (h : VectorRetires i srcs dsts s u) (runs : VectorRuns s t srcs dsts i) :
    Leaves s (u.popSources srcs) t := by
  obtain ⟨adm, ready, out⟩ := runs
  have retired : exec i s = .next (s.finish (.retire (u.popSources srcs))) := h adm ready
  rw [out] at retired
  exact Or.inl (Host.Outcome.next.inj retired)

theorem framed_of_vectorEffect (go : s.th.stopWhy = 0) (effect : VectorEffect x v k s u) (h : VectorRetires i srcs dsts s u)
    (runs : VectorRuns s t srcs dsts i) : StorageKept s t ∧ VectorRegs x v k s t := by
  obtain ⟨turn, storage⟩ := effect.trans (popSources_effect u srcs)
  obtain ⟨regs, kept⟩ := VectorTurn.leaves go turn (leaves_of_vectorRetires h runs)
  exact ⟨storage.trans kept, regs⟩

theorem vputFlag_effect (s : State) (d : Reg) (val : Vec) (f : FlagSet) :
    VectorEffect noReg (fun n => n = d.toNat) noReg s ((s.vput d.toNat val).flag f) :=
  have written : VectorEffect noReg (fun n => n = d.toNat) noReg s (s.vput d.toNat val) := vput_effect s val rfl
  written.trans (flag_vectorEffect _ _)

variable (m : State → Out)

/-- An instruction that writes lanes of its destination and raises their flags. -/
theorem framed_of_putLanes {d : Reg} {key : Word} {w : Nat} {f : Nat → Nat × FlagSet} (hx : exec i s = m s)
    (hm : m s = issue i body s) (hb : body s = s.vector srcs dsts inner) (hi : inner s = s.putLanes d key w f)
    (go : s.th.stopWhy = 0) (runs : VectorRuns s t srcs dsts i) :
    StorageKept s t ∧ VectorRegs noReg (fun n => n = d.toNat) noReg s t :=
  framed_of_vectorEffect go (vputFlag_effect s d _ _)
    (vectorRetires_of_body m inner hx hm hb hi) runs

/-- An instruction that writes its destination whole. -/
theorem framed_of_vput {d : Reg} {val : Vec} (hx : exec i s = m s) (hm : m s = issue i body s)
    (hb : body s = s.vector srcs dsts inner) (hi : inner s = .retire (s.vput d.toNat val))
    (go : s.th.stopWhy = 0) (runs : VectorRuns s t srcs dsts i) :
    StorageKept s t ∧ VectorRegs noReg (fun n => n = d.toNat) noReg s t :=
  framed_of_vectorEffect go (vput_effect s _ rfl) (vectorRetires_of_body m inner hx hm hb hi) runs

/-- An instruction that writes its destination whole and raises flags. -/
theorem framed_of_vputFlag {d : Reg} {val : Vec} {f : FlagSet} (hx : exec i s = m s) (hm : m s = issue i body s)
    (hb : body s = s.vector srcs dsts inner) (hi : inner s = .retire ((s.vput d.toNat val).flag f))
    (go : s.th.stopWhy = 0) (runs : VectorRuns s t srcs dsts i) :
    StorageKept s t ∧ VectorRegs noReg (fun n => n = d.toNat) noReg s t :=
  framed_of_vectorEffect go (vputFlag_effect s d _ _)
    (vectorRetires_of_body m inner hx hm hb hi) runs

/-- An instruction that writes an x register. -/
theorem framed_of_vectorX {d : Reg} {val : Word} (hx : exec i s = m s) (hm : m s = issue i body s)
    (hb : body s = s.vector srcs dsts inner) (hi : inner s = s.retX d val)
    (go : s.th.stopWhy = 0) (runs : VectorRuns s t srcs dsts i) :
    StorageKept s t ∧ VectorRegs (fun n => n = d.toNat) noReg noReg s t :=
  framed_of_vectorEffect go (setX_vectorEffect s _ rfl) (vectorRetires_of_body m inner hx hm hb hi) runs

/-- A comparison writes its mask. -/
theorem framed_of_compare {d : BitVec 3} {a b : Reg} {key y : BitVec 3} {sel : BitVec 1} {ri : Int → Int → Bool}
    {rf : Machine.Num → Machine.Num → Bool} (hx : exec i s = m s) (hm : m s = issue i body s)
    (hb : body s = s.compare d a b key y sel ri rf) (go : s.th.stopWhy = 0)
    (runs : VectorRuns s t [a.toNat, b.toNat] [] i) :
    StorageKept s t ∧ VectorRegs noReg noReg (fun n => n = d.toNat) s t :=
  framed_of_vectorEffect go (setK_vectorEffect s _ rfl)
    (vectorRetires_of_body m _ hx hm (hb.trans (compare_eq s d a b key y sel ri rf)) rfl) runs
end

section
variable {s t : State} {d a b : Reg} {k y : BitVec 3} {u : BitVec 1} {q e : BitVec 4} (go : s.th.stopWhy = 0)
include go

theorem vec2_framed : ∀ i ∈ ([.vadd d a b k y u, .vsub d a b k y u, .vmul d a b k y u, .vmin d a b k y u, .vmax d a b k y u,
      .vand d a b k y, .vor d a b k y, .vxor d a b k y, .vandn d a b k y, .vsll d a b k y, .vsrl d a b k y, .vsra d a b k y,
      .vaddF d a b k y, .vsubF d a b k y, .vmulF d a b k y, .vminF d a b k y, .vmaxF d a b k y, .vsel d a b k y,
      .vperm d a b k y] : List Instr),
    VectorRuns s t [a.toNat, b.toNat] [d.toNat] i → StorageKept s t ∧ VectorRegs noReg (fun n => n = d.toNat) noReg s t := by
  simp only [List.forall_mem_cons]
  exact ⟨framed_of_putLanes (execVadd d a b k y u) rfl rfl rfl rfl go, framed_of_putLanes (execVsub d a b k y u) rfl rfl rfl rfl go,
    framed_of_putLanes (execVmul d a b k y u) rfl rfl rfl rfl go, framed_of_putLanes (execVmin d a b k y u) rfl rfl rfl rfl go,
    framed_of_putLanes (execVmax d a b k y u) rfl rfl rfl rfl go, framed_of_putLanes (execVand d a b k y) rfl rfl rfl rfl go,
    framed_of_putLanes (execVor d a b k y) rfl rfl rfl rfl go, framed_of_putLanes (execVxor d a b k y) rfl rfl rfl rfl go,
    framed_of_putLanes (execVandn d a b k y) rfl rfl rfl rfl go, framed_of_putLanes (execVsll d a b k y) rfl rfl rfl rfl go,
    framed_of_putLanes (execVsrl d a b k y) rfl rfl rfl rfl go, framed_of_putLanes (execVsra d a b k y) rfl rfl rfl rfl go,
    framed_of_putLanes (execVaddF d a b k y) rfl rfl rfl rfl go, framed_of_putLanes (execVsubF d a b k y) rfl rfl rfl rfl go,
    framed_of_putLanes (execVmulF d a b k y) rfl rfl rfl rfl go, framed_of_putLanes (execVminF d a b k y) rfl rfl rfl rfl go,
    framed_of_putLanes (execVmaxF d a b k y) rfl rfl rfl rfl go, framed_of_vput (execVsel d a b k y) rfl rfl rfl rfl go,
    framed_of_putLanes (execVperm d a b k y) rfl rfl rfl rfl go, fun _ none_ => absurd none_ List.not_mem_nil⟩

theorem vec1_framed : ∀ i ∈ ([.vabs d a k y, .vneg d a k y, .vpopc d a k y, .vabsF d a k y, .vnegF d a k y, .vexp2 d a k y,
      .vlog2 d a k y, .vrcp d a k y, .vrsqrt d a k y, .vcvt d a q k e, .vmov d a k y, .vslide d a b k y, .vredsum d a k y u,
      .vredmax d a k y u, .vredmin d a k y u, .vscan d a k y] : List Instr),
    VectorRuns s t [a.toNat] [d.toNat] i → StorageKept s t ∧ VectorRegs noReg (fun n => n = d.toNat) noReg s t := by
  simp only [List.forall_mem_cons]
  exact ⟨framed_of_putLanes (execVabs d a k y) rfl rfl rfl rfl go, framed_of_putLanes (execVneg d a k y) rfl rfl rfl rfl go,
    framed_of_putLanes (execVpopc d a k y) rfl rfl rfl rfl go, framed_of_putLanes (execVabsF d a k y) rfl rfl rfl rfl go,
    framed_of_putLanes (execVnegF d a k y) rfl rfl rfl rfl go, framed_of_putLanes (execVexp2 d a k y) rfl rfl rfl rfl go,
    framed_of_putLanes (execVlog2 d a k y) rfl rfl rfl rfl go, framed_of_putLanes (execVrcp d a k y) rfl rfl rfl rfl go,
    framed_of_putLanes (execVrsqrt d a k y) rfl rfl rfl rfl go, framed_of_vputFlag (execVcvt d a q k e) rfl rfl rfl rfl go,
    framed_of_putLanes (execVmov d a k y) rfl rfl rfl rfl go, framed_of_putLanes (execVslide d a b k y) rfl rfl rfl rfl go,
    framed_of_vputFlag (execVredsum d a k y u) rfl rfl rfl rfl go,
    framed_of_vputFlag (execVredmax d a k y u) rfl rfl rfl rfl go,
    framed_of_vputFlag (execVredmin d a k y u) rfl rfl rfl rfl go, framed_of_putLanes (execVscan d a k y) rfl rfl rfl rfl go,
    fun _ none_ => absurd none_ List.not_mem_nil⟩

theorem vec3_framed : ∀ i ∈ ([.vclamp d a b k y u, .vdot d a b k y u, .vfma d a b k y, .vfms d a b k y, .vclampF d a b k y,
      .vdotF d a b k y] : List Instr),
    VectorRuns s t [a.toNat, b.toNat, d.toNat] [d.toNat] i →
      StorageKept s t ∧ VectorRegs noReg (fun n => n = d.toNat) noReg s t := by
  simp only [List.forall_mem_cons]
  exact ⟨framed_of_putLanes (execVclamp d a b k y u) rfl rfl rfl rfl go,
    framed_of_putLanes (execVdot d a b k y u) rfl rfl rfl rfl go, framed_of_putLanes (execVfma d a b k y) rfl rfl rfl rfl go,
    framed_of_putLanes (execVfms d a b k y) rfl rfl rfl rfl go, framed_of_putLanes (execVclampF d a b k y) rfl rfl rfl rfl go,
    framed_of_putLanes (execVdotF d a b k y) rfl rfl rfl rfl go, fun _ none_ => absurd none_ List.not_mem_nil⟩

theorem vins_framed (runs : VectorRuns s t [d.toNat] [d.toNat] (.vins d a b y)) :
    StorageKept s t ∧ VectorRegs noReg (fun n => n = d.toNat) noReg s t := by
  by_cases inside : (s.x b).toNat < lanes (elemOf y 0).bytes
  · exact framed_of_vput (execVins d a b y) rfl rfl rfl (if_pos inside) go runs
  · exact framed_of_vectorEffect go (.refl s) (vectorRetires_of_body (execVins d a b y) _ rfl rfl rfl (if_neg inside)) runs

theorem vtopk_framed (runs : VectorRuns s t [a.toNat, b.toNat, d.toNat, d.toNat + 1] [d.toNat, d.toNat + 1] (.vtopk d a b k y u)) :
    StorageKept s t ∧ VectorRegs noReg (fun r => r = d.toNat ∨ r = d.toNat + 1) noReg s t :=
  framed_of_vectorEffect go ((vput_effect s _ (Or.inl rfl)).trans (vput_effect _ _ (Or.inr rfl)))
    (vectorRetires_of_body (execVtopk d a b k y u) _ rfl rfl rfl rfl) runs

theorem vecX_framed : ∀ i ∈ ([.vmvx d a b y, .vargmax d a k y u] : List Instr),
    VectorRuns s t [a.toNat] [] i → StorageKept s t ∧ VectorRegs (fun n => n = d.toNat) noReg noReg s t := by
  simp only [List.forall_mem_cons]
  exact ⟨framed_of_vectorX (execVmvx d a b y) rfl rfl rfl rfl go, framed_of_vectorX (execVargmax d a k y u) rfl rfl rfl rfl go,
    fun _ none_ => absurd none_ List.not_mem_nil⟩

theorem compare_framed (j : BitVec 3) : ∀ i ∈ ([.vcmpEq j a b k y u, .vcmpNe j a b k y u, .vcmpLt j a b k y u,
      .vcmpLe j a b k y u, .vcmpGt j a b k y u, .vcmpGe j a b k y u] : List Instr),
    VectorRuns s t [a.toNat, b.toNat] [] i → StorageKept s t ∧ VectorRegs noReg noReg (fun n => n = j.toNat) s t := by
  simp only [List.forall_mem_cons]
  exact ⟨framed_of_compare (execVcmpEq j a b k y u) rfl rfl rfl go, framed_of_compare (execVcmpNe j a b k y u) rfl rfl rfl go,
    framed_of_compare (execVcmpLt j a b k y u) rfl rfl rfl go, framed_of_compare (execVcmpLe j a b k y u) rfl rfl rfl go,
    framed_of_compare (execVcmpGt j a b k y u) rfl rfl rfl go, framed_of_compare (execVcmpGe j a b k y u) rfl rfl rfl go,
    fun _ none_ => absurd none_ List.not_mem_nil⟩
end

/-! Stores of a vector register. -/

section
variable {x v k : Nat → Prop} {s t u : State} {srcs dsts : List Nat} {i : Instr}

theorem KeepsRegs.vectorTurn (h : KeepsRegs s u) : VectorTurn x v k s u :=
  KeepsRegs.turnChanges (same := VectorCsrs) VectorCsrs.refl h

/-- A vector store leaves in memory what its writes left there. -/
theorem framed_of_vectorStore (go : s.th.stopWhy = 0) (turn : VectorTurn x v k s u) (h : VectorRetires i srcs dsts s u)
    (runs : VectorRuns s t srcs dsts i) : VectorRegs x v k s t ∧ t.mem = u.mem := by
  obtain ⟨popped, mem, -⟩ := popSources_effect (x := x) (v := v) (k := k) u srcs
  obtain ⟨regs, kept, -⟩ := VectorTurn.leaves go (TurnChanges.trans (same := VectorCsrs) VectorCsrs.trans turn popped)
    (leaves_of_vectorRetires h runs)
  exact ⟨regs, kept.trans mem⟩

/-- The narrowed elements of a view lie at the elements of the bytes they come from. -/
theorem narrowCells_key (f : FloatFmt) (mode : RoundMode) (ocp : Bool) (off : Nat) :
    ∀ (cells : List (Nat × Byte)), ∀ c ∈ (narrowCells f mode ocp off cells).1, ∃ e ∈ cells, c.1 = (off + e.1) / 2
  | [], _, mem => by cases mem
  | [_], _, mem => by cases mem
  | (o, lo) :: (o', hi) :: rest, c, mem => by
    rcases List.mem_cons.mp mem with rfl | later
    · exact ⟨(o, lo), List.mem_cons_self, rfl⟩
    · obtain ⟨e, inside, key⟩ := narrowCells_key f mode ocp off rest c later
      exact ⟨e, List.mem_cons_of_mem _ (List.mem_cons_of_mem _ inside), key⟩

/-- A write through a decode view stores each element that its bytes give. -/
theorem writePlace_view {j : Issuer} {w : View} {off : Nat} {cells : List (Nat × Byte)} {scalar : Bool} (wf : Memory.wf s.mem)
    (h : s.writePlace j (.view w off) cells scalar = .ok u) :
    VectorTurn x v k s u ∧
      ∀ n, (∀ c ∈ cells, n ≠ sramLoc j.core ((off + c.1) / 2)) → memByte u.mem n = memByte s.mem n := by
  cases h
  refine ⟨TurnChanges.trans (same := VectorCsrs) VectorCsrs.trans (keepsRegs_storeCells s _).vectorTurn
    (flag_vectorEffect _ _).1, fun n far => memByte_cells_outside wf fun c mem => ?_⟩
  obtain ⟨e, inside, rfl⟩ := List.mem_map.mp mem
  obtain ⟨b, from_, key⟩ := narrowCells_key _ _ _ _ cells e inside
  rw [key]
  exact far b from_

/-- Bytes for the staging area of an egress queue change nothing but that queue. -/
theorem onlyReads_stageBytes (s : State) (j : Issuer) (q : Nat) (cells : List (Nat × Byte)) :
    OnlyReads s (s.stageBytes j q cells) := by
  have queues (e : FMap Egress) : OnlyReads s { s with egress := e } := ⟨.of_threads rfl rfl fun _ _ => rfl, rfl, rfl, rfl⟩
  unfold State.stageBytes
  dsimp only
  split
  · split
    · exact queues _
    · exact .refl s
  · split
    · exact queues _
    · exact queues _

end

/-! Lanes of a gather or scatter. -/

theorem readLanes_onlyReads {w : Nat} {l : List LanePlace} {s u : State} {bs : List Byte} (h : s.readLanes w l = .bytes bs u) :
    OnlyReads s u := by
  induction l generalizing s bs with
  | nil =>
    cases h
    exact .refl _
  | cons e rest ih =>
    rw [State.readLanes] at h
    rcases one : s.readPlace s.issuer e.2.1 e.2.2 (List.range w) with ⟨l', t⟩ | g | _ | g
    · rw [one] at h
      rcases more : t.readLanes w rest with ⟨l'', u'⟩ | g | _ | g
      · simp only [more] at h
        cases h
        exact (readPlace_onlyReads one).trans (ih more)
      all_goals
        simp only [more] at h
        cases h
    all_goals
      rw [one] at h
      cases h

/-- A translation that hits is an entry of the TLB that maps the address and serves the access. -/
theorem translate_hit {s : State} {c path va loc : Nat} {asid : BitVec 16} {kind : AccessKind}
    (h : s.translate c asid path va kind = .hit loc) :
    ∃ e ∈ (s.core c).tlb, e.maps (pathRoot path) asid va = true ∧ e.serves kind = true ∧
      loc = leafLoc (pathRoot path) e.level e.leaf.toNat va := by
  simp only [State.translate, Core.tlbHit] at h
  split at h
  · next e found =>
    have serves := List.find?_some found
    rw [Bool.and_eq_true] at serves
    cases h
    exact ⟨e, List.mem_of_find?_eq_some found, serves.1, serves.2, rfl⟩
  · cases h

/-- The entry that serves an access is put first, and no entry comes into the TLB. -/
theorem touchTlb_tlb {s : State} {c path va d : Nat} {asid : BitVec 16} {kind : AccessKind} {e : TlbEntry}
    (h : e ∈ ((s.touchTlb c asid path va kind).core d).tlb) : e ∈ (s.core d).tlb := by
  unfold State.touchTlb at h
  split at h
  · next t found =>
    split at h
    · exact h
    · rw [core_modCore] at h
      split at h
      · next same =>
        rw [same]
        rcases List.mem_cons.mp (List.mem_of_mem_take h) with rfl | old
        · exact List.mem_of_find?_eq_some found
        · exact (List.mem_filter.mp old).1
      · exact h
  · exact h

/-- Between the lanes of a scatter no register changes, the activation stays, and no entry comes into the TLB. -/
structure BetweenLanes (s u : State) : Prop where
  regs : KeepsRegs s u
  act : u.act = s.act
  tlb : ∀ e ∈ (u.core u.cur).tlb, e ∈ (s.core s.cur).tlb

theorem BetweenLanes.trans {s t u : State} (h : BetweenLanes s t) (g : BetweenLanes t u) : BetweenLanes s u :=
  ⟨h.regs.trans g.regs, g.act.trans h.act, fun e mem => h.tlb e (g.tlb e mem)⟩

theorem BetweenLanes.of_cores {s u : State} (cur : u.cur = s.cur) (slot : u.slot = s.slot) (cores : u.cores = s.cores) :
    BetweenLanes s u := by
  have core (c : Nat) : u.core c = s.core c := by rw [State.core, State.core, cores]
  have thread (c n : Nat) : u.thread c n = s.thread c n := congrArg (·.thread n) (core c)
  refine ⟨.of_threads cur slot thread, ?_, fun e mem => ?_⟩
  · rw [State.act, State.act, State.th, State.th, cur, slot, thread]
  · rwa [cur, core] at mem

theorem betweenLanes_touchTlb (s : State) (path va : Nat) (kind : AccessKind) :
    BetweenLanes s (s.touchTlb s.cur s.act.asid path va kind) := by
  refine ⟨keepsRegs_touchTlb _ _ _ _ _ _, ?_, fun e mem => ?_⟩
  · rw [State.act, State.act, State.th, State.th, touchTlb_cur, touchTlb_slot, touchTlb_thread]
  · rw [touchTlb_cur] at mem
    exact touchTlb_tlb mem

theorem betweenLanes_ownPortStore (s : State) (j : Issuer) (path : Nat) (locs : List Nat) :
    BetweenLanes s (s.ownPortStore j path locs) := by
  obtain ⟨r, own⟩ := ownPortStore_eq s j path locs
  rw [own]
  exact .of_cores rfl rfl rfl

/-- A byte lies outside an element of `w` bytes. -/
def FarFrom (w z loc : Nat) : Prop := z < loc ∨ loc + w ≤ z

/-- A byte is none that a lane's write can reach. -/
def LaneMisses (s : State) (w z : Nat) (e : LanePlace) : Prop :=
  (∀ loc, e.2.2 = .mem loc → FarFrom w z loc) ∧
    ∀ tr va, e.2.2 = .virt tr va → ∀ i ∈ (s.core s.cur).tlb, i.maps (pathRoot tr) s.act.asid va = true →
      i.serves .store = true → FarFrom w z (leafLoc (pathRoot tr) i.level i.leaf.toNat va)

theorem LaneMisses.later {s u : State} {w z : Nat} {e : LanePlace} (between : BetweenLanes s u) (h : LaneMisses s w z e) :
    LaneMisses u w z e := by
  obtain ⟨plain, virt⟩ := h
  refine ⟨plain, fun tr va place i mem maps serves => virt tr va place i (between.tlb i mem) ?_ serves⟩
  rwa [between.act] at maps

/-- The cells that a lane stores. -/
def laneCells (w : Nat) (v : Vec) (n : Nat) : List (Nat × Byte) :=
  (List.range w).map fun j => (j, BitVec.ofNat 8 (lane v 1 (w * n + j)))

theorem outside_of_laneCells {s u : State} {w z loc n : Nat} {v : Vec} (outside : BytesOutside s u loc (laneCells w v n))
    (far : FarFrom w z loc) : memByte u.mem z = memByte s.mem z := by
  refine outside z fun c mem => ?_
  obtain ⟨j, inside, rfl⟩ := List.mem_map.mp mem
  have low : j < w := List.mem_range.mp inside
  unfold FarFrom at far
  show z ≠ loc + j
  omega

/-- What the write of one lane leaves. -/
def LaneWritten (s u : State) (w : Nat) (e : LanePlace) : Prop :=
  BetweenLanes s u ∧ Memory.wf u.mem ∧ ∀ z, LaneMisses s w z e → memByte u.mem z = memByte s.mem z

section
variable {s u : State} {w : Nat} {v : Vec} {e : LanePlace}

theorem laneWritten_of_mem {loc : Nat} (wf : Memory.wf s.mem) (place : e.2.2 = .mem loc)
    (h : s.writePlace s.issuer e.2.2 (laneCells w v e.1) false = .ok u) : LaneWritten s u w e := by
  rw [place] at h
  have outside := (writePlace_mem wf h).2
  cases h
  exact ⟨.of_cores rfl rfl rfl, memCells_wf _ wf, fun z missed => outside_of_laneCells outside (missed.1 loc place)⟩

/-- A lane through a translated path stores at once: on path 0x00 too, behind the translation. -/
theorem laneWritten_of_virt {path va loc : Nat} (wf : Memory.wf s.mem) (place : e.2.2 = .virt path va)
    (hit : s.translate s.cur s.act.asid path va .store = .hit loc)
    (between : BetweenLanes ((s.touchTlb s.cur s.act.asid path va .store).storeCells
      ((laneCells w v e.1).map fun c => (loc + c.1, c.2))) u)
    (mem : u.mem = ((s.touchTlb s.cur s.act.asid path va .store).storeCells
      ((laneCells w v e.1).map fun c => (loc + c.1, c.2))).mem) : LaneWritten s u w e := by
  have touched := betweenLanes_touchTlb s path va .store
  have same : (s.touchTlb s.cur s.act.asid path va .store).mem = s.mem := touchTlb_mem _ _ _ _ _ _
  have wf' : Memory.wf (s.touchTlb s.cur s.act.asid path va .store).mem := same ▸ wf
  have stored : BetweenLanes (s.touchTlb s.cur s.act.asid path va .store)
      ((s.touchTlb s.cur s.act.asid path va .store).storeCells ((laneCells w v e.1).map fun c => (loc + c.1, c.2))) :=
    .of_cores rfl rfl rfl
  refine ⟨(touched.trans stored).trans between, mem ▸ memCells_wf _ wf', fun z missed => ?_⟩
  obtain ⟨i, listed, maps, serves, there⟩ := translate_hit hit
  have far : FarFrom w z loc := there ▸ missed.2 path va place i listed maps serves
  rw [mem, outside_of_laneCells (storeCells_outside wf') far, same]

/-- One lane of a scatter. -/
def State.writeLane (s : State) (w : Nat) (v : Vec) (e : LanePlace) : Put :=
  match e.2.2 with
  | .virt 0 va =>
    match s.translate s.cur s.act.asid 0 va .store with
    | .hit loc => .ok ((s.touchTlb s.cur s.act.asid 0 va .store).storeCells ((laneCells w v e.1).map fun c => (loc + c.1, c.2)))
    | .miss w => .walk w
  | p => s.writePlace s.issuer p (laneCells w v e.1) false

theorem writeLane_written (wf : Memory.wf s.mem)
    (plain : (∃ loc, e.2.2 = .mem loc) ∨ ∃ tr va, e.2.2 = .virt tr va) (h : s.writeLane w v e = .ok u) : LaneWritten s u w e := by
  rcases plain with ⟨loc, place⟩ | ⟨tr, va, place⟩
  · refine laneWritten_of_mem (v := v) wf place ?_
    rw [State.writeLane, place] at h
    rw [place]
    exact h
  · rw [State.writeLane, place] at h
    cases tr with
    | zero =>
      rcases hit : s.translate s.cur s.act.asid 0 va .store with loc | q
      · simp only [hit] at h
        cases h
        exact laneWritten_of_virt wf place hit (.of_cores rfl rfl rfl) rfl
      · simp only [hit] at h
        cases h
    | succ n =>
      have put : s.writePlace s.issuer (.virt (n + 1) va) (laneCells w v e.1) false = .ok u := h
      rcases hit : s.translate s.cur s.act.asid (n + 1) va .store with loc | q
      · simp only [State.writePlace, show s.translate s.issuer.core s.issuer.asid (n + 1) va .store = .hit loc from hit,
          if_neg (Nat.succ_ne_zero n)] at put
        cases put
        exact laneWritten_of_virt wf place hit (betweenLanes_ownPortStore _ _ _ _) (ownPortStore_mem _ _ _ _)
      · simp only [State.writePlace, show s.translate s.issuer.core s.issuer.asid (n + 1) va .store = .miss q from hit] at put
        cases put
end

theorem writeLanes_cons (s : State) (w : Nat) (v : Vec) (e : LanePlace) (rest : List LanePlace) :
    s.writeLanes w v (e :: rest) = match s.writeLane w v e with
      | .ok t => t.writeLanes w v rest
      | r => r := rfl

/-- The lanes of a scatter to storage, one behind the other. -/
theorem writeLanes_written {w : Nat} {v : Vec} {l : List LanePlace} {s u : State} (wf : Memory.wf s.mem)
    (plain : ∀ e ∈ l, (∃ loc, e.2.2 = .mem loc) ∨ ∃ tr va, e.2.2 = .virt tr va) (h : s.writeLanes w v l = .ok u) :
    KeepsRegs s u ∧ ∀ z, (∀ e ∈ l, LaneMisses s w z e) → memByte u.mem z = memByte s.mem z := by
  induction l generalizing s with
  | nil =>
    cases h
    exact ⟨.refl _, fun _ _ => rfl⟩
  | cons e rest ih =>
    rw [writeLanes_cons] at h
    rcases one : s.writeLane w v e with t | _ | q
    · rw [one] at h
      obtain ⟨between, wf', first⟩ := writeLane_written wf (plain e List.mem_cons_self) one
      obtain ⟨regs, others⟩ := ih wf' (fun e mem => plain e (List.mem_cons_of_mem _ mem)) h
      refine ⟨between.regs.trans regs, fun z missed => ?_⟩
      exact (others z fun e mem => (missed e (List.mem_cons_of_mem _ mem)).later between).trans
        (first z (missed e List.mem_cons_self))
    all_goals
      rw [one] at h
      cases h

/-! The vector accesses to memory. -/

section
variable {s t r : State} {d b p : Reg} {c : BitVec 4} {m : BitVec 2} {o : BitVec 15} {a : Dword} {pl : Place} {k y : BitVec 3}
  {bs : List Byte} {l : List LanePlace} (go : s.th.stopWhy = 0)
include go

theorem vld_framed (runs : VectorRuns s t [] [d.toNat] (.vld d c m o))
    (case_ : activeOffs (s.k (m.setWidth 3)) (pathLane (s.basePath c)) = [] ∨
      VectorLeads s c (s.k (m.setWidth 3)) o .load (loadBlocks (s.basePath c)) a pl ∧
        s.readPlace s.issuer a pl (activeOffs (s.k (m.setWidth 3)) (pathLane (s.basePath c))) = .bytes bs r) :
    StorageKept s t ∧ VectorRegs noReg (fun n => n = d.toNat) noReg s t := by
  rcases case_ with none_ | ⟨leads, read⟩
  · exact framed_of_vectorEffect go (vput_effect s _ rfl)
      (vectorRetires_of_body (execVld d c m o) _ rfl rfl rfl (vecLoad_empty _ none_)) runs
  · have reads := (readPlace_onlyReads read).trans (onlyReads_countRead r (s.basePath c))
    exact framed_of_vectorEffect go (reads.vectorEffect.trans (vput_effect _ _ rfl))
      (vectorRetires_of_body (execVld d c m o) _ rfl rfl rfl (vecLoad_leads _ leads read)) runs

theorem vldg_framed (runs : VectorRuns s t [b.toNat] [d.toNat] (.vldg d p b k y))
    (case_ : lanesOn (s.k k) y = [] ∨ lanesOn (s.k k) y ≠ [] ∧
      s.safeRule (loadBlocks (pathByte (s.p p))) true (pathByte (s.p p)) = 0 ∧
      s.checkLanes (s.p p) (elemOf y 0).bytes (laneIndex (elemOf y 0) (s.vsrc b.toNat)) .load (lanesOn (s.k k) y) = .ok l ∧
      s.laneWalk .load l = none ∧ s.readLanes (elemOf y 0).bytes l = .bytes bs r) :
    StorageKept s t ∧ VectorRegs noReg (fun n => n = d.toNat) noReg s t := by
  rcases case_ with none_ | ⟨some_, rule, checked, translated, read⟩
  · exact framed_of_vectorEffect go (vput_effect s _ rfl)
      (vectorRetires_of_body (execVldg d p b k y) _ rfl rfl rfl (gather_empty _ none_)) runs
  · have reads := (readLanes_onlyReads read).trans (onlyReads_countRead r (pathByte (s.p p)))
    exact framed_of_vectorEffect go (reads.vectorEffect.trans (vput_effect _ _ rfl))
      (vectorRetires_of_body (execVldg d p b k y) _ rfl rfl rfl (gather_reads _ some_ rule checked translated read)) runs

variable (narrow : s.opt = 0 ∨ s.basePath c = 0x14 ∨ s.basePath c = 0x15)

omit go in
include narrow in
theorem vst_takesOption : ¬(s.opt ≠ 0 ∧ s.basePath c ≠ 0x14 ∧ s.basePath c ≠ 0x15) := by
  rintro ⟨given, notE4m3, notE5m2⟩
  rcases narrow with h | h | h
  · exact given h
  · exact notE4m3 h
  · exact notE5m2 h

include narrow in
theorem vst_framed_empty (runs : VectorRuns s t [d.toNat] [] (.vst d c m o))
    (none_ : activeOffs (s.k (m.setWidth 3)) (pathLane (s.basePath c)) = []) :
    StorageKept s t ∧ VectorRegs noReg noReg noReg s t :=
  framed_of_vectorEffect go (.refl s)
    (vectorRetires_of_body (execVst d c m o) _ rfl rfl (if_neg (vst_takesOption narrow)) (vecStore_empty _ none_)) runs

/-- The cells that a `vst` stores: the active bytes of its register. -/
def vstCells (s : State) (d : Reg) (c : BitVec 4) (m : BitVec 2) : List (Nat × Byte) :=
  (activeOffs (s.k (m.setWidth 3)) (pathLane (s.basePath c))).map fun j => (j, BitVec.ofNat 8 (lane (s.vsrc d.toNat) 1 j))

omit go in
theorem of_vstCells {q : Nat → Prop}
    (h : ∀ j ∈ activeOffs (s.k (m.setWidth 3)) (pathLane (s.basePath c)), q j) : ∀ e ∈ vstCells s d c m, q e.1 := by
  intro e mem
  obtain ⟨j, inside, rfl⟩ := List.mem_map.mp mem
  exact h j inside

include narrow in
theorem vst_framed (wf : Memory.wf s.mem) (runs : VectorRuns s t [d.toNat] [] (.vst d c m o))
    (leads : VectorLeads s c (s.k (m.setWidth 3)) o .store (storeBlocks (s.basePath c)) a pl)
    (taken : s.writePlace s.issuer pl (vstCells s d c m) false = .ok r) :
    (∀ loc, pl = .mem loc → VectorRegs noReg noReg noReg s t ∧ BytesOutside s t loc (vstCells s d c m)) ∧
    (∀ v z, pl = .view v z → VectorRegs noReg noReg noReg s t ∧
      ∀ n, (∀ e ∈ vstCells s d c m, n ≠ sramLoc s.cur ((z + e.1) / 2)) → memByte t.mem n = memByte s.mem n) ∧
    (∀ n z, pl = .egress n z → VectorRegs noReg noReg noReg s t ∧ t.mem = s.mem) ∧
    ∀ tr va loc, pl = .virt tr va → s.translate s.cur s.act.asid tr va .store = .hit loc →
      VectorRegs noReg noReg noReg s t ∧ if tr = 0 then t.mem = s.mem else BytesOutside s t loc (vstCells s d c m) := by
  have retires := vectorRetires_of_body (execVst d c m o) _ rfl rfl (if_neg (vst_takesOption narrow))
    (vecStore_leads (t := r) _ leads taken)
  have framed (turn : VectorTurn noReg noReg noReg s r) := framed_of_vectorStore go turn retires runs
  refine ⟨?_, ?_, ?_, ?_⟩
  · rintro loc rfl
    obtain ⟨regs, outside⟩ := writePlace_mem wf taken
    obtain ⟨kept, mem⟩ := framed regs.vectorTurn
    exact ⟨kept, fun q far => (congrArg (memByte · q) mem).trans (outside q far)⟩
  · rintro v z rfl
    obtain ⟨turn, outside⟩ := writePlace_view wf taken
    obtain ⟨kept, mem⟩ := framed turn
    exact ⟨kept, fun q far => (congrArg (memByte · q) mem).trans (outside q far)⟩
  · rintro n z rfl
    cases taken
    obtain ⟨regs, storage⟩ := onlyReads_stageBytes s s.issuer n ((vstCells s d c m).map fun e => (z + e.1, e.2))
    obtain ⟨kept, mem⟩ := framed regs.vectorTurn
    exact ⟨kept, mem.trans storage.1⟩
  · rintro tr va loc rfl hit
    obtain ⟨regs, outside⟩ := writePlace_virt wf hit taken
    obtain ⟨kept, mem⟩ := framed regs.vectorTurn
    refine ⟨kept, ?_⟩
    by_cases buffered : tr = 0
    · rw [if_pos buffered] at outside ⊢
      exact mem.trans outside
    · rw [if_neg buffered] at outside ⊢
      exact fun q far => (congrArg (memByte · q) mem).trans (outside q far)

theorem vsts_framed_empty (runs : VectorRuns s t [d.toNat, b.toNat] [] (.vsts d p b k y)) (none_ : lanesOn (s.k k) y = []) :
    StorageKept s t ∧ VectorRegs noReg noReg noReg s t :=
  framed_of_vectorEffect go (.refl s)
    (vectorRetires_of_body (execVsts d p b k y) _ rfl rfl rfl (scatter_empty _ none_)) runs

theorem vsts_framed (wf : Memory.wf s.mem) (runs : VectorRuns s t [d.toNat, b.toNat] [] (.vsts d p b k y))
    (some_ : lanesOn (s.k k) y ≠ []) (rule : s.safeRule (storeBlocks (pathByte (s.p p))) false (pathByte (s.p p)) = 0)
    (checked : s.checkLanes (s.p p) (elemOf y 0).bytes (laneIndex (elemOf y 0) (s.vsrc b.toNat)) .store (lanesOn (s.k k) y) = .ok l)
    (translated : s.laneWalk .store l = none) (ordered : pathByte (s.p p) = 0 → s.drained = true)
    (written : s.writeLanes (elemOf y 0).bytes (s.vsrc d.toNat) l = .ok r)
    (plain : ∀ e ∈ l, (∃ loc, e.2.2 = .mem loc) ∨ ∃ tr va, e.2.2 = .virt tr va) :
    VectorRegs noReg noReg noReg s t ∧
      ∀ z, (∀ e ∈ l, LaneMisses s (elemOf y 0).bytes z e) → memByte t.mem z = memByte s.mem z := by
  obtain ⟨regs, outside⟩ := writeLanes_written wf plain written
  obtain ⟨kept, mem⟩ := framed_of_vectorStore (x := noReg) (v := noReg) (k := noReg) go regs.vectorTurn
    (vectorRetires_of_body (execVsts d p b k y) _ rfl rfl rfl
      (scatter_writes _ some_ rule checked translated ordered written)) runs
  exact ⟨kept, fun z missed => (congrArg (memByte · z) mem).trans (outside z missed)⟩
end

end Sys2Proof.Machine

open Sys2Proof Sys2Proof.Machine

/-- Settles O60: each instruction is an effect on its destinations, and neither the pops of its sources nor its leaving reaches
another register or storage. -/
theorem vectorFrames : Obligations.VectorFrames := by
  unfold Obligations.VectorFrames
  intro s t d a b k y u q e h none_ only regs runs kept go
  refine ⟨vec2_framed go, vec1_framed go, framed_of_putLanes (execVbcast d a k y) rfl rfl rfl rfl go, vins_framed go,
    vec3_framed go, vtopk_framed go, vecX_framed go, fun j => compare_framed go j, ?whole, ?lanes⟩
  case whole =>
    intro c m o x p bs r w path offs cells outside
    refine ⟨fun run empty => vld_framed go (a := 0) (pl := .device 0) (bs := []) (r := s) run (Or.inl empty),
      fun run leads read _ => vld_framed go run (Or.inr ⟨leads, read⟩),
      fun narrow run empty => vst_framed_empty go narrow run empty, fun wf narrow run leads taken => ?_⟩
    obtain ⟨plain, view, egress, virt⟩ := vst_framed go narrow wf run leads taken
    have outside_ {loc : Nat} (h : BytesOutside s t loc (vstCells s d c m)) : outside loc :=
      fun z far => h z (of_vstCells far)
    refine ⟨fun loc place => ?_, fun v z place => ?_, egress, fun tr va loc place hit => ?_⟩
    · obtain ⟨kept, bytes⟩ := plain loc place
      exact ⟨kept, outside_ bytes⟩
    · obtain ⟨kept, bytes⟩ := view v z place
      exact ⟨kept, fun n far => bytes n (of_vstCells (q := fun j => n ≠ sramLoc s.cur ((z + j) / 2)) far)⟩
    · obtain ⟨kept, bytes⟩ := virt tr va loc place hit
      refine ⟨kept, ?_⟩
      by_cases buffered : tr = 0
      · rw [if_pos buffered] at bytes ⊢
        exact bytes
      · rw [if_neg buffered] at bytes ⊢
        exact outside_ bytes
  case lanes =>
    intro p l bs r f w path on idx far missed
    refine ⟨fun run empty => vldg_framed go (l := []) (bs := []) (r := s) run (Or.inl empty),
      fun run some_ rule checked translated read _ => vldg_framed go run (Or.inr ⟨some_, rule, checked, translated, read⟩),
      fun run empty => vsts_framed_empty go run empty, fun wf run some_ rule checked translated ordered written plain => ?_⟩
    obtain ⟨kept, outside⟩ := vsts_framed go wf run some_ rule checked translated ordered written plain
    refine ⟨kept, fun z all => outside z fun x mem => ?_⟩
    have miss : missed z x := all x mem
    refine ⟨fun loc place => ?_, fun tr va place => ?_⟩
    · simp only [missed, place] at miss
      exact miss
    · simp only [missed, place] at miss
      exact miss
end
section
/-! PROOFS. Every step keeps the canonical form of memory (O56). Every operation of the model that `step` can reach either leaves
memory alone, which its lemma `…_mem` says, or keeps its form, which its lemma `…_wfMem` says of a state that has it; the lemmas
stand in the order in which the operations call each other, so that each one's proof uses those of the operations it is made of. -/

namespace Sys2Proof.Machine

/-! The form of memory, of the state behind an answer, and through a choice or a loop. -/

/-- The canonical form of memory as a predicate that the simplifier does not look into. -/
def WfMem (m : List Host.Cell) : Prop := Memory.wf m

/-- The state an answer goes on from. -/
def Res.state : Res → State
  | .retire s => s
  | .jump _ s => s
  | .leave _ s => s
  | .marked s => s
  | .pending _ s => s
  | .resume _ s => s
  | .trap _ _ s => s
  | .wait _ s => s
  | .walk _ s => s
  | .done s => s

@[simp] theorem Res.state_retire (s : State) : (Res.retire s).state = s := rfl
@[simp] theorem Res.state_jump (pc : Dword) (s : State) : (Res.jump pc s).state = s := rfl
@[simp] theorem Res.state_leave (r : RunState) (s : State) : (Res.leave r s).state = s := rfl
@[simp] theorem Res.state_marked (s : State) : (Res.marked s).state = s := rfl
@[simp] theorem Res.state_pending (w : Word) (s : State) : (Res.pending w s).state = s := rfl
@[simp] theorem Res.state_resume (pc : Dword) (s : State) : (Res.resume pc s).state = s := rfl
@[simp] theorem Res.state_trap (code : Nat) (v : Dword) (s : State) : (Res.trap code v s).state = s := rfl
@[simp] theorem Res.state_wait (w : Wait) (s : State) : (Res.wait w s).state = s := rfl
@[simp] theorem Res.state_walk (w : Walk) (s : State) : (Res.walk w s).state = s := rfl
@[simp] theorem Res.state_done (s : State) : (Res.done s).state = s := rfl

@[simp] theorem ite_mem {p : Prop} [Decidable p] {a b : State} {m : List Host.Cell} (ha : a.mem = m) (hb : b.mem = m) :
    (if p then a else b).mem = m := by split <;> assumption

@[simp] theorem ite_wfMem {p : Prop} [Decidable p] {a b : State} (ha : WfMem a.mem) (hb : WfMem b.mem) :
    WfMem (if p then a else b).mem := by split <;> assumption

@[simp] theorem foldl_mem {α : Type} {f : State → α → State} (hf : ∀ s x, (f s x).mem = s.mem) (l : List α) (s : State) :
    (l.foldl f s).mem = s.mem := by
  induction l generalizing s with
  | nil => rfl
  | cons x l ih => simp only [List.foldl_cons, ih, hf]

theorem foldl_wfMem {α : Type} {f : State → α → State} (hf : ∀ s x, WfMem s.mem → WfMem (f s x).mem) (l : List α)
    {s : State} (hs : WfMem s.mem) : WfMem (l.foldl f s).mem := by
  induction l generalizing s with
  | nil => exact hs
  | cons x l ih => exact ih (hf _ _ hs)

@[simp] theorem subtype_wfMem (t : {s : State // WfMem s.mem}) : WfMem t.1.mem := t.2

/-- `foldl_wfMem` with its step given on states in form, so that `simp` meets the hypothesis. -/
@[simp] theorem foldl_wfMem_subtype {α : Type} {f : State → α → State}
    (hf : ∀ (t : {s : State // WfMem s.mem}) x, WfMem (f t.1 x).mem) (l : List α) {s : State} (hs : WfMem s.mem) :
    WfMem (l.foldl f s).mem := foldl_wfMem (fun s x h => hf ⟨s, h⟩ x) l hs

@[simp] theorem memCells_wfMem {m : List Host.Cell} (h : WfMem m) (l : List (Nat × Byte)) :
    WfMem (memCells m l) := memCells_wf l h
@[simp] theorem memWrite_wfMem {m : List Host.Cell} (h : WfMem m) (a : Nat) (l : List Byte) :
    WfMem (memWrite m a l) := memWrite_wf a l h
@[simp] theorem memFilter_wfMem {m : List Host.Cell} (h : WfMem m) (p : Host.Cell → Bool) :
    WfMem (m.filter p) := memFilter_wf p h

theorem getD_wfMem {o : Option State} {s : State} (ho : ∀ t, o = some t → WfMem t.mem) (hs : WfMem s.mem) :
    WfMem (o.getD s).mem := by
  cases o with
  | none => exact hs
  | some t => exact ho t rfl

theorem foldl_fst_wfMem {α β : Type} {f : State × β → α → State × β} (hf : ∀ p x, WfMem p.1.mem → WfMem (f p x).1.mem)
    (l : List α) {p : State × β} (hp : WfMem p.1.mem) : WfMem (l.foldl f p).1.mem := by
  induction l generalizing p with
  | nil => exact hp
  | cons x l ih => exact ih (hf _ _ hp)

theorem fst_wfMem {β : Type} {p : State × β} {t : State} {b : β} (h : p = (t, b)) (hp : WfMem p.1.mem) : WfMem t.mem := by
  subst h
  exact hp

/-! The operations that leave memory alone. Where it holds by `rfl` it is proved `by rfl`: `simp` would take a lemma proved by the
term `rfl` for a definitional equation, and those it does not use below the hypothesis of another lemma. -/

@[simp] theorem loseResvs_mem (s : State) (lo hi : Nat) : (s.loseResvs lo hi).mem = s.mem := by rfl

@[simp] theorem clearPoison_mem (s : State) (lo hi : Nat) : (s.clearPoison lo hi).mem = s.mem := by rfl

@[simp] theorem raiseMsi_mem (s : State) (v : Nat) : (s.raiseMsi v).mem = s.mem := by
  simp [State.raiseMsi]

@[simp] theorem modSlice_mem (s : State) (n : Nat) (f : Slice → Slice) : (s.modSlice n f).mem = s.mem := by rfl

@[simp] theorem setLine_mem (s : State) (n key : Nat) (l : Line) : (s.setLine n key l).mem = s.mem := by rfl

@[simp] theorem logActivation_mem (s : State) (c n : Nat) (ended killed : Bool) :
    (s.logActivation c n ended killed).mem = s.mem := by
  simp only [State.logActivation]
  (repeat' split) <;> simp

@[simp] theorem dropClaim_mem (s : State) (c n : Nat) (ctx : Word) : (s.dropClaim c n ctx).mem = s.mem := by rfl

@[simp] theorem dropClaims_mem (s : State) (c n : Nat) : (s.dropClaims c n).mem = s.mem := by rfl

@[simp] theorem modGang_mem (s : State) (no : Nat) (f : Gang → Gang) : (s.modGang no f).mem = s.mem := by rfl

@[simp] theorem memberEnds_mem (s : State) (p : Nat × Nat) (aborted : Bool) : (s.memberEnds p aborted).mem = s.mem := by rfl

@[simp] theorem boundary_mem (s : State) (c n : Nat) : (s.boundary c n).mem = s.mem := by rfl

@[simp] theorem noteHalt_mem (s : State) (c n : Nat) : (s.noteHalt c n).mem = s.mem := by
  simp [State.noteHalt]

@[simp] theorem modQueue_mem (s : State) (q : Nat) (f : Queue → Queue) : (s.modQueue q f).mem = s.mem := by rfl

@[simp] theorem endProgram_mem (s : State) (t : Thread) (how : EndKind) : (s.endProgram t how).mem = s.mem := by
  unfold State.endProgram
  split <;> simp

@[simp] theorem modEnd_mem (s : State) (c : Nat) (out : Bool) (port : Nat) (gust : Bool) (f : Bound → Bound) :
    (s.modEnd c out port gust f).mem = s.mem := by rfl

@[simp] theorem unlinkEnd_mem (s : State) (c : Nat) (b : Bound) : (s.unlinkEnd c b).mem = s.mem := by
  unfold State.unlinkEnd
  split <;> simp

@[simp] theorem unlinkSlot_mem (s : State) (c n : Nat) : (s.unlinkSlot c n).mem = s.mem := by
  simp [State.unlinkSlot]

@[simp] theorem mirrorKeep_mem (s : State) (c n : Nat) : (s.mirrorKeep c n).mem = s.mem := by
  simp only [State.mirrorKeep]
  (repeat' split) <;> simp

@[simp] theorem setRow_mem (s : State) (slice r : Nat) (v : BitVec 128) : (s.setRow slice r v).mem = s.mem := by rfl

@[simp] theorem begin_mem (s : State) (c n : Nat) (b : Bank) (a : Activation) (ltile gsize gname : Word) (depst : BitVec 4)
    (gelig gustc sup : Bool) (ser : Option Word) :
    (s.begin c n b a ltile gsize gname depst gelig gustc sup ser).mem = s.mem := by
  simp [State.begin]

@[simp] theorem saveTrap_mem (s : State) (c n code : Nat) (tval : Dword) : (s.saveTrap c n code tval).mem = s.mem := by rfl

theorem fetchHeader_mem (s : State) (c slot : Nat) {t : State} (h : s.fetchHeader c slot = .inl t) : t.mem = s.mem := by
  simp only [State.fetchHeader] at h
  (repeat' split at h) <;> cases h <;> simp

@[simp] theorem dropGustCredits_mem (s : State) (c : Nat) : (s.dropGustCredits c).mem = s.mem := by rfl

@[simp] theorem sendGustSuccessors_mem (s : State) (c : Nat) : (s.sendGustSuccessors c).mem = s.mem := by
  refine foldl_mem (fun s x => ?_) _ _
  split <;> simp

@[simp] theorem queueWalk_mem (s : State) (r : WalkReq) : (s.queueWalk r).mem = s.mem := by
  simp [State.queueWalk]

@[simp] theorem moveWalks_mem (s : State) (n : Nat) : (s.moveWalks n).mem = s.mem := by
  simp only [State.moveWalks]
  split <;> simp

@[simp] theorem askWalk_mem (s : State) (r : WalkReq) : (s.askWalk r).mem = s.mem := by
  simp [State.askWalk]

@[simp] theorem block_mem (s : State) (c n : Nat) (w : Wait) : (s.block c n w).mem = s.mem := by rfl

@[simp] theorem awaitWalk_mem (s : State) (c n : Nat) (w : Walk) : (s.awaitWalk c n w).mem = s.mem := by
  simp [State.awaitWalk]

@[simp] theorem setTh_mem (s : State) (t : Thread) : (s.setTh t).mem = s.mem := by rfl

@[simp] theorem retX_mem (s : State) (d : Reg) (v : Word) : (s.retX d v).state.mem = s.mem := by rfl

@[simp] theorem retP_mem (s : State) (d : Reg) (v : Dword) : (s.retP d v).state.mem = s.mem := by rfl

@[simp] theorem branch_mem (s : State) (taken : Bool) (o : BitVec 16) : (s.branch taken o).state.mem = s.mem := by
  unfold State.branch
  split <;> simp

theorem readAt_mem (s : State) (a : Dword) (loc : Nat) (offs : List Nat) {t : State} {l : List Byte}
    (h : s.readAt a loc offs = .bytes l t) :
    t.mem = s.mem := by
  simp only [State.readAt] at h
  split at h <;> simp_all

@[simp] theorem noteSeen_mem (s : State) (i : Issuer) (locs : List Nat) : (s.noteSeen i locs).mem = s.mem := by rfl

theorem readView_mem (s : State) (c : Nat) (v : View) (off : Nat) (offs : List Nat) {t : State} {l : List Byte}
    (h : s.readView c v off offs = .bytes l t) :
    t.mem = s.mem := by
  simp only [State.readView] at h
  split at h <;> simp_all

@[simp] theorem dbgErr_mem (s : State) (c : Nat) : (s.dbgErr c).mem = s.mem := by rfl

@[simp] theorem touchDbgdat_mem (s : State) (c : Nat) : (s.touchDbgdat c).mem = s.mem := by
  simp [State.touchDbgdat]

@[simp] theorem regTouch_mem (s : State) (sp : RegSpace) (offs : List Nat) : (s.regTouch sp offs).mem = s.mem := by
  refine foldl_mem (fun s x => ?_) _ _
  split <;> simp

theorem readPlace_mem (s : State) (i : Issuer) (a : Dword) (p : Place) (offs : List Nat) {t : State} {l}
    (h : s.readPlace i a p offs = .bytes l t) :
    t.mem = s.mem := by
  cases p <;> simp only [State.readPlace] at h
  case mem loc =>
    split at h
    · cases h
    · exact readAt_mem _ _ _ _ h
  case virt path va =>
    split at h
    · cases h
    · rw [← touchTlb_mem s i.core i.asid path va .load]
      split at h
      · split at h
        · cases h
        · exact readAt_mem _ _ _ _ h
      · split at h
        · cases h
          simp
        · cases h
        · exact readAt_mem _ _ _ _ h
  case view => exact readView_mem _ _ _ _ _ h
  case mailbox =>
    split at h
    · exact readAt_mem _ _ _ _ h
    · cases h
      rfl
  case egress =>
    cases h
    rfl
  case slice | device =>
    split at h
    · cases h
    · cases h
      simp

@[simp] theorem countRead_mem (s : State) (path : Nat) : (s.countRead path).mem = s.mem := by
  simp [State.countRead]

@[simp] theorem commitFrame_mem (s : State) (q room : Nat) (bs : List Byte) : (s.commitFrame q room bs).mem = s.mem := by rfl

@[simp] theorem stageBytes_mem (s : State) (i : Issuer) (q : Nat) (cells : List (Nat × Byte)) :
    (s.stageBytes i q cells).mem = s.mem := by
  simp [State.stageBytes]

@[simp] theorem writeFeatacc_mem (s : State) (v : Nat) : (s.writeFeatacc v).mem = s.mem := by
  simp [State.writeFeatacc]

@[simp] theorem bootGo_mem (s : State) : (s.bootGo).mem = s.mem := by
  simp [State.bootGo]

@[simp] theorem attestRequest_mem (s : State) : (s.attestRequest).mem = s.mem := by
  simp [State.attestRequest]

@[simp] theorem writeSqcfg_mem (s : State) (v : Nat) : (s.writeSqcfg v).mem = s.mem := by rfl

@[simp] theorem writeTick_mem (s : State) (e v : Nat) : (s.writeTick e v).mem = s.mem := by
  simp [State.writeTick]

@[simp] theorem detachSnaps_mem (s : State) (n : Nat) : (s.detachSnaps n).mem = s.mem := by rfl

@[simp] theorem writeMbSlot_mem (s : State) (n v : Nat) : (s.writeMbSlot n v).mem = s.mem := by
  simp [State.writeMbSlot]

@[simp] theorem writeGustPool_mem (s : State) (v : Nat) : (s.writeGustPool v).mem = s.mem := by
  simp [State.writeGustPool]

@[simp] theorem writeProfile_mem (s : State) (p v : Nat) : (s.writeProfile p v).mem = s.mem := by
  simp only [State.writeProfile]
  split <;> simp

@[simp] theorem writeKeep_mem (s : State) (k v : Nat) : (s.writeKeep k v).mem = s.mem := by rfl

@[simp] theorem writeTmctl_mem (s : State) (v : Nat) : (s.writeTmctl v).mem = s.mem := by rfl

@[simp] theorem writeStream_mem (s : State) (n v : Nat) : (s.writeStream n v).mem = s.mem := by
  simp [State.writeStream]

@[simp] theorem writeEgress_mem (s : State) (q v : Nat) : (s.writeEgress q v).mem = s.mem := by rfl

@[simp] theorem writeTemplate_mem (s : State) (j v : Nat) : (s.writeTemplate j v).mem = s.mem := by
  simp [State.writeTemplate]

@[simp] theorem writeShedctl_mem (s : State) (v : Nat) : (s.writeShedctl v).mem = s.mem := by rfl

@[simp] theorem modPart_mem (s : State) (n : Nat) (f : Partition → Partition) : (s.modPart n f).mem = s.mem := by rfl

@[simp] theorem setReflexAsid_mem (s : State) (asid : BitVec 16) : (s.setReflexAsid asid).mem = s.mem := by
  unfold State.setReflexAsid
  dsimp only [State.modPart]
  rw [foldl_mem (fun _ _ => modCore_mem _ _ _)]

theorem partChange_mem (s : State) (n v : Nat) (hadErr : Bool) {t : State} (h : s.partChange n v hadErr = some t) :
    t.mem = s.mem := by
  simp only [State.partChange] at h
  (repeat' split at h) <;> cases h <;> simp only [modPart_mem, setReflexAsid_mem]
  refine foldl_mem (fun _ _ => ?_) _ _
  rfl

@[simp] theorem partErr_mem (s : State) (n : Nat) : (s.partErr n).mem = s.mem := by rfl

@[simp] theorem modImage_mem (s : State) (p j : Nat) (f : TileImage → TileImage) : (s.modImage p j f).mem = s.mem := by rfl

@[simp] theorem unlinkAway_mem (s : State) (c n : Nat) (x : TileCtx) : (s.unlinkAway c n x).mem = s.mem := by
  simp [State.unlinkAway]

@[simp] theorem endedAway_mem (s : State) (c n : Nat) (x : TileCtx) : (s.endedAway c n x).mem = s.mem := by
  simp [State.endedAway]

@[simp] theorem moveFlight_mem (s : State) (f : Nat → Nat) : (s.moveFlight f).mem = s.mem := by rfl

@[simp] theorem setMb_mem (s : State) (n : Nat) (k : MbSlot) : (s.setMb n k).mem = s.mem := by rfl

@[simp] theorem snapPin_mem (s : State) (c : Snap) (stale : Bool) : (s.snapPin c stale).2.mem = s.mem := by
  simp only [State.snapPin]
  split <;> simp

@[simp] theorem moveClaims_mem (s : State) (c d : Nat) (x : TileCtx) : (s.moveClaims c d x).mem = s.mem := by rfl

@[simp] theorem moveGangs_mem (s : State) (asid : BitVec 16) (f : Nat → Nat) : (s.moveGangs asid f).mem = s.mem := by rfl

@[simp] theorem linkEnds_mem (s : State) (c : Nat) (b : Bound) : (s.linkEnds c b).mem = s.mem := by
  unfold State.linkEnds
  split <;> simp

@[simp] theorem writeErrq_mem (s : State) (v : Nat) : (s.writeErrq v).mem = s.mem := by rfl

@[simp] theorem haltIdle_mem (s : State) (c : Nat) : (s.haltIdle c).mem = s.mem := by
  simp [State.haltIdle]

@[simp] theorem release_mem (s : State) (c n why : Nat) : (s.release c n why).mem = s.mem := by
  simp only [State.release]
  (repeat' split) <;> simp

@[simp] theorem bksync_mem (s : State) (c : Nat) : (s.bksync c).mem = s.mem := by rfl

@[simp] theorem engineWrite_mem (s : State) (c slot n : Nat) (v : Dword) : (s.engineWrite c slot n v).mem = s.mem := by
  unfold State.engineWrite
  (repeat' split) <;> simp

@[simp] theorem csrWrite_mem (s : State) (c n num : Nat) (v : Word) : (s.csrWrite c n num v).1.mem = s.mem := by
  simp only [State.csrWrite]
  (repeat' split) <;> simp

@[simp] theorem dbgPut_mem (s : State) (c v : Nat) : (s.dbgPut c v).mem = s.mem := by
  simp only [State.dbgPut]
  split <;> simp

@[simp] theorem writeDbgdat_mem (s : State) (c v : Nat) : (s.writeDbgdat c v).mem = s.mem := by
  simp [State.writeDbgdat]

@[simp] theorem writeBkmap_mem (s : State) (c v : Nat) : (s.writeBkmap c v).mem = s.mem := by
  unfold State.writeBkmap
  split <;> simp

@[simp] theorem writeLogbase_mem (s : State) (c v : Nat) : (s.writeLogbase c v).mem = s.mem := by
  simp only [State.writeLogbase]
  split <;> simp

@[simp] theorem writeWtovf_mem (s : State) (slice v : Nat) : (s.writeWtovf slice v).mem = s.mem := by rfl

@[simp] theorem writeLdctl_mem (s : State) (slice v : Nat) : (s.writeLdctl slice v).mem = s.mem := by
  simp [State.writeLdctl]

@[simp] theorem waitsOn_mem (s : State) (obj : Nat) : (s.waitsOn obj).mem = s.mem := by rfl

@[simp] theorem modBound_mem (s : State) (c slot r : Nat) (f : Bound → Bound) : (s.modBound c slot r f).mem = s.mem := by rfl

@[simp] theorem popSource_mem (s : State) (r : Nat) : (s.popSource r).mem = s.mem := by
  unfold State.popSource
  (repeat' split) <;> simp

@[simp] theorem popSources_mem (s : State) (srcs : List Nat) : (s.popSources srcs).mem = s.mem := by
  simp [State.popSources]

theorem vector_mem_or (s : State) (srcs dsts : List Nat) (body : State → Res) :
    (s.vector srcs dsts body).state.mem = s.mem ∨ (s.vector srcs dsts body).state.mem = (body s).state.mem := by
  simp only [State.vector]
  split
  · exact .inl rfl
  · exact .inl (by simp)
  · right
    split
    next h => simp [h]
    next => rfl

@[simp] theorem vector_mem {s : State} (srcs dsts : List Nat) {body : State → Res} (hb : (body s).state.mem = s.mem) :
    (s.vector srcs dsts body).state.mem = s.mem := by
  rcases vector_mem_or s srcs dsts body with h | h <;> rw [h]
  exact hb

@[simp] theorem vector_wfMem {s : State} (hs : WfMem s.mem) (srcs dsts : List Nat) {body : State → Res}
    (hb : WfMem (body s).state.mem) : WfMem (s.vector srcs dsts body).state.mem := by
  rcases vector_mem_or s srcs dsts body with h | h <;> rw [h] <;> assumption

@[simp] theorem sendBeat_mem (s : State) (b : Bound) (v : Option Vec) : (s.sendBeat b v).mem = s.mem := by
  simp only [State.sendBeat]
  (repeat' split) <;> simp

@[simp] theorem vput_mem (s : State) (r : Nat) (v : Vec) : (s.vput r v).mem = s.mem := by
  unfold State.vput
  (repeat' split) <;> simp

theorem queueWork_mem (s : State) (n : Nat) (w : AgentWork) {t : State} (h : s.queueWork n w = some t) : t.mem = s.mem := by
  simp only [State.queueWork] at h
  (repeat' split at h) <;> cases h <;> simp

@[simp] theorem countDrop_mem (s : State) (n r : Nat) : (s.countDrop n r).mem = s.mem := by rfl

@[simp] theorem raiseLine_mem (s : State) (n kind : Nat) (owner : BitVec 16) (e : LineEvent) :
    (s.raiseLine n kind owner e).1.mem = s.mem := by
  simp only [State.raiseLine]
  split
  · rfl
  · split
    next t h => simp [queueWork_mem s _ _ h]
    next => simp

@[simp] theorem missLine_mem (s : State) (e : LineEvent) : (s.missLine e).mem = s.mem := by
  simp [State.missLine]

@[simp] theorem fetchLine_mem (s : State) (c : Nat) (p : Prefetch) (t : TlbEntry) : (s.fetchLine c p t).mem = s.mem := by
  simp [State.fetchLine]

@[simp] theorem startPrefetch_mem (s : State) (c : Nat) (p : Prefetch) : (s.startPrefetch c p).mem = s.mem := by
  unfold State.startPrefetch
  split <;> simp

@[simp] theorem prefetch_mem (s : State) (h : Nat) (a : Dword) : (s.prefetch h a).mem = s.mem := by
  unfold State.prefetch
  split <;> simp

@[simp] theorem countTry_mem (s : State) (path : Nat) : (s.countTry path).mem = s.mem := by
  simp [State.countTry]

@[simp] theorem loseOthers_mem (s : State) (i : Issuer) (lo hi : Nat) : (s.loseOthers i lo hi).mem = s.mem := by rfl

@[simp] theorem putLanes_mem (s : State) (d : Reg) (k : Word) (w : Nat) (f : Nat → Nat × FlagSet) :
    (s.putLanes d k w f).state.mem = s.mem := by
  simp [State.putLanes]

@[simp] theorem vecInt2_mem (s : State) (d a b : Reg) (k y : BitVec 3) (u : BitVec 1)
    (op : IntFmt → Nat → Nat → Nat × FlagSet) :
    (s.vecInt2 d a b k y u op).state.mem = s.mem := by
  simp [State.vecInt2]

@[simp] theorem vecInt1_mem (s : State) (d a : Reg) (k y : BitVec 3) (op : IntFmt → Nat → Nat × FlagSet) :
    (s.vecInt1 d a k y op).state.mem = s.mem := by
  simp [State.vecInt1]

@[simp] theorem vecFlt2_mem (s : State) (d a b : Reg) (k y : BitVec 3) (op : FloatFmt → Num → Num → Nat × FlagSet) :
    (s.vecFlt2 d a b k y op).state.mem = s.mem := by
  simp [State.vecFlt2]

@[simp] theorem vecFlt1_mem (s : State) (d a : Reg) (k y : BitVec 3) (op : FloatFmt → Num → Nat × FlagSet) :
    (s.vecFlt1 d a k y op).state.mem = s.mem := by
  simp [State.vecFlt1]

@[simp] theorem vecFlt3_mem (s : State) (d a b : Reg) (k y : BitVec 3) (op : FloatFmt → Num → Num → Num → Nat × FlagSet) :
    (s.vecFlt3 d a b k y op).state.mem = s.mem := by
  simp [State.vecFlt3]

@[simp] theorem compare_mem (s : State) (d : BitVec 3) (a b : Reg) (k y : BitVec 3) (u : BitVec 1) (ri : Int → Int → Bool)
    (rf : Num → Num → Bool) : (s.compare d a b k y u ri rf).state.mem = s.mem :=
  vector_mem _ _ rfl

@[simp] theorem retK_mem (s : State) (d : BitVec 3) (v : Word) : (s.retK d v).state.mem = s.mem := by rfl

@[simp] theorem putReduced_mem (s : State) (d : Reg) (w : Nat) (r : Nat × FlagSet) :
    (s.putReduced d w r).state.mem = s.mem := by
  simp [State.putReduced]

theorem readLanes_mem (s : State) (w : Nat) (l : List LanePlace) {t : State} {b} (h : s.readLanes w l = .bytes b t) :
    t.mem = s.mem := by
  induction l generalizing s b with
  | nil => cases h; rfl
  | cons e rest ih =>
    simp only [State.readLanes] at h
    split at h
    next hp =>
      split at h
      next hr =>
        cases h
        exact (ih _ hr).trans (readPlace_mem s _ _ _ _ hp)
      next hg => simp_all
    next hg => simp_all

@[simp] theorem modCx_mem (s : State) (c : Nat) (f : TileCtx → TileCtx) : (s.modCx c f).mem = s.mem := by rfl

@[simp] theorem queueHandoff_mem (s : State) (m : MatrixCmd) (buf : Nat) : (s.queueHandoff m buf).mem = s.mem := by rfl

@[simp] theorem startMatrix_mem (s : State) (m : MatrixCmd) : (s.startMatrix m).state.mem = s.mem := by rfl

@[simp] theorem unboundReg_mem (s : State) (r : Nat) : (s.unboundReg r).mem = s.mem := by rfl

@[simp] theorem setCounter_mem (s : State) (n : Nat) (v : Word) : (s.setCounter n v).mem = s.mem := by
  unfold State.setCounter
  split <;> simp

@[simp] theorem sendTrap_mem (s : State) (w : Word) (code : Nat) (at_ : Word) :
    (s.sendTrap w code at_).state.mem = s.mem := by rfl

@[simp] theorem launch_mem (s : State) (c dst : Nat) (m : Message) : (s.launch c dst m).mem = s.mem := by
  simp [State.launch]

@[simp] theorem firingReturns_mem (s : State) (m : Message) : (s.firingReturns m).mem = s.mem := by
  unfold State.firingReturns
  split <;> simp

@[simp] theorem startMessage_mem (s : State) (c n idx : Nat) (e : BitVec 128) (m : Message) :
    (s.startMessage c n idx e m).mem = s.mem := by
  simp only [State.startMessage]
  split <;> simp

@[simp] theorem mirrorOut_mem (s : State) (n b ver ptime writer ufl len : Nat) :
    (s.mirrorOut n b ver ptime writer ufl len).mem = s.mem := by
  simp [State.mirrorOut]

@[simp] theorem setGust_mem (s : State) (p : Nat) (g : GustProfile) : (s.setGust p g).mem = s.mem := by rfl

@[simp] theorem returnCredit_mem (s : State) (m : Message) : (s.returnCredit m).mem = s.mem := by
  unfold State.returnCredit
  split <;> simp

@[simp] theorem admitPosts_mem (s : State) : (s.admitPosts).mem = s.mem := by
  simp [State.admitPosts]

@[simp] theorem pinLine_mem (s : State) (n key : Nat) : (s.pinLine n key).1.mem = s.mem := by
  unfold State.pinLine
  (repeat' split) <;> simp

@[simp] theorem unpinLine_mem (s : State) (n key : Nat) : (s.unpinLine n key).1.mem = s.mem := by
  unfold State.unpinLine
  (repeat' split) <;> simp

@[simp] theorem returnFromTrap_mem (s : State) : (s.returnFromTrap).state.mem = s.mem := by rfl

@[simp] theorem tlbDrop_mem (s : State) (c : Nat) (p : TlbEntry → Bool) : (s.tlbDrop c p).mem = s.mem := by rfl

@[simp] theorem putCsr_mem (s : State) (w : Word) (n : Nat) (v : Word) : (s.putCsr w n v).state.mem = s.mem := by
  simp only [State.putCsr]
  (repeat' split) <;> simp

@[simp] theorem firingDispatched_mem (s : State) (m : Message) : (s.firingDispatched m).mem = s.mem := by
  unfold State.firingDispatched
  split <;> simp

@[simp] theorem loadMessage_mem (s : State) (c n idx : Nat) (e : BitVec 128) (m : Message) :
    (s.loadMessage c n idx e m).mem = s.mem := by
  unfold State.loadMessage
  split <;> simp

@[simp] theorem place_mem (s : State) (c n idx : Nat) (e : BitVec 128) (m : Message) : (s.place c n idx e m).mem = s.mem := by
  simp [State.place]

@[simp] theorem startHandler_mem (s : State) (n slot r tag : Nat) (line : Option (Nat × Nat)) (bank : Dword → Bank) :
    (s.startHandler n slot r tag line bank).mem = s.mem := by
  simp [State.startHandler]

@[simp] theorem modTenant_mem (s : State) (c n : Nat) (f : Thread → Thread) : (s.modTenant c n f).mem = s.mem := by rfl

@[simp] theorem commitGang_mem (s : State) (g : Gang) (tiles : List Nat) : (s.commitGang g tiles).mem = s.mem := by
  simp [State.commitGang]

@[simp] theorem modTenantCtx_mem (s : State) (c : Nat) (f : TileCtx → TileCtx) : (s.modTenantCtx c f).mem = s.mem := by
  unfold State.modTenantCtx
  split <;> simp

@[simp] theorem answerHost_mem (s : State) (bs : List Byte) (bad : Bool) : (s.answerHost bs bad).mem = s.mem := by rfl

@[simp] theorem countHostbad_mem (s : State) : (s.countHostbad).mem = s.mem := by rfl

@[simp] theorem barRead_mem (s : State) (o n : Nat) : (s.barRead o n).mem = s.mem := by
  unfold State.barRead
  split <;> simp

@[simp] theorem poisonAt_mem (s : State) (a : Nat) : (s.poisonAt a).mem = s.mem := by
  simp [State.poisonAt]

@[simp] theorem awaitElem_mem (s : State) (c chan : Nat) (i : Issuer) (w : Walk) : (s.awaitElem c chan i w).mem = s.mem := by
  simp [State.awaitElem]

@[simp] theorem touchElem_mem (s : State) (i : Issuer) (a : Dword) (kind : AccessKind) (n : Nat) :
    (s.touchElem i a kind n).mem = s.mem := by
  simp [State.touchElem]

@[simp] theorem touchSource_mem (s : State) (m : MoverCmd) (i : Issuer) (j : Nat) : (s.touchSource m i j).mem = s.mem := by
  unfold State.touchSource
  split <;> simp

@[simp] theorem moverNext_mem (s : State) (c chan : Nat) : (s.moverNext c chan).mem = s.mem := by rfl

@[simp] theorem elemDone_mem (s : State) (c chan n : Nat) (m : MoverCmd) : (s.elemDone c chan n m).mem = s.mem := by
  simp [State.elemDone]

@[simp] theorem streamDrained_mem (s : State) (c chan : Nat) : (s.streamDrained c chan).mem = s.mem := by rfl

@[simp] theorem fence_mem (s : State) : (s.fence).mem = s.mem := by rfl

@[simp] theorem missTicks_mem (s : State) (i n : Nat) : (s.missTicks i n).mem = s.mem := by rfl

theorem takeService_mem (s : State) (r : ServiceReq) {t : State} (h : s.takeService r = some t) : t.mem = s.mem := by
  simp only [State.takeService] at h
  (repeat' split at h) <;> cases h <;> simp

@[simp] theorem updateClass_mem (s : State) (bank c : Nat) : (s.updateClass bank c).mem = s.mem := by
  simp [State.updateClass]

@[simp] theorem bandit_mem (s : State) (classes : List Nat) : (s.bandit classes).mem = s.mem := by
  simp [State.bandit]

@[simp] theorem setSilent_mem (s : State) (n key : Nat) (b : Bool) : (s.setSilent n key b).mem = s.mem := by rfl

@[simp] theorem nextDescriptor_mem (s : State) (slice : Nat) (err : Bool) : (s.nextDescriptor slice err).mem = s.mem := by rfl

@[simp] theorem setFrameOwner_mem (s : State) (r : ServiceReq) : (s.setFrameOwner r).mem = s.mem := by rfl

@[simp] theorem bksyncDone_mem (s : State) (c : Nat) : (s.bksyncDone c).mem = s.mem := by
  unfold State.bksyncDone
  split <;> simp

@[simp] theorem bootFail_mem (s : State) (code : Nat) : (s.bootFail code).mem = s.mem := by rfl

/-! The operations that write memory or end in one that does. `simp -implicitDefEqProofs` stands where such
a hypothesis needs one of the state's own laws that are definitional (`modThread_mem` and the like). -/

@[simp] theorem store_wfMem {s : State} (hs : WfMem s.mem) (a : Nat) (bs : List Byte) : WfMem (s.store a bs).mem := by
  simp [State.store, hs]

@[simp] theorem storeNat_wfMem {s : State} (hs : WfMem s.mem) (a n v : Nat) : WfMem (s.storeNat a n v).mem := by
  simp [State.storeNat, hs]

@[simp] theorem dropWaiters_wfMem {s : State} (hs : WfMem s.mem) (p : Waiter → Bool) : WfMem (s.dropWaiters p).mem := by
  refine foldl_wfMem (fun s x hs => ?_) _ hs
  split <;> simp [hs]

@[simp] theorem unpark_wfMem {s : State} (hs : WfMem s.mem) (c n : Nat) : WfMem (s.unpark c n).mem := by
  simp [State.unpark, hs]

@[simp] theorem debugStop_wfMem {s : State} (hs : WfMem s.mem) (c n why : Nat) : WfMem (s.debugStop c n why).mem := by
  refine foldl_wfMem (fun s x hs => ?_) _ hs
  simp [hs]

@[simp] theorem putRecord_wfMem {s : State} (hs : WfMem s.mem) (r : Nat) : WfMem (s.putRecord r).mem := by
  simp [State.putRecord, hs]

@[simp] theorem record_wfMem {s : State} (hs : WfMem s.mem) (kind sev asid id slot unit : Nat) (fields : List RecordField) :
    WfMem (s.record kind sev asid id slot unit fields).mem := by
  simp [State.record, hs]

@[simp] theorem threadRecord_wfMem {s : State} (hs : WfMem s.mem) (c n kind sev : Nat) (fields : List RecordField) :
    WfMem (s.threadRecord c n kind sev fields).mem := by
  simp [State.threadRecord, hs]

@[simp] theorem putLine_wfMem {s : State} (hs : WfMem s.mem) (key : Nat) (bs : List Byte) : WfMem (s.putLine key bs).mem := by
  simp [State.putLine, hs]

@[simp] theorem dropLine_wfMem {s : State} (hs : WfMem s.mem) (n key : Nat) (wb : Bool) : WfMem (s.dropLine n key wb).mem := by
  unfold State.dropLine
  split <;> simp [hs]

@[simp] theorem letGo_wfMem {s : State} (hs : WfMem s.mem) (n key hold : Nat) : WfMem (s.letGo n key hold).mem := by
  unfold State.letGo
  (repeat' split) <;> simp [hs]

@[simp] theorem endLine_wfMem {s : State} (hs : WfMem s.mem) (c : Nat) (t : Thread) : WfMem (s.endLine c t).mem := by
  unfold State.endLine
  split <;> simp [hs]

@[simp] theorem zeroFill_wfMem {s : State} (hs : WfMem s.mem) (c : Nat) (x : Matrix) (f : Fill) :
    WfMem (s.zeroFill c x f).mem := by
  simp [State.zeroFill, hs]

@[simp] theorem endFills_wfMem {s : State} (hs : WfMem s.mem) (c n : Nat) (away : Bool) : WfMem (s.endFills c n away).mem := by
  simp [State.endFills, hs]

@[simp] theorem storeCells_wfMem {s : State} (hs : WfMem s.mem) (cells : List (Nat × Byte)) :
    WfMem (s.storeCells cells).mem := by
  simp [State.storeCells, hs]

@[simp] theorem performStore_wfMem {s : State} (hs : WfMem s.mem) (c n : Nat) : WfMem (s.performStore c n).mem := by
  unfold State.performStore
  split <;> simp [hs]

@[simp] theorem drainStores_wfMem {s : State} (hs : WfMem s.mem) (c n : Nat) : WfMem (s.drainStores c n).mem := by
  simp [State.drainStores, hs]

@[simp] theorem endMember_wfMem {s : State} (hs : WfMem s.mem) (c n : Nat) (a : Activation) (how : EndKind) :
    WfMem (s.endMember c n a how).mem := by
  unfold State.endMember
  split <;> simp [hs]

@[simp] theorem addTileCounter_wfMem {s : State} (hs : WfMem s.mem) (c n : Nat) (v : Word) :
    WfMem (s.addTileCounter c n v).mem := by
  unfold State.addTileCounter
  split <;> simp [hs]

@[simp] theorem endShare_wfMem {s : State} (hs : WfMem s.mem) (c n : Nat) (a : Activation) (how : EndKind) :
    WfMem (s.endShare c n a how).mem := by
  unfold State.endShare
  split <;> simp [hs]

@[simp] theorem endActivation_wfMem {s : State} (hs : WfMem s.mem) (c n : Nat) (how : EndKind) :
    WfMem (s.endActivation c n how).mem := by
  simp only [State.endActivation]
  split
  · exact hs
  · exact unpark_wfMem (by simp [hs]) _ _

@[simp] theorem endThread_wfMem {s : State} (hs : WfMem s.mem) (c n : Nat) (how : EndKind) : WfMem (s.endThread c n how).mem := by
  simp only [State.endThread]
  have h : WfMem ((((s.unlinkSlot c n).endProgram (s.thread c n) how).endActivation c n how).endLine c (s.thread c n)).mem := by
    simp [hs]
  split <;> simp [h]

@[simp] theorem faultQueue_wfMem {s : State} (hs : WfMem s.mem) (c n q code : Nat) : WfMem (s.faultQueue c n q code).mem := by
  simp [State.faultQueue, hs]

@[simp] theorem enterVector_wfMem {s : State} (hs : WfMem s.mem) (c n : Nat) : WfMem (s.enterVector c n).mem := by
  simp only [State.enterVector]
  split <;> simp -implicitDefEqProofs [hs]

@[simp] theorem overrun_wfMem {s : State} (hs : WfMem s.mem) (c n r : Nat) : WfMem (s.overrun c n r).mem := by
  simp only [State.overrun]
  split <;> simp [hs]

@[simp] theorem handlerTrap_wfMem {s : State} (hs : WfMem s.mem) (c n r : Nat) : WfMem (s.handlerTrap c n r).mem := by
  simp only [State.handlerTrap]
  have h (f) : WfMem (((s.overrun c n r).modThread c n f).endThread c n .killed).mem := endThread_wfMem (by simp [hs]) _ _ _
  (repeat' split) <;> simp [h]

@[simp] theorem settleTrap_wfMem {s : State} (hs : WfMem s.mem) (c n : Nat) : WfMem (s.settleTrap c n).mem := by
  simp only [State.settleTrap]
  split <;> simp [hs]

@[simp] theorem vectorTrap_wfMem {s : State} (hs : WfMem s.mem) (c n code : Nat) (tval : Dword) :
    WfMem (s.vectorTrap c n code tval).mem := by
  simp only [State.vectorTrap]
  (repeat' split) <;> simp [hs]

@[simp] theorem takeTrap_wfMem {s : State} (hs : WfMem s.mem) (c n code : Nat) (tval : Dword) :
    WfMem (s.takeTrap c n code tval).mem := by
  simp only [State.takeTrap]
  split <;> simp [hs]

@[simp] theorem budgetRecord_wfMem {s : State} (hs : WfMem s.mem) (c n kind : Nat) : WfMem (s.budgetRecord c n kind).mem := by
  simp [State.budgetRecord, hs]

@[simp] theorem budgetTrap_wfMem {s : State} (hs : WfMem s.mem) (c n : Nat) : WfMem (s.budgetTrap c n).mem :=
  takeTrap_wfMem (by simp [hs]) _ _ _ _

@[simp] theorem unbackedRecord_wfMem {s : State} (hs : WfMem s.mem) (asid id unit pa : Nat) :
    WfMem (s.unbackedRecord asid id unit pa).mem := by
  simp [State.unbackedRecord, hs]

@[simp] theorem coreUnbacked_wfMem {s : State} (hs : WfMem s.mem) (c pa : Nat) : WfMem (s.coreUnbacked c pa).mem := by
  simp [State.coreUnbacked, hs]

@[simp] theorem bitmapRecord_wfMem {s : State} (hs : WfMem s.mem) (c pc : Nat) : WfMem (s.bitmapRecord c pc).mem := by
  unfold State.bitmapRecord
  split <;> simp [hs]

@[simp] theorem fetchWord_wfMem {s : State} (hs : WfMem s.mem) (c slot pc loc : Nat) :
    WfMem (s.fetchWord c slot pc loc).2.mem := by
  unfold State.fetchWord
  (repeat' split) <;> simp [hs]

@[simp] theorem loadTile_wfMem {s : State} (hs : WfMem s.mem) (c : Nat) : WfMem (s.loadTile c).mem := by
  simp only [State.loadTile]
  split
  · exact hs
  · refine foldl_wfMem (fun s n hs => ?_) _ (by simpa using hs)
    (repeat' split) <;> simp [hs]

@[simp] theorem settleFault_wfMem {s : State} (hs : WfMem s.mem) (c n : Nat) : WfMem (s.settleFault c n).mem := by
  simp only [State.settleFault]
  (repeat' split) <;> simp -implicitDefEqProofs [hs]

@[simp] theorem goOn_wfMem {s : State} (hs : WfMem s.mem) (c n : Nat) (full : Bool) : WfMem (s.goOn c n full).mem := by
  simp only [State.goOn]
  (repeat' split) <;> simp -implicitDefEqProofs [hs]

@[simp] theorem goOnAll_wfMem {s : State} (hs : WfMem s.mem) (c : Nat) (full : Bool) : WfMem (s.goOnAll c full).mem := by
  simp [State.goOnAll, hs]

@[simp] theorem returnTenant_wfMem {s : State} (hs : WfMem s.mem) (c : Nat) : WfMem (s.returnTenant c).mem := by
  simp only [State.returnTenant]
  split <;> simp [hs]

@[simp] theorem gustOver_wfMem {s : State} (hs : WfMem s.mem) (c : Nat) : WfMem (s.gustOver c).mem := by
  simp only [State.gustOver]
  split <;> simp [hs]

@[simp] theorem trapped_wfMem {s : State} (hs : WfMem s.mem) (c n code : Nat) (tval : Dword) :
    WfMem (s.trapped c n code tval).mem := by
  simp [State.trapped, hs]

@[simp] theorem fetchRecord_wfMem {s : State} (hs : WfMem s.mem) (c n code : Nat) (pc : Dword) :
    WfMem (s.fetchRecord c n code pc).mem := by
  simp [State.fetchRecord, hs]

@[simp] theorem pfxTrap_wfMem {s : State} (hs : WfMem s.mem) (tval : Dword) : WfMem (s.pfxTrap tval).mem := by
  simp -implicitDefEqProofs [State.pfxTrap, hs]

@[simp] theorem retired_wfMem {s : State} (hs : WfMem s.mem) (c n words : Nat) : WfMem (s.retired c n words).mem := by
  simp only [State.retired]
  split <;> simp [hs]

@[simp] theorem discardGust_wfMem {s : State} (hs : WfMem s.mem) (c n : Nat) : WfMem (s.discardGust c n).mem := by
  simp [State.discardGust, hs]

@[simp] theorem suspend_wfMem {s : State} (hs : WfMem s.mem) (c n : Nat) (w : Wait) : WfMem (s.suspend c n w).mem := by
  simp [State.suspend, hs]

@[simp] theorem stopAs_wfMem {s : State} (hs : WfMem s.mem) (c n : Nat) (r : StopKind) : WfMem (s.stopAs c n r).mem := by
  unfold State.stopAs
  split <;> simp [hs]

@[simp] theorem stopPoint_wfMem {s : State} (hs : WfMem s.mem) (c n : Nat) (atSafe : Bool) :
    WfMem (s.stopPoint c n atSafe).mem := by
  unfold State.stopPoint
  split <;> simp [hs]

/-- What follows from an answer keeps the form of the state the answer goes on from. -/
theorem finish_wfMem (s : State) {r : Res} (hr : WfMem r.state.mem) : WfMem (s.finish r).mem := by
  cases r <;> simp only [Res.state_retire, Res.state_jump, Res.state_leave, Res.state_marked, Res.state_pending,
    Res.state_resume, Res.state_trap, Res.state_wait, Res.state_walk, Res.state_done] at hr <;>
    simp -implicitDefEqProofs [State.finish, hr]

@[simp] theorem accessTrap_wfMem {s : State} (hs : WfMem s.mem) (w : Word) (code : Nat) (va : Dword) :
    WfMem (s.accessTrap w code va).state.mem := by
  simp [State.accessTrap, hs]

@[simp] theorem windowFault_wfMem {s : State} (hs : WfMem s.mem) : WfMem (s.windowFault).state.mem := by
  unfold State.windowFault
  split <;> simp [hs]

theorem load_wfMem {s : State} (hs : WfMem s.mem) (w : Word) (b : BitVec 4) (o : BitVec 15) (size : Nat)
    {use : List Byte → State → Res} (hu : ∀ l t, WfMem t.mem → WfMem (use l t).state.mem) :
    WfMem (s.load w b o size use).state.mem := by
  simp only [State.load]
  split
  · exact hs
  · split
    · exact accessTrap_wfMem hs _ _ _
    · split
      · exact windowFault_wfMem hs
      · split
        · exact accessTrap_wfMem hs _ _ _
        · exact hs
        · split
          next h => exact hu _ _ (by simpa [readPlace_mem _ _ _ _ _ h] using hs)
          all_goals exact hs

@[simp] theorem feRecord_wfMem {s : State} (hs : WfMem s.mem) (kind sev asid : Nat) (fields : List RecordField) :
    WfMem (s.feRecord kind sev asid fields).mem := by
  simp [State.feRecord, hs]

@[simp] theorem takeOver_wfMem {s : State} (hs : WfMem s.mem) (cause : Nat) : WfMem (s.takeOver cause).mem := by
  simp [State.takeOver, hs]

@[simp] theorem writeHsctl_wfMem {s : State} (hs : WfMem s.mem) (v : Nat) : WfMem (s.writeHsctl v).mem := by
  unfold State.writeHsctl
  split <;> simp [hs]

@[simp] theorem faultAny_wfMem {s : State} (hs : WfMem s.mem) (q code : Nat) : WfMem (s.faultAny q code).mem := by
  unfold State.faultAny
  split <;> simp [hs]

@[simp] theorem doorbell_wfMem {s : State} (hs : WfMem s.mem) (q v : Nat) : WfMem (s.doorbell q v).mem := by
  simp only [State.doorbell]
  (repeat' split) <;> simp [hs]

@[simp] theorem askStop_wfMem {s : State} (hs : WfMem s.mem) (c : Nat) : WfMem (s.askStop c).mem := by
  simp [State.askStop, hs]

@[simp] theorem haltPart_wfMem {s : State} (hs : WfMem s.mem) (n : Nat) : WfMem (s.haltPart n).mem := by
  simp -implicitDefEqProofs [State.haltPart, hs]

@[simp] theorem partRefuse_wfMem {s : State} (hs : WfMem s.mem) (n cmd : Nat) : WfMem (s.partRefuse n cmd).mem := by
  simp [State.partRefuse, hs]

@[simp] theorem performWalk_wfMem {s : State} (hs : WfMem s.mem) (c : Nat) (asid : BitVec 16) (w : Walk) :
    WfMem (s.performWalk c asid w).1.mem := by
  simp only [State.performWalk]
  (repeat' split) <;> simp [hs]

@[simp] theorem liveMap_wfMem {s : State} (hs : WfMem s.mem) (c : Nat) (t : Thread) : WfMem (s.liveMap c t).1.mem := by
  simp only [State.liveMap]
  (repeat' split) <;> grind [performWalk_wfMem, touchTlb_mem]

@[simp] theorem storeRegs_wfMem {s : State} (hs : WfMem s.mem) (loc width : Nat) (val : Nat → Nat) (count : Nat)
    (keep : Nat → Bool) :
    WfMem (s.storeRegs loc width val count keep).mem := by
  refine foldl_wfMem (fun s x hs => ?_) _ hs
  simp [hs]

@[simp] theorem storeBank_wfMem {s : State} (hs : WfMem s.mem) (loc : Nat) (b : Bank) (keepX keepV keepK : Nat → Bool) :
    WfMem (s.storeBank loc b keepX keepV keepK).mem := by
  grind [State.storeBank, storeRegs_wfMem, storeNat_wfMem]

@[simp] theorem saveSlot_wfMem {s : State} (hs : WfMem s.mem) (c n : Nat) : WfMem (s.saveSlot c n).mem := by
  grind [State.saveSlot, liveMap_wfMem, storeBank_wfMem, storeRegs_wfMem, storeNat_wfMem]

@[simp] theorem saveEngines_wfMem {s : State} (hs : WfMem s.mem) (c : Nat) : WfMem (s.saveEngines c).mem := by
  unfold State.saveEngines
  refine foldl_wfMem (fun s e hs => storeRegs_wfMem hs _ _ _ _ _) _ ?_
  grind [storeRegs_wfMem, storeNat_wfMem]

@[simp] theorem saveTile_wfMem {s : State} (hs : WfMem s.mem) (c : Nat) : WfMem (s.saveTile c).mem := by
  unfold State.saveTile
  have h : WfMem ((List.range 4).foldl (fun s n => (s.saveSlot c n).dropResv c n) s).mem :=
    foldl_wfMem (fun s n hs => by simp [hs]) _ hs
  grind [storeRegs_wfMem, saveEngines_wfMem, modCore_mem]

@[simp] theorem savePart_wfMem {s : State} (hs : WfMem s.mem) (n : Nat) : WfMem (s.savePart n).mem := by
  refine foldl_wfMem (fun s x hs => ?_) _ hs
  split <;> simp [hs]

@[simp] theorem syncRing_wfMem {s : State} (hs : WfMem s.mem) (c : Nat) : WfMem (s.syncRing c).mem := by
  simp [State.syncRing, hs]

@[simp] theorem refillRing_wfMem {s : State} (hs : WfMem s.mem) (c : Nat) : WfMem (s.refillRing c).mem := by
  simp -implicitDefEqProofs [State.refillRing, hs]

@[simp] theorem dropStarting_wfMem {s : State} (hs : WfMem s.mem) (c : Nat) (p : Nat × Nat) :
    WfMem (s.dropStarting c p).mem := by
  simp only [State.dropStarting]
  split <;> simp -implicitDefEqProofs [hs]

@[simp] theorem abortMember_wfMem {s : State} (hs : WfMem s.mem) (g : Gang) (id : Nat) (m : Member) :
    WfMem (s.abortMember g id m).mem := by
  simp only [State.abortMember]
  (repeat' split) <;> simp -implicitDefEqProofs [hs]

@[simp] theorem abortGang_wfMem {s : State} (hs : WfMem s.mem) (no : Nat) : WfMem (s.abortGang no).mem := by
  simp only [State.abortGang]
  (repeat' split) <;> simp [hs]

@[simp] theorem poisonedTile_wfMem {s : State} (hs : WfMem s.mem) (n : Nat) : WfMem (s.poisonedTile n).mem :=
  partRefuse_wfMem (foldl_wfMem (fun _ _ hs => abortGang_wfMem hs _) _ hs) _ _

@[simp] theorem restorePart_wfMem {s : State} (hs : WfMem s.mem) (n : Nat) : WfMem (s.restorePart n).mem := by
  simp only [State.restorePart, modPart_mem]
  refine ite_wfMem (poisonedTile_wfMem ?loaded n) ?loaded
  exact foldl_wfMem (fun s c hs => by split <;> simp [hs]) _ hs

@[simp] theorem resumePart_wfMem {s : State} (hs : WfMem s.mem) (n : Nat) : WfMem (s.resumePart n).mem := by
  simp -implicitDefEqProofs [State.resumePart, hs]

@[simp] theorem addOwnCounter_wfMem {s : State} (hs : WfMem s.mem) (c slot n : Nat) (gust : Bool) (v : Word) :
    WfMem (s.addOwnCounter c slot n gust v).mem := by
  simp only [State.addOwnCounter]
  (repeat' split) <;> simp [hs]

@[simp] theorem snapLand_wfMem {s : State} (hs : WfMem s.mem) (c : Snap) (bs : List Byte) : WfMem (s.snapLand c bs).mem := by
  simp [State.snapLand, hs]

@[simp] theorem mbBad_wfMem {s : State} (hs : WfMem s.mem) (n b : Nat) (copy : Option Snap) : WfMem (s.mbBad n b copy).mem := by
  unfold State.mbBad
  refine foldl_wfMem (fun s i hs => ?_) _ ?_
  · (repeat' split) <;> simp [hs]
  · simp only [setMb_mem]
    split <;> simp [hs]

@[simp] theorem snapRun_wfMem {s : State} (hs : WfMem s.mem) (c : Snap) (fuel : Nat) : WfMem (s.snapRun c fuel).mem := by
  induction fuel generalizing s c with
  | zero => exact hs
  | succ fuel ih =>
    simp only [State.snapRun]
    split
    · simp [hs]
    · split
      · simp [hs]
      · exact ih (by simp [hs]) _

@[simp] theorem finishSnaps_wfMem {s : State} (hs : WfMem s.mem) (tiles : List Nat) : WfMem (s.finishSnaps tiles).mem := by
  simp [State.finishSnaps, hs]

@[simp] theorem copyPage_wfMem {s : State} (hs : WfMem s.mem) (src dst : Nat) : WfMem (s.copyPage src dst).mem := by
  simp [State.copyPage, hs]

@[simp] theorem agentUnbacked_wfMem {s : State} (hs : WfMem s.mem) (p : Partition) (t pa : Nat) :
    WfMem (s.agentUnbacked p t pa).mem := by
  simp [State.agentUnbacked, hs]

@[simp] theorem zeroPage_wfMem {s : State} (hs : WfMem s.mem) (at_ : Nat) : WfMem (s.zeroPage at_).mem := by
  simp [State.zeroPage, hs]

@[simp] theorem spillOut_wfMem {s : State} (hs : WfMem s.mem) (p : Partition) (t j i : Nat) :
    WfMem (s.spillOut p t j i).mem := by
  simp only [State.spillOut]
  split <;> simp [hs]

@[simp] theorem spillPart_wfMem {s : State} (hs : WfMem s.mem) (n : Nat) : WfMem (s.spillPart n).mem := by
  simp only [State.spillPart, modPart_mem]
  refine foldl_wfMem (fun s t hs => by simpa using hs) _ (foldl_wfMem (fun s j hs => ?_) _ (by simp [hs]))
  exact foldl_wfMem (fun s i hs => spillOut_wfMem hs _ _ _ _) _ (by simpa using hs)

@[simp] theorem fillIn_wfMem {s : State} (hs : WfMem s.mem) (p : Partition) (t j i : Nat) : WfMem (s.fillIn p t j i).mem := by
  simp only [State.fillIn]
  split <;> simp [hs]

@[simp] theorem fillPart_wfMem {s : State} (hs : WfMem s.mem) (n : Nat) : WfMem (s.fillPart n).mem := by
  simp only [State.fillPart]
  refine foldl_wfMem (fun s t hs => foldl_wfMem (fun s b hs => ?_) _ hs) _ ?_
  · simpa using hs
  · rw [moveFlight_mem, modPart_mem, moveGangs_mem]
    refine foldl_wfMem (fun s j hs => ?_) _ hs
    rw [modCore_mem, moveClaims_mem]
    exact foldl_wfMem (fun s i hs => fillIn_wfMem hs _ _ _ _) _ hs

@[simp] theorem partCmd_wfMem {s : State} (hs : WfMem s.mem) (n cmd : Nat) : WfMem (s.partCmd n cmd).mem := by
  simp only [State.partCmd]
  split <;> simp [hs]

@[simp] theorem writePart_wfMem {s : State} (hs : WfMem s.mem) (n v : Nat) : WfMem (s.writePart n v).mem := by
  grind [State.writePart, modPart_mem, partChange_mem, partErr_mem, partCmd_wfMem]

@[simp] theorem dbgResumeAll_wfMem {s : State} (hs : WfMem s.mem) (c : Nat) : WfMem (s.dbgResumeAll c).mem := by
  unfold State.dbgResumeAll
  refine foldl_wfMem (fun s x hs => ?_) _ hs
  simp [hs]

@[simp] theorem writeDbgctl_wfMem {s : State} (hs : WfMem s.mem) (c v : Nat) : WfMem (s.writeDbgctl c v).mem := by
  simp only [State.writeDbgctl]
  (repeat' split) <;> simp -implicitDefEqProofs [hs]

@[simp] theorem logWord_wfMem {s : State} (hs : WfMem s.mem) (c a v : Nat) : WfMem (s.logWord c a v).mem := by
  simp only [State.logWord]
  split <;> simp [hs]

theorem logWords_wfMem {s : State} (hs : WfMem s.mem) (c : Nat) (ws : List Nat) {t : State} (h : s.logWords c ws = some t) :
    WfMem t.mem := by
  simp only [State.logWords] at h
  (repeat' split at h) <;> cases h <;> simp [hs]

@[simp] theorem closeGap_wfMem {s : State} (hs : WfMem s.mem) (c : Nat) : WfMem (s.closeGap c).mem := by
  grind [State.closeGap, logWords_wfMem, modCore_mem]

@[simp] theorem logOrLose_wfMem {s : State} (hs : WfMem s.mem) (c moment : Nat) (words : List Nat) :
    WfMem (s.logOrLose c moment words).mem := by
  grind [State.logOrLose, logWords_wfMem, modCore_mem]

@[simp] theorem writeLogctl_wfMem {s : State} (hs : WfMem s.mem) (c v : Nat) : WfMem (s.writeLogctl c v).mem := by
  simp only [State.writeLogctl]
  (repeat' split) <;> simp -implicitDefEqProofs [hs]

@[simp] theorem writeLogr_wfMem {s : State} (hs : WfMem s.mem) (c v : Nat) : WfMem (s.writeLogr c v).mem := by
  simp -implicitDefEqProofs [State.writeLogr, hs]

@[simp] theorem writeDbg_wfMem {s : State} (hs : WfMem s.mem) (c off v : Nat) : WfMem (s.writeDbg c off v).mem := by
  simp only [State.writeDbg]
  split <;> simp [hs]

@[simp] theorem measure_wfMem {s : State} (hs : WfMem s.mem) (hash : List Byte) (kind asid handle : Nat) :
    WfMem (s.measure hash kind asid handle).mem := by
  simp [State.measure, hs]

@[simp] theorem writeRow_wfMem {s : State} (hs : WfMem s.mem) (slice r v : Nat) : WfMem (s.writeRow slice r v).mem := by
  simp only [State.writeRow]
  (repeat' split) <;> simp [hs]

@[simp] theorem regWrite_wfMem {s : State} (hs : WfMem s.mem) (r : DevReg) (v : Nat) : WfMem (s.regWrite r v).mem := by
  simp only [State.regWrite]
  split <;> simp [hs]

@[simp] theorem regStore_wfMem {s : State} (hs : WfMem s.mem) (sp : RegSpace) (off : Nat) (cells : List (Nat × Byte))
    (scalar : Bool) :
    WfMem (s.regStore sp off cells scalar).mem := by
  unfold State.regStore
  refine foldl_wfMem (fun s x hs => ?_) _ hs
  split <;> simp [hs]

theorem writePlace_wfMem {s : State} (hs : WfMem s.mem) (i : Issuer) (p : Place) (cells : List (Nat × Byte)) (scalar : Bool)
    {t : State} (h : s.writePlace i p cells scalar = .ok t) :
    WfMem t.mem := by
  cases p <;> simp only [State.writePlace] at h <;> (repeat' split at h) <;> cases h <;> simp [hs, ownPortStore_mem]

@[simp] theorem storeTo_wfMem {s : State} (hs : WfMem s.mem) (w : Word) (b : BitVec 4) (o : BitVec 15) (size v : Nat) :
    WfMem (s.storeTo w b o size v).state.mem := by
  grind [State.storeTo, Res.state, accessTrap_wfMem, windowFault_wfMem, writePlace_wfMem]

@[simp] theorem vecLoad_wfMem {s : State} (hs : WfMem s.mem) (w : Word) (d : Reg) (b : BitVec 4) (k : Word) (o : BitVec 15) :
    WfMem (s.vecLoad w d b k o).state.mem := by
  simp only [State.vecLoad]
  split
  · simpa using hs
  · split
    · exact hs
    · split
      · exact accessTrap_wfMem hs _ _ _
      · split
        · exact accessTrap_wfMem hs _ _ _
        · split
          · exact accessTrap_wfMem hs _ _ _
          · exact hs
          · split
            next h => simpa [readPlace_mem _ _ _ _ _ h] using hs
            all_goals exact hs

@[simp] theorem vecStore_wfMem {s : State} (hs : WfMem s.mem) (w : Word) (d : Reg) (b : BitVec 4) (k : Word) (o : BitVec 15) :
    WfMem (s.vecStore w d b k o).state.mem := by
  grind [State.vecStore, Res.state, accessTrap_wfMem, writePlace_wfMem]

theorem atomic_wfMem {s : State} (hs : WfMem s.mem) (w : Word) (a : Dword) (size scope : Nat) (rl : Bool)
    {use : Nat → State → Res} (hu : ∀ n t, WfMem t.mem → WfMem (use n t).state.mem) :
    WfMem (s.atomic w a size scope rl use).state.mem := by
  simp only [State.atomic]
  split
  · exact accessTrap_wfMem hs _ _ _
  · exact hs
  · split
    · exact hs
    · split
      · split
        · exact hs
        · exact hu _ _ hs
      · split
        · exact hs
        · split
          · simpa using hs
          · exact hu _ _ (by simpa using hs)
      · exact hs

theorem atomicRead_wfMem {s : State} (hs : WfMem s.mem) (w : Word) (a : Dword) (size scope : Nat) (rl : Bool)
    {use : Nat → State → Res} (hu : ∀ n t, WfMem t.mem → WfMem (use n t).state.mem) :
    WfMem (s.atomicRead w a size scope rl use).state.mem := by
  simp only [State.atomicRead]
  split
  · exact hs
  · exact atomic_wfMem hs _ _ _ _ _ fun n t ht => hu _ _ (by simpa using ht)

@[simp] theorem atomicStore_wfMem {s : State} (hs : WfMem s.mem) (path loc size v : Nat) :
    WfMem (s.atomicStore path loc size v).mem := by
  grind [State.atomicStore, storeNat_wfMem, ownPortStore_mem]

@[simp] theorem amo_wfMem {s : State} (hs : WfMem s.mem) (w : Word) (op : AmoOp) (size : Nat) (d p t : Reg) (scope : BitVec 2)
    (rl : Bool) :
    WfMem (s.amo w op size d p t scope rl).state.mem := by
  simp only [State.amo]
  refine atomicRead_wfMem hs _ _ _ _ _ fun loc s hs => ?_
  (repeat' split) <;> simp [hs, setOld_mem]

@[simp] theorem cas_wfMem {s : State} (hs : WfMem s.mem) (w : Word) (size : Nat) (d p t : Reg) (scope : BitVec 2) (rl : Bool) :
    WfMem (s.cas w size d p t scope rl).state.mem := by
  simp only [State.cas]
  refine atomicRead_wfMem hs _ _ _ _ _ fun loc s hs => ?_
  (repeat' split) <;> simp [hs, setOld_mem]

@[simp] theorem loadReserve_wfMem {s : State} (hs : WfMem s.mem) (w : Word) (size : Nat) (d p : Reg) (scope : BitVec 2)
    (rl : Bool) :
    WfMem (s.loadReserve w size d p scope rl).state.mem := by
  simp only [State.loadReserve]
  refine atomicRead_wfMem hs _ _ _ _ _ fun loc s hs => ?_
  simpa [setOld_mem] using hs

@[simp] theorem storeCond_wfMem {s : State} (hs : WfMem s.mem) (w : Word) (size : Nat) (d p t : Reg) (scope : BitVec 2)
    (rl : Bool) :
    WfMem (s.storeCond w size d p t scope rl).state.mem := by
  simp only [State.storeCond]
  refine atomic_wfMem hs _ _ _ _ _ fun loc s hs => ?_
  (repeat' split) <;> simp [hs, setOld_mem]

@[simp] theorem drain_wfMem {s : State} (hs : WfMem s.mem) : WfMem (s.drain).mem := by
  simp [State.drain, hs]

theorem onCell_wfMem {s : State} (hs : WfMem s.mem) (w : Word) (c : Dword) {use : Nat → State → Res}
    (hu : ∀ n t, WfMem t.mem → WfMem (use n t).state.mem) : WfMem (s.onCell w c use).state.mem := by
  grind [State.onCell, Res.state, accessTrap_wfMem, touchTlb_mem, loseOthers_mem]

@[simp] theorem wakeCell_wfMem {s : State} (hs : WfMem s.mem) (loc : Nat) (v : Dword) : WfMem (s.wakeCell loc v).mem := by
  simp -implicitDefEqProofs [State.wakeCell, hs]

@[simp] theorem futurePut_wfMem {s : State} (hs : WfMem s.mem) (loc : Nat) (v : Dword) : WfMem (s.futurePut loc v).1.mem := by
  grind [State.futurePut, storeNat_wfMem, wakeCell_wfMem]

@[simp] theorem parkFuture_wfMem {s : State} (hs : WfMem s.mem) (loc pa : Nat) : WfMem (s.parkFuture loc pa).mem := by
  simp only [State.parkFuture]
  (repeat' split) <;> simp [hs]

@[simp] theorem gather_wfMem {s : State} (hs : WfMem s.mem) (w : Word) (d p b : Reg) (k : Word) (y : BitVec 3) :
    WfMem (s.gather w d p b k y).state.mem := by
  grind [State.gather, Res.state, vput_mem, accessTrap_wfMem, readLanes_mem, countRead_mem]

theorem writeLanes_wfMem {s : State} (hs : WfMem s.mem) (w : Nat) (v : Vec) (l : List LanePlace) {t : State}
    (h : s.writeLanes w v l = .ok t) :
    WfMem t.mem := by
  induction l generalizing s with
  | nil =>
    cases h
    exact hs
  | cons e rest ih =>
    simp only [State.writeLanes] at h
    split at h
    next u hu =>
      refine ih ?_ h
      split at hu
      · split at hu <;> cases hu
        simp [hs]
      · exact writePlace_wfMem hs _ _ _ _ hu
    next hn => exact absurd h (hn t)

@[simp] theorem scatter_wfMem {s : State} (hs : WfMem s.mem) (w : Word) (d p b : Reg) (k : Word) (y : BitVec 3) :
    WfMem (s.scatter w d p b k y).state.mem := by
  grind [State.scatter, Res.state, accessTrap_wfMem, writeLanes_wfMem]

@[simp] theorem rowTrap_wfMem {s : State} (hs : WfMem s.mem) (w : Word) (code off : Nat) :
    WfMem (s.rowTrap w code off).state.mem := by
  simp [State.rowTrap, hs]

@[simp] theorem matrixProduct_wfMem {s : State} (hs : WfMem s.mem) (w : Word) (op : MatrixOp) (a t : Reg)
    (refuses : MatrixCmd → Nat → Nat → Nat) (rows : MatrixCmd → Nat) :
    WfMem (s.matrixProduct w op a t refuses rows).state.mem := by
  simp only [State.matrixProduct]
  (repeat' split) <;> simp [matrixTrap, hs]

@[simp] theorem claimFill_wfMem {s : State} (hs : WfMem s.mem) (src : FillSrc) (n : Nat) :
    WfMem (s.claimFill src n).state.mem := by
  simp only [State.claimFill]
  split <;> simp [hs]

@[simp] theorem moverGo_wfMem {s : State} (hs : WfMem s.mem) (w : Word) (d a : Reg) (red : Bool) :
    WfMem (s.moverGo w d a red).state.mem := by
  simp only [State.moverGo]
  (repeat' split) <;> simp [hs]

@[simp] theorem sendMessage_wfMem {s : State} (hs : WfMem s.mem) (w : Word) (rd : Reg) (d c : Word) (blocks : Bool) :
    WfMem (s.sendMessage w rd d c blocks).state.mem := by
  simp only [State.sendMessage]
  (repeat' split) <;> simp [hs]

@[simp] theorem requeue_wfMem {s : State} (hs : WfMem s.mem) (c : Nat) (m : Message) : WfMem (s.requeue c m).mem := by
  unfold State.requeue
  refine foldl_wfMem (fun s x hs => ?_) _ hs
  simp [hs]

@[simp] theorem unloadShadow_wfMem {s : State} (hs : WfMem s.mem) (c n : Nat) : WfMem (s.unloadShadow c n).mem := by
  simp only [State.unloadShadow]
  split <;> simp [hs]

@[simp] theorem unboundRecord_wfMem {s : State} (hs : WfMem s.mem) (c : Nat) (m : Message) :
    WfMem (s.unboundRecord c m).mem := by
  simp [State.unboundRecord, hs]

@[simp] theorem holdMessage_wfMem {s : State} (hs : WfMem s.mem) (c : Nat) (m : Message) : WfMem (s.holdMessage c m).mem := by
  simp only [State.holdMessage]
  split <;> simp [hs]

@[simp] theorem startLoaded_wfMem {s : State} (hs : WfMem s.mem) (c n : Nat) : WfMem (s.startLoaded c n).mem := by
  simp only [State.startLoaded]
  (repeat' split) <;> simp [hs]

@[simp] theorem swapBank_wfMem {s : State} (hs : WfMem s.mem) (c n : Nat) : WfMem (s.swapBank c n).mem := by
  simp [State.swapBank, hs]

@[simp] theorem leaveWith_wfMem {s : State} (hs : WfMem s.mem) (l : List Successor) : WfMem (s.leaveWith l).mem := by
  simp only [State.leaveWith]
  refine swapBank_wfMem (endThread_wfMem ?_ _ _ _) _ _
  simp [hs]

theorem pend_wfMem {s : State} (hs : WfMem s.mem) (c : Nat) (m : Message) {t : State} (h : s.pend c m = some t) :
    WfMem t.mem := by
  simp only [State.pend] at h
  (repeat' split at h) <;> cases h <;> simp -implicitDefEqProofs [hs]

@[simp] theorem releaseHeld_wfMem {s : State} (hs : WfMem s.mem) (c tag : Nat) : WfMem (s.releaseHeld c tag).mem := by
  unfold State.releaseHeld
  refine foldl_wfMem (fun s m hs => ?_) _ hs
  split
  next t h => simpa using pend_wfMem hs _ _ h
  next => exact hs

@[simp] theorem unpend_wfMem {s : State} (hs : WfMem s.mem) (c tag : Nat) : WfMem (s.unpend c tag).mem := by
  unfold State.unpend
  refine refillRing_wfMem (syncRing_wfMem (foldl_wfMem (fun s m hs => holdMessage_wfMem hs _ _) _ ?_) _) _
  simpa using hs

@[simp] theorem storeUnder_wfMem {s : State} (hs : WfMem s.mem) (a : Nat) (bs : List Byte) : WfMem (s.storeUnder a bs).mem := by
  simp [State.storeUnder, hs]

@[simp] theorem mbFetch_wfMem {s : State} (hs : WfMem s.mem) (n len fuel : Nat) : WfMem (s.mbFetch n len fuel).2.mem := by
  induction fuel generalizing s with
  | zero => exact hs
  | succ fuel ih =>
    simp only [State.mbFetch]
    split
    · exact hs
    · split
      · exact hs
      · exact ih (mbBad_wfMem hs _ _ _)

@[simp] theorem mbRead_wfMem {s : State} (hs : WfMem s.mem) (n len : Nat) : WfMem (s.mbRead n len).2.mem := by
  simp [State.mbRead, hs]

@[simp] theorem noStream_wfMem {s : State} (hs : WfMem s.mem) (w : Word) (n : Nat) : WfMem (s.noStream w n).state.mem := by
  simp [State.noStream, hs]

@[simp] theorem seize_wfMem {s : State} (hs : WfMem s.mem) (p : Nat) (payload : List Word) : WfMem (s.seize p payload).mem := by
  unfold State.seize
  refine foldl_wfMem (fun s x hs => ?_) _ (by simp -implicitDefEqProofs [hs])
  (repeat' split) <;> simp -implicitDefEqProofs [hs]

@[simp] theorem giveBack_wfMem {s : State} (hs : WfMem s.mem) (p t : Nat) : WfMem (s.giveBack p t).mem := by
  simp only [State.giveBack]
  split <;> simp [hs]

@[simp] theorem releaseGust_wfMem {s : State} (hs : WfMem s.mem) (p : Nat) : WfMem (s.releaseGust p).mem := by
  simp [State.releaseGust, hs]

theorem lineOp_wfMem {s : State} (hs : WfMem s.mem) (d p : Reg) (owned frames : Bool) {op : State → Nat → Nat → State × Word}
    (ho : ∀ t n key, WfMem t.mem → WfMem (op t n key).1.mem) : WfMem (s.lineOp d p owned frames op).state.mem := by
  simp only [State.lineOp]
  split
  · simp [hs]
  · rw [retX_mem]
    exact ho _ _ _ (drain_wfMem hs)

@[simp] theorem fillLine_wfMem {s : State} (hs : WfMem s.mem) (n key : Nat) (data : Option (List Byte)) (dirty : Bool) :
    WfMem (s.fillLine n key data dirty).1.mem := by
  simp only [State.fillLine]
  (repeat' split) <;> simp [hs]

@[simp] theorem discardLine_wfMem {s : State} (hs : WfMem s.mem) (n key : Nat) (wb : Bool) :
    WfMem (s.discardLine n key wb).1.mem := by
  simp only [State.discardLine]
  (repeat' split) <;> simp [hs]

@[simp] theorem launchGang_wfMem {s : State} (hs : WfMem s.mem) (w : Word) (d p : Reg) :
    WfMem (s.launchGang w d p).state.mem := by
  grind [State.launchGang, Res.state, accessTrap_wfMem, windowFault_wfMem, readLanes_mem, retX_mem, modTh_mem]

theorem acceptAgent_wfMem {s : State} (hs : WfMem s.mem) (c : Nat) (m : Message) {t : State} (h : s.acceptAgent c m = some t) :
    WfMem t.mem := by
  simp only [State.acceptAgent] at h
  split at h
  · cases h
    simp [hs]
  · obtain ⟨u, hu, rfl⟩ := Option.map_eq_some_iff.mp h
    rw [returnCredit_mem, queueWork_mem _ _ _ hu]
    exact hs

theorem accept_wfMem {s : State} (hs : WfMem s.mem) (c : Nat) (m : Message) {t : State} (h : s.accept c m = some t) :
    WfMem t.mem := by
  simp only [State.accept] at h
  split at h
  · cases h
    simp [hs]
  · split at h
    · cases h
      simp [hs]
    · split at h
      · cases h
        simp [hs]
      · obtain ⟨u, hu, rfl⟩ := Option.map_eq_some_iff.mp h
        rw [returnCredit_mem]
        exact pend_wfMem hs _ _ hu

theorem acceptTile_wfMem {s : State} (hs : WfMem s.mem) (c : Nat) (m : Message) {t : State} (h : s.acceptTile c m = some t) :
    WfMem t.mem := by
  grind [State.acceptTile, returnCredit_mem, record_wfMem, releaseHeld_wfMem, accept_wfMem]

theorem acceptAt_wfMem {s : State} (hs : WfMem s.mem) (c : Nat) (m : Message) {t : State} (h : s.acceptAt c m = some t) :
    WfMem t.mem := by
  unfold State.acceptAt at h
  split at h
  · exact acceptAgent_wfMem hs _ _ h
  · exact acceptTile_wfMem hs _ _ h

@[simp] theorem deliver_wfMem {s : State} (hs : WfMem s.mem) (c : Nat) (m : Message) : WfMem (s.deliver c m).mem := by
  unfold State.deliver
  exact ite_wfMem (getD_wfMem (fun _ h => acceptAt_wfMem hs _ _ h) hs) hs

@[simp] theorem arrive_wfMem {s : State} (hs : WfMem s.mem) (i : Nat) : WfMem (s.arrive i).mem := by
  simp only [State.arrive]
  (repeat' split) <;> simp [hs]

@[simp] theorem takeInbox_wfMem {s : State} (hs : WfMem s.mem) (c : Nat) : WfMem (s.takeInbox c).mem := by
  unfold State.takeInbox
  split
  · exact hs
  · exact getD_wfMem (fun _ h => acceptAt_wfMem (by simpa using hs) _ _ h) hs

@[simp] theorem dispatchWork_wfMem {s : State} (hs : WfMem s.mem) (n : Nat) : WfMem (s.dispatchWork n).mem := by
  simp only [State.dispatchWork]
  (repeat' split) <;> simp -implicitDefEqProofs [hs]

@[simp] theorem unqueue_wfMem {s : State} (hs : WfMem s.mem) (c i : Nat) : WfMem (s.unqueue c i).mem := by
  simp -implicitDefEqProofs [State.unqueue, hs]

@[simp] theorem dispatch_wfMem {s : State} (hs : WfMem s.mem) (c : Nat) : WfMem (s.dispatch c).mem := by
  simp only [State.dispatch]
  (repeat' split) <;> simp [hs]

@[simp] theorem rejectGang_wfMem {s : State} (hs : WfMem s.mem) (name : Nat) (asid : BitVec 16) (reason : Nat) :
    WfMem (s.rejectGang name asid reason).mem := by
  simp [State.rejectGang, hs]

@[simp] theorem acceptGang_wfMem {s : State} (hs : WfMem s.mem) : WfMem (s.acceptGang).mem := by
  simp only [State.acceptGang]
  split <;> simp [hs]

@[simp] theorem placeClass_wfMem {s : State} (hs : WfMem s.mem) (l : List Nat) : WfMem (s.placeClass l).mem := by
  induction l generalizing s with
  | nil => exact hs
  | cons no rest ih =>
    simp only [State.placeClass]
    split
    · exact ih hs
    · split
      · exact hs
      · split
        · simp [hs]
        · exact ih (ite_wfMem (by simp [hs]) (by simp [hs]))

@[simp] theorem placementPass_wfMem {s : State} (hs : WfMem s.mem) : WfMem (s.placementPass).mem := by
  grind [State.placementPass, placeClass_wfMem]

@[simp] theorem resizeL1_wfMem {s : State} (hs : WfMem s.mem) (c : Nat) : WfMem (s.resizeL1 c).mem := by
  simp only [State.resizeL1]
  split <;> simp [hs]

@[simp] theorem xlatRecord_wfMem {s : State} (hs : WfMem s.mem) (c n : Nat) (w : Walk) (k : XlatKind) (level : Nat) :
    WfMem (s.xlatRecord c n w k level).mem := by
  simp [State.xlatRecord, hs]

@[simp] theorem walked_wfMem {s : State} (hs : WfMem s.mem) (c n : Nat) : WfMem (s.walked c n).mem := by
  grind [State.walked, performWalk_wfMem, modThread_mem, xlatRecord_wfMem, stopPoint_wfMem]

@[simp] theorem haltMover_wfMem {s : State} (hs : WfMem s.mem) (c chan : Nat) (m : MoverCmd) (i : Issuer) (w : Walk)
    (k : XlatKind) (level : Nat) :
    WfMem (s.haltMover c chan m i w k level).mem := by
  simp [State.haltMover, hs]

@[simp] theorem chanWalked_wfMem {s : State} (hs : WfMem s.mem) (c chan : Nat) : WfMem (s.chanWalked c chan).mem := by
  grind [State.chanWalked, performWalk_wfMem, modCx_mem, haltMover_wfMem]

@[simp] theorem prefetchWalked_wfMem {s : State} (hs : WfMem s.mem) (c : Nat) (p : Prefetch) :
    WfMem (s.prefetchWalked c p).mem := by
  grind [State.prefetchWalked, modCore_mem, performWalk_wfMem, fetchLine_mem]

@[simp] theorem walkEnded_wfMem {s : State} (hs : WfMem s.mem) (r : WalkReq) : WfMem (s.walkEnded r).mem := by
  unfold State.walkEnded
  refine foldl_wfMem (fun s p hs => prefetchWalked_wfMem hs _ _) _ ?_
  refine foldl_wfMem (fun s n hs => chanWalked_wfMem hs _ _) _ ?_
  exact foldl_wfMem (fun s n hs => walked_wfMem hs _ _) _ hs

@[simp] theorem endRequest_wfMem {s : State} (hs : WfMem s.mem) (r : WalkReq) : WfMem (s.endRequest r).mem := by
  simp [State.endRequest, hs]

@[simp] theorem endWalk_wfMem {s : State} (hs : WfMem s.mem) (c n : Nat) : WfMem (s.endWalk c n).mem := by
  simp only [State.endWalk]
  (repeat' split) <;> simp [hs]

@[simp] theorem answerThread_wfMem {s : State} (hs : WfMem s.mem) (c n : Nat) (a : FaultAnswer) :
    WfMem (s.answerThread c n a).mem := by
  grind [State.answerThread, modTenantCtx_mem, settleFault_wfMem, stopPoint_wfMem, gustOver_wfMem]

@[simp] theorem moverRecord_wfMem {s : State} (hs : WfMem s.mem) (m : MoverCmd) (i : Issuer) (chan err : Nat) :
    WfMem (s.moverRecord m i chan err).mem := by
  simp [State.moverRecord, hs]

@[simp] theorem answerChannel_wfMem {s : State} (hs : WfMem s.mem) (c ch : Nat) (a : FaultAnswer) :
    WfMem (s.answerChannel c ch a).mem := by
  simp only [State.answerChannel]
  split <;> simp [hs]

@[simp] theorem answerFault_wfMem {s : State} (hs : WfMem s.mem) (t : FaultTarget) (a : FaultAnswer) :
    WfMem (s.answerFault t a).mem := by
  simp only [State.answerFault]
  split <;> simp [hs]

@[simp] theorem takeRecord_wfMem {s : State} (hs : WfMem s.mem) (n : Nat) (r : Record) : WfMem (s.takeRecord n r).mem := by
  simp only [State.takeRecord]
  (repeat' split) <;> simp [hs]

@[simp] theorem commitIngest_wfMem {s : State} (hs : WfMem s.mem) (n : Nat) : WfMem (s.commitIngest n).mem := by
  simp only [State.commitIngest]
  split <;> simp [hs]

@[simp] theorem ingestWrite_wfMem {s : State} (hs : WfMem s.mem) (stream off : Nat) (bs : List Byte) :
    WfMem (s.ingestWrite stream off bs).mem := by
  simp [State.ingestWrite, hs]

@[simp] theorem barWrite_wfMem {s : State} (hs : WfMem s.mem) (o : Nat) (bs : List Byte) : WfMem (s.barWrite o bs).mem := by
  simp only [State.barWrite]
  split <;> simp [hs]

@[simp] theorem barAccess_wfMem {s : State} (hs : WfMem s.mem) (o : Nat) (op : HostOp) : WfMem (s.barAccess o op).mem := by
  simp only [State.barAccess]
  split <;> simp [hs]

@[simp] theorem portRecord_wfMem {s : State} (hs : WfMem s.mem) (pa : Nat) : WfMem (s.portRecord pa).mem := by
  simp [State.portRecord, hs]

@[simp] theorem memoryAccess_wfMem {s : State} (hs : WfMem s.mem) (pa : Nat) (op : HostOp) :
    WfMem (s.memoryAccess pa op).mem := by
  simp only [State.memoryAccess]
  (repeat' split) <;> simp -implicitDefEqProofs [hs]

@[simp] theorem hostAccess_wfMem {s : State} (hs : WfMem s.mem) (a : HostAccess) : WfMem (s.hostAccess a).mem := by
  simp only [State.hostAccess]
  (repeat' split) <;> simp [hs]

@[simp] theorem creditFlags_wfMem {s : State} (hs : WfMem s.mem) (c slot : Nat) (ctx : Word) (asid : BitVec 16) (a : Bool)
    (serial : Word) (f : FlagSet) :
    WfMem (s.creditFlags c slot ctx asid a serial f).mem := by
  simp only [State.creditFlags]
  (repeat' split) <;> simp [hs]

@[simp] theorem matrixFlags_wfMem {s : State} (hs : WfMem s.mem) (c : Nat) (m : MatrixCmd) (f : FlagSet) :
    WfMem (s.matrixFlags c m f).mem := by
  simp [State.matrixFlags, hs]

@[simp] theorem runMst_wfMem {s : State} (hs : WfMem s.mem) (c : Nat) (m : MatrixCmd) : WfMem (s.runMst c m).mem := by
  unfold State.runMst
  refine foldl_wfMem (fun s x hs => ?_) _ hs
  simp [hs]

@[simp] theorem runMrd_wfMem {s : State} (hs : WfMem s.mem) (c : Nat) (m : MatrixCmd) (vd row block : Nat) (narrow : Bool) :
    WfMem (s.runMrd c m vd row block narrow).mem := by
  simp -implicitDefEqProofs [State.runMrd, hs]

@[simp] theorem runMatrix_wfMem {s : State} (hs : WfMem s.mem) (c : Nat) (m : MatrixCmd) : WfMem (s.runMatrix c m).1.mem := by
  simp only [State.runMatrix]
  split <;> simp [hs]

@[simp] theorem matrixDone_wfMem {s : State} (hs : WfMem s.mem) (c : Nat) : WfMem (s.matrixDone c).mem := by
  simp only [State.matrixDone]
  (repeat' split) <;> simp [hs]

@[simp] theorem copySram_wfMem {s : State} (hs : WfMem s.mem) (src dst n : Nat) : WfMem (s.copySram src dst n).mem := by
  simp [State.copySram, hs]

@[simp] theorem fillFrom_wfMem {s : State} (hs : WfMem s.mem) (c : Nat) (f : Fill) (slot reg fuel : Nat) :
    WfMem (s.fillFrom c f slot reg fuel).mem := by
  induction fuel generalizing s f with
  | zero => exact hs
  | succ fuel ih =>
    simp only [State.fillFrom]
    split
    · simp [hs]
    · split
      · exact ih (by simp [hs]) _
      · simp [hs]
      · exact hs

@[simp] theorem fillStep_wfMem {s : State} (hs : WfMem s.mem) (c buf : Nat) : WfMem (s.fillStep c buf).mem := by
  simp only [State.fillStep]
  (repeat' split) <;> simp [hs]

@[simp] theorem handoffStart_wfMem {s : State} (hs : WfMem s.mem) (c : Nat) : WfMem (s.handoffStart c).mem := by
  simp only [State.handoffStart]
  (repeat' split) <;> simp [hs]

@[simp] theorem handoffEnd_wfMem {s : State} (hs : WfMem s.mem) (c : Nat) : WfMem (s.handoffEnd c).mem := by
  simp only [State.handoffEnd]
  split <;> simp [hs]

@[simp] theorem stopMover_wfMem {s : State} (hs : WfMem s.mem) (c chan err : Nat) (m : MoverCmd) (i : Issuer) :
    WfMem (s.stopMover c chan err m i).mem := by
  simp [State.stopMover, hs]

theorem elemAdd_wfMem {s : State} (hs : WfMem s.mem) (m : MoverCmd) (i : Issuer) (a : Dword) (bs : List Byte) {t : State} {fl}
    (h : s.elemAdd m i a bs = .inl (t, fl)) :
    WfMem t.mem := by
  simp only [State.elemAdd] at h
  split at h
  · split at h
    · cases h
    · obtain rfl := congrArg Prod.fst (Sum.inl.inj h)
      exact foldl_fst_wfMem (fun p j hp => storeNat_wfMem hp _ _ _) _ hs
  · cases h
  · cases h

theorem elemWrite_wfMem {s : State} (hs : WfMem s.mem) (m : MoverCmd) (i : Issuer) (a : Dword) (bs : List Byte) {t : State}
    {fl : FlagSet} (h : s.elemWrite m i a bs = .inl (t, fl)) :
    WfMem t.mem := by
  simp only [State.elemWrite] at h
  (repeat' split at h) <;> cases h <;> simp [hs]

@[simp] theorem countRun_wfMem {s : State} (hs : WfMem s.mem) (m : MoverCmd) (i : Issuer) (a : Dword) (n : Nat) :
    WfMem (s.countRun m i a n).mem := by
  simp only [State.countRun]
  (repeat' split) <;> simp [hs]

@[simp] theorem countBytes_wfMem {s : State} (hs : WfMem s.mem) (m : MoverCmd) (i : Issuer) (a : Dword) (n : Nat) :
    WfMem (s.countBytes m i a n).mem := by
  simp [State.countBytes, hs]

theorem elemPut_wfMem {s : State} (hs : WfMem s.mem) (m : MoverCmd) (i : Issuer) (j : Nat) (bs : List Byte) {t : State}
    (h : s.elemPut m i j bs = .inl t) :
    WfMem t.mem := by
  simp only [State.elemPut] at h
  split at h
  · cases h
  · split at h
    · cases h
    next u f hu =>
      have hw : WfMem u.mem := by
        split at hu
        · exact elemAdd_wfMem hs _ _ _ _ hu
        · exact elemWrite_wfMem hs _ _ _ _ hu
      cases h
      exact creditFlags_wfMem (countBytes_wfMem (by simpa using hw) _ _ _ _) _ _ _ _ _ _ _

@[simp] theorem moverStep_wfMem {s : State} (hs : WfMem s.mem) (c chan : Nat) : WfMem (s.moverStep c chan).mem := by
  simp only [State.moverStep]
  (repeat' split) <;> grind [elemPut_wfMem, touchSource_mem, stopMover_wfMem, awaitElem_mem, elemDone_mem, moverNext_mem, modCx_mem,
    creditFlags_wfMem, streamDrained_mem, pm_mem]

@[simp] theorem moverTurn_wfMem {s : State} (hs : WfMem s.mem) (c chan : Nat) : WfMem (s.moverTurn c chan).mem := by
  simp only [State.moverTurn]
  split <;> simp [hs]

@[simp] theorem squallReport_wfMem {s : State} (hs : WfMem s.mem) (f : Finding) : WfMem (s.squallReport f).mem := by
  simp [State.squallReport, hs]

@[simp] theorem squallScan_wfMem {s : State} (hs : WfMem s.mem) : WfMem (s.squallScan).mem := by
  simp only [State.squallScan]
  split <;> simp [hs]

@[simp] theorem fire_wfMem {s : State} (hs : WfMem s.mem) (c : Nat) (m : Message) (replaces : Bool) :
    WfMem (s.fire c m replaces).mem := by
  simp -implicitDefEqProofs [State.fire, hs]

@[simp] theorem tickFire_wfMem {s : State} (hs : WfMem s.mem) (e : Nat) : WfMem (s.tickFire e).mem := by
  simp [State.tickFire, hs]

@[simp] theorem snapDone_wfMem {s : State} (hs : WfMem s.mem) (i : Nat) : WfMem (s.snapDone i).mem := by
  simp only [State.snapDone]
  split <;> simp [hs]

@[simp] theorem startGust_wfMem {s : State} (hs : WfMem s.mem) (c p m : Nat) : WfMem (s.startGust c p m).mem := by
  simp [State.startGust, hs]

@[simp] theorem relocate_wfMem {s : State} (hs : WfMem s.mem) (c d : Nat) : WfMem (s.relocate c d).mem := by
  unfold State.relocate
  refine foldl_wfMem (fun s b hs => by simpa using hs) _ (goOnAll_wfMem (syncRing_wfMem (loadTile_wfMem ?_ _) _) _ _)
  rw [moveClaims_mem, moveFlight_mem, moveGangs_mem, modCore_mem, modCore_mem]
  exact foldl_wfMem (fun s o hs => copyPage_wfMem hs _ _) _ (finishSnaps_wfMem hs _)

@[simp] theorem flushKeeps_wfMem {s : State} (hs : WfMem s.mem) : WfMem s.flushKeeps.mem := by
  unfold State.flushKeeps
  refine foldl_wfMem (fun s k hs => ?_) _ hs
  simp only
  split
  · exact store_wfMem hs _ _
  · exact hs

@[simp] theorem decodeFire_wfMem {s : State} (hs : WfMem s.mem) (i : Nat) (n : ℤ) (late : Bool) (skipped : Nat) :
    WfMem (s.decodeFire i n late skipped).mem := by
  simp [State.decodeFire, hs]

@[simp] theorem refuse_wfMem {s : State} (hs : WfMem s.mem) (r : ServiceReq) (reason : Nat) :
    WfMem (s.refuse r reason).mem := by
  simp [State.refuse, hs]

@[simp] theorem stepService_wfMem {s : State} (hs : WfMem s.mem) (r : ServiceReq) : WfMem (s.stepService r).mem := by
  simp only [State.stepService]
  (repeat' split) <;> simp [hs]

@[simp] theorem unitLoc_wfMem {s : State} (hs : WfMem s.mem) (c : Nat) (asid : BitVec 16) (path va : Nat) (kind : AccessKind) :
    WfMem (s.unitLoc c asid path va kind).1.mem := by
  grind [State.unitLoc, touchTlb_mem, performWalk_wfMem]

@[simp] theorem feLoc_wfMem {s : State} (hs : WfMem s.mem) (asid : BitVec 16) (path va : Nat) (kind : AccessKind) :
    WfMem (s.feLoc asid path va kind).1.mem := by
  simp [State.feLoc, hs]

@[simp] theorem futLoc_wfMem {s : State} (hs : WfMem s.mem) (fut : Nat) : WfMem (s.futLoc fut).1.mem := by
  simp only [State.futLoc]
  split <;> simp [hs]

@[simp] theorem feLocs_wfMem {s : State} (hs : WfMem s.mem) (asid : BitVec 16) (path va : Nat) (kind : AccessKind) (n : Nat) :
    WfMem (s.feLocs asid path va kind n).1.mem := by
  induction n generalizing s va with
  | zero => exact hs
  | succ n ih =>
    simp only [State.feLocs]
    split
    next h => exact fst_wfMem h (feLoc_wfMem hs _ _ _ _)
    next h =>
      have hu := fst_wfMem h (feLoc_wfMem hs _ _ _ _)
      split
      all_goals
        next h' => exact fst_wfMem h' (ih hu _)

@[simp] theorem feRead_wfMem {s : State} (hs : WfMem s.mem) (asid : BitVec 16) (path va n : Nat) :
    WfMem (s.feRead asid path va n).1.mem := by
  grind [State.feRead, feLocs_wfMem]

@[simp] theorem genRead_wfMem {s : State} (hs : WfMem s.mem) (off n : Nat) : WfMem (s.genRead off n).1.mem := by
  grind [State.genRead, feRead_wfMem]

@[simp] theorem readSeq_wfMem {s : State} (hs : WfMem s.mem) (i : Nat) : WfMem (s.readSeq i).1.mem := by
  simp [State.readSeq, hs]

@[simp] theorem feWrite_wfMem {s : State} (hs : WfMem s.mem) (asid : BitVec 16) (path va : Nat) (bs : List Byte) :
    WfMem (s.feWrite asid path va bs).mem := by
  grind [State.feWrite, feLocs_wfMem, storeCells_wfMem]

@[simp] theorem genWrite_wfMem {s : State} (hs : WfMem s.mem) (off n v : Nat) : WfMem (s.genWrite off n v).mem := by
  simp [State.genWrite, hs]

@[simp] theorem bumpHeader_wfMem {s : State} (hs : WfMem s.mem) (off : Nat) : WfMem (s.bumpHeader off).mem := by
  simp [State.bumpHeader, hs]

@[simp] theorem settleSeq_wfMem {s : State} (hs : WfMem s.mem) (i : Nat) : WfMem (s.settleSeq i).1.mem := by
  grind [State.settleSeq, readSeq_wfMem, futLoc_wfMem, genWrite_wfMem, bumpHeader_wfMem, genRead_wfMem, feRecord_wfMem]

@[simp] theorem setSeq_wfMem {s : State} (hs : WfMem s.mem) (v : SeqView) (st : Nat) : WfMem (s.setSeq v st).mem := by
  simp [State.setSeq, hs]

@[simp] theorem sampleSeq_wfMem {s : State} (hs : WfMem s.mem) (forced : FMap Nat) (i : Nat) :
    WfMem (s.sampleSeq forced i).1.mem := by
  simp only [State.sampleSeq]
  (repeat' split) <;> simp [hs]

@[simp] theorem submitStep_wfMem {s : State} (hs : WfMem s.mem) (step : Nat) (batch : List SeqView) :
    WfMem (s.submitStep step batch).mem := by
  unfold State.submitStep
  extract_lets n s1 s2 s3 s4 s5 s6 s7 used s8 s9
  have h2 : WfMem s2.mem := genWrite_wfMem (genWrite_wfMem (genWrite_wfMem hs _ _ _) _ _ _) _ _ _
  have h3 : WfMem s3.mem := foldl_wfMem (fun s _ hs => genWrite_wfMem hs _ _ _) _ h2
  have h4 : WfMem s4.mem := foldl_wfMem (fun s _ hs => genWrite_wfMem hs _ _ _) _ h3
  have h5 : WfMem s5.mem := foldl_wfMem (fun s _ hs => genWrite_wfMem hs _ _ _) _ h4
  have h7 : WfMem s7.mem := foldl_wfMem (fun s _ hs => genWrite_wfMem hs _ _ _) _ (genWrite_wfMem h5 _ _ _)
  have h8 : WfMem s8.mem := by
    refine foldl_wfMem (fun s v hs => ?_) _ h7
    split
    all_goals
      next h =>
        have ht := fst_wfMem h (futLoc_wfMem hs _)
        simp [ht]
  split
  · exact h8
  · refine genRead_wfMem ?_ _ _
    exact h8

@[simp] theorem stepBoundary_wfMem {s : State} (hs : WfMem s.mem) : WfMem s.stepBoundary.mem := by
  unfold State.stepBoundary
  generalize List.range 2048 = all
  split
  · exact hs
  · split
    · exact hs
    · extract_lets r classes q t step
      have hr : WfMem r.1.mem := by
        refine foldl_fst_wfMem (fun p i hp => ?_) _ hs
        split
        all_goals
          next h => exact fst_wfMem h (settleSeq_wfMem hp _)
      have hq : WfMem q.1.mem := by
        refine foldl_fst_wfMem (fun p i hp => ?_) _ hr
        exact sampleSeq_wfMem hp _ _
      have hb : WfMem t.mem := by simpa [t] using hq
      exact submitStep_wfMem (genRead_wfMem hb _ _) _ _

@[simp] theorem runLocs_wfMem {s : State} (hs : WfMem s.mem) (c : Nat) (asid : BitVec 16) (va : Nat) (kind : AccessKind)
    (l : List (Nat × Nat)) :
    WfMem (s.runLocs c asid va kind l).1.mem := by
  induction l generalizing s with
  | nil => exact hs
  | cons e rest ih =>
    simp only [State.runLocs]
    split
    next h => exact fst_wfMem h (unitLoc_wfMem hs _ _ _ _ _)
    next h =>
      have hu := fst_wfMem h (unitLoc_wfMem hs _ _ _ _ _)
      split
      all_goals
        next h' => exact fst_wfMem h' (ih hu)

/-- A piece of a loader program keeps the form of memory, whether it moves its bytes or is skipped. -/
theorem runPiece_wfMem {s : State} (hs : WfMem s.mem) (slice : Nat) (asid : BitVec 16) (d : LoadDesc) (off : Nat) {t : State} :
    (∀ {n}, s.runPiece slice asid d off = .moved n t → WfMem t.mem) ∧
      (s.runPiece slice asid d off = .skipped t → WfMem t.mem) := by
  have skips {u : State} (hu : WfMem u.mem) :
      (∀ {n}, Loaded.skipped u = .moved n t → WfMem t.mem) ∧ (Loaded.skipped u = .skipped t → WfMem t.mem) :=
    ⟨fun h => (nomatch h), fun h => Loaded.skipped.inj h ▸ hu⟩
  have moves {k : Nat} {u : State} (hu : WfMem u.mem) :
      (∀ {n}, Loaded.moved k u = .moved n t → WfMem t.mem) ∧ (Loaded.moved k u = .skipped t → WfMem t.mem) :=
    ⟨fun h => (Loaded.moved.inj h).2 ▸ hu, fun h => nomatch h⟩
  simp only [State.runPiece]
  split
  · exact skips hs
  · split
    · exact skips hs
    · split
      · exact ⟨fun h => (nomatch h), fun h => nomatch h⟩
      · split
        · exact skips hs
        · split
          next h => exact skips (fst_wfMem h (runLocs_wfMem hs _ _ _ _ _))
          next u l h =>
            have hu := fst_wfMem h (runLocs_wfMem hs _ _ _ _ _)
            have copied (at_ : State → Nat × Nat × Nat → Nat) (bs : State → Nat × Nat × Nat → List Byte) :
                WfMem (l.foldl (fun s e => s.store (at_ s e) (bs s e)) u).mem :=
              foldl_wfMem (fun s e hs => store_wfMem hs _ _) _ hu
            split <;> split
            · exact skips hu
            · exact moves (ite_wfMem (copied _ _) (addTileCounter_wfMem (copied _ _) _ _ _))
            · exact skips hu
            · exact moves (ite_wfMem (copied _ _) (addTileCounter_wfMem (copied _ _) _ _ _))

@[simp] theorem loaderStep_wfMem {s : State} (hs : WfMem s.mem) (slice : Nat) : WfMem (s.loaderStep slice).mem := by
  simp only [State.loaderStep]
  split
  · exact hs
  · split
    · simpa using hs
    · split
      next h =>
        have ht := (runPiece_wfMem hs _ _ _ _).1 h
        split <;> simpa using ht
      next h =>
        have ht := (runPiece_wfMem hs _ _ _ _).2 h
        simp [ht]
      · exact hs

@[simp] theorem packetWritten_wfMem {s : State} (hs : WfMem s.mem) (q : Nat) : WfMem (s.packetWritten q).1.mem := by
  grind [State.packetWritten, feRead_wfMem]

@[simp] theorem firstWritten_wfMem {s : State} (hs : WfMem s.mem) (l : List Nat) : WfMem (s.firstWritten l).1.mem := by
  induction l generalizing s with
  | nil => exact hs
  | cons q rest ih =>
    simp only [State.firstWritten]
    split
    next h => exact fst_wfMem h (packetWritten_wfMem hs _)
    next h => exact ih (fst_wfMem h (packetWritten_wfMem hs _))

@[simp] theorem nextQueue_wfMem {s : State} (hs : WfMem s.mem) : WfMem (s.nextQueue).1.mem := by
  simp [State.nextQueue, hs]

@[simp] theorem startPacket_wfMem {s : State} (hs : WfMem s.mem) (c n : Nat) : WfMem (s.startPacket c n).mem := by
  grind [State.startPacket, nextQueue_wfMem, begin_mem, modQueue_mem]

@[simp] theorem shadowWord_wfMem {s : State} (hs : WfMem s.mem) (asid : BitVec 16) (a : Nat) :
    WfMem (s.shadowWord asid a).1.mem := by
  simp [State.shadowWord, hs]

@[simp] theorem reconcile_wfMem {s : State} (hs : WfMem s.mem) (q : Nat) : WfMem (s.reconcile q).mem := by
  grind [State.reconcile, shadowWord_wfMem, doorbell_wfMem, modQueue_mem]

@[simp] theorem readDesc_wfMem {s : State} (hs : WfMem s.mem) (r : ServiceReq) : WfMem (s.readDesc r).1.mem := by
  simp only [State.readDesc]
  (repeat' split) <;> simp [hs]

@[simp] theorem installContext_wfMem {s : State} (hs : WfMem s.mem) (r : ServiceReq) : WfMem (s.installContext r).mem := by
  grind [State.installContext, readDesc_wfMem, refuse_wfMem]

@[simp] theorem shootTlbs_wfMem {s : State} (hs : WfMem s.mem) (p : TlbEntry → Bool) : WfMem (s.shootTlbs p).mem := by
  unfold State.shootTlbs
  refine foldl_wfMem (fun s x hs => ?_) _ hs
  simp [hs]

@[simp] theorem shootDown_wfMem {s : State} (hs : WfMem s.mem) (r : ServiceReq) : WfMem (s.shootDown r).mem := by
  simp [State.shootDown, hs]

@[simp] theorem addFrontEnd_wfMem {s : State} (hs : WfMem s.mem) (tile ctr : Nat) : WfMem (s.addFrontEnd tile ctr).mem := by
  simp [State.addFrontEnd, hs]

@[simp] theorem createQueue_wfMem {s : State} (hs : WfMem s.mem) (r : ServiceReq) : WfMem (s.createQueue r).mem := by
  grind [State.createQueue, readDesc_wfMem, refuse_wfMem, shadowWord_wfMem]

@[simp] theorem rollBack_wfMem {s : State} (hs : WfMem s.mem) (no : Nat) : WfMem (s.rollBack no).mem := by
  simp only [State.rollBack]
  split <;> simp [hs]

@[simp] theorem rollBackQueue_wfMem {s : State} (hs : WfMem s.mem) (q : Nat) : WfMem (s.rollBackQueue q).mem := by
  unfold State.rollBackQueue
  refine foldl_wfMem (fun s x hs => ?_) _ (by simp [hs])
  simp [hs]

@[simp] theorem destroyQueue_wfMem {s : State} (hs : WfMem s.mem) (r : ServiceReq) : WfMem (s.destroyQueue r).mem := by
  simp only [State.destroyQueue]
  (repeat' split) <;> simp [hs]

@[simp] theorem placeBytes_wfMem {s : State} (hs : WfMem s.mem) (r : ServiceReq) (c : Nat) (kind : AccessKind) (a : Nat)
    (bs : List Byte) :
    WfMem (s.placeBytes r c kind a bs).1.mem := by
  simp only [State.placeBytes]
  split
  · split
    · exact hs
    · split
      all_goals
        next h =>
          have ht := fst_wfMem h (feLocs_wfMem hs _ _ _ _ _)
          simp [ht]
  · split
    · exact hs
    · exact foldl_wfMem (fun s c hs => store_wfMem hs _ _) _ hs

@[simp] theorem placeSections_wfMem {s : State} (hs : WfMem s.mem) (r : ServiceReq) (c : Nat) (l : List (Dword × List Byte)) :
    WfMem (s.placeSections r c l).1.mem := by
  induction l generalizing s with
  | nil => exact hs
  | cons e rest ih =>
    simp only [State.placeSections]
    split
    next h => exact fst_wfMem h (placeBytes_wfMem hs _ _ _ _ _)
    next h => exact ih (fst_wfMem h (placeBytes_wfMem hs _ _ _ _ _))

@[simp] theorem placeCode_wfMem {s : State} (hs : WfMem s.mem) (r : ServiceReq) (o : CodeObject) :
    WfMem (s.placeCode r o).1.mem := by
  grind [State.placeCode, placeBytes_wfMem, placeSections_wfMem]

@[simp] theorem loadCode_wfMem {s : State} (hs : WfMem s.mem) (r : ServiceReq) (o : CodeObject) :
    WfMem (s.loadCode r o).mem := by
  grind [State.loadCode, refuse_wfMem, placeCode_wfMem, measure_wfMem]

@[simp] theorem copySpan_wfMem {s : State} (hs : WfMem s.mem) (src dst n : Nat) : WfMem (s.copySpan src dst n).mem := by
  simp [State.copySpan, hs]

@[simp] theorem migratePage_wfMem {s : State} (hs : WfMem s.mem) (r : ServiceReq) : WfMem (s.migratePage r).mem := by
  unfold State.migratePage
  extract_lets a asid d
  split
  · exact refuse_wfMem hs _ _
  · split
    · exact refuse_wfMem hs _ _
    · split
      · exact refuse_wfMem hs _ _
      · extract_lets size old new e2 t
        have ht : WfMem t.mem := copySpan_wfMem (shootTlbs_wfMem hs _) _ _ _
        exact storeNat_wfMem ht _ _ _

@[simp] theorem parkGang_wfMem {s : State} (hs : WfMem s.mem) (no : Nat) : WfMem (s.parkGang no).mem := by
  simp only [State.parkGang]
  split
  · exact hs
  · split
    · exact hs
    · refine foldl_wfMem (fun s e hs => ?_) _ (by simpa using hs)
      (repeat' split) <;> simp [hs]

@[simp] theorem setLevel_wfMem {s : State} (hs : WfMem s.mem) (level temp power : Nat) :
    WfMem (s.setLevel level temp power).mem := by
  unfold State.setLevel
  have h (u : State) (hu : WfMem u.mem) (l : List Nat) : WfMem (l.foldl State.parkGang u).mem :=
    foldl_wfMem (fun s no hs => parkGang_wfMem hs no) _ hu
  grind [fence_mem, feRecord_wfMem]

@[simp] theorem thermalTick_wfMem {s : State} (hs : WfMem s.mem) (temp power : Nat) : WfMem (s.thermalTick temp power).mem := by
  simp only [State.thermalTick]
  (repeat' split) <;> simp [hs]

@[simp] theorem partDone_wfMem {s : State} (hs : WfMem s.mem) (n : Nat) : WfMem (s.partDone n).mem := by
  simp [State.partDone, hs]

@[simp] theorem errorRecord_wfMem {s : State} (hs : WfMem s.mem) (kind sev : Nat) (u : ErrUnit) (fields : List RecordField) :
    WfMem (s.errorRecord kind sev u fields).mem := by
  simp [State.errorRecord, hs]

@[simp] theorem corrected_wfMem {s : State} (hs : WfMem s.mem) (u : ErrUnit) (addr : Nat) : WfMem (s.corrected u addr).mem := by
  simp [State.corrected, hs]

@[simp] theorem fatalError_wfMem {s : State} (hs : WfMem s.mem) (u : ErrUnit) (addr : Nat) : WfMem (s.fatalError u addr).mem := by
  unfold State.fatalError
  extract_lets t fatal halted
  have hh : WfMem halted.mem := by
    refine foldl_wfMem (fun s n hs => ?_) _ (errorRecord_wfMem hs _ _ _ _)
    dsimp only
    split <;> simp [hs]
  split <;> simpa using hh

@[simp] theorem dbgCommand_wfMem {s : State} (hs : WfMem s.mem) (c i : Nat) : WfMem (s.dbgCommand c i).mem := by
  simp [State.dbgCommand, hs]

@[simp] theorem logEntry_wfMem {s : State} (hs : WfMem s.mem) (c moment ns head : Nat) (rest : List Nat) :
    WfMem (s.logEntry c moment ns head rest).mem := by
  simp only [State.logEntry]
  split <;> simp [hs]

@[simp] theorem logState_wfMem {s : State} (hs : WfMem s.mem) (c : Nat) : WfMem (s.logState c).mem := by
  simp only [State.logState]
  (repeat' split) <;> simp -implicitDefEqProofs [hs]

theorem bootCopy_wfMem {s : State} (hs : WfMem s.mem) (n : Nat) {t : State} (h : s.bootCopy n = some t) : WfMem t.mem := by
  simp only [State.bootCopy] at h
  (repeat' split at h) <;> cases h <;> simp [hs]

/-! The instructions and the events. -/

/-- An operation that never takes memory out of its canonical form. -/
def Keeps (f : State → Out) : Prop := ∀ ⦃s t : State⦄, WfMem s.mem → f s = .next t → WfMem t.mem

/-- The memory of a state is in canonical form. -/
def State.Canonical (s : State) : Prop := WfMem s.mem

/-- The memory of the state an answer goes on from is in canonical form. -/
def Res.Canonical (r : Res) : Prop := WfMem r.state.mem

@[simp] theorem State.canonical_iff (s : State) : s.Canonical ↔ WfMem s.mem := Iff.rfl

@[simp] theorem Res.canonical_iff (r : Res) : r.Canonical ↔ WfMem r.state.mem := Iff.rfl

/-- An instruction keeps the form of memory when the state its meaning goes on from has it. -/
theorem keeps_issue {i : State → Instr} {body : State → Res} (hb : ∀ s, WfMem s.mem → (body s).Canonical) :
    Keeps fun s => issue (i s) body s := by
  intro s t hs h
  simp only [issue] at h
  split at h
  · split at h <;> cases h
    · exact pfxTrap_wfMem hs _
    · exact finish_wfMem s hs
  · cases h
    exact finish_wfMem s (hb s hs)

/-- An event keeps the form of memory when its effect does. -/
theorem keeps_event {ok : State → Bool} {body : State → State} (hb : ∀ s, WfMem s.mem → (body s).Canonical) :
    Keeps fun s => event (ok s) body s := by
  intro s t hs h
  simp only [event] at h
  split at h <;> cases h
  exact hb s hs

theorem keeps_next {f : State → State} (hf : ∀ s, WfMem s.mem → (f s).Canonical) : Keeps fun s => .next (f s) := by
  intro s t hs h
  cases h
  exact hf s hs

@[simp] theorem serviceEvent_wfMem {n : Nat} {r : ServiceReq} {sup : Bool} {body : State → State} {s : State} (hs : WfMem s.mem)
    (hb : ∀ t, WfMem t.mem → (body t).Canonical) : WfMem (serviceEvent n r sup body s).mem := by
  simp only [serviceEvent]
  split
  · exact hs
  · split
    · exact hs
    next t h =>
      have ht : WfMem t.mem := by
        rw [takeService_mem _ _ h]
        exact hs
      split
      · exact refuse_wfMem ht _ _
      · exact hb t ht

@[simp] theorem matrixTrap_state (code : Nat) (s : State) : (matrixTrap code s).state = s := rfl
@[simp] theorem mailboxTrap_state (code : Nat) (s : State) : (mailboxTrap code s).state = s := rfl

@[simp] theorem execAdd_keeps (d a b : Reg) : Keeps (execAdd d a b) :=
  keeps_issue fun s hs => by simp [hs]

@[simp] theorem execSub_keeps (d a b : Reg) : Keeps (execSub d a b) :=
  keeps_issue fun s hs => by simp [hs]

@[simp] theorem execAnd_keeps (d a b : Reg) : Keeps (execAnd d a b) :=
  keeps_issue fun s hs => by simp [hs]

@[simp] theorem execOr_keeps (d a b : Reg) : Keeps (execOr d a b) :=
  keeps_issue fun s hs => by simp [hs]

@[simp] theorem execXor_keeps (d a b : Reg) : Keeps (execXor d a b) :=
  keeps_issue fun s hs => by simp [hs]

@[simp] theorem execAndn_keeps (d a b : Reg) : Keeps (execAndn d a b) :=
  keeps_issue fun s hs => by simp [hs]

@[simp] theorem execSll_keeps (d a b : Reg) : Keeps (execSll d a b) :=
  keeps_issue fun s hs => by simp [hs]

@[simp] theorem execSrl_keeps (d a b : Reg) : Keeps (execSrl d a b) :=
  keeps_issue fun s hs => by simp [hs]

@[simp] theorem execSra_keeps (d a b : Reg) : Keeps (execSra d a b) :=
  keeps_issue fun s hs => by simp [hs]

@[simp] theorem execRol_keeps (d a b : Reg) : Keeps (execRol d a b) :=
  keeps_issue fun s hs => by simp [hs]

@[simp] theorem execSlt_keeps (d a b : Reg) : Keeps (execSlt d a b) :=
  keeps_issue fun s hs => by simp [hs]

@[simp] theorem execSltu_keeps (d a b : Reg) : Keeps (execSltu d a b) :=
  keeps_issue fun s hs => by simp [hs]

@[simp] theorem execMin_keeps (d a b : Reg) : Keeps (execMin d a b) :=
  keeps_issue fun s hs => by simp [hs]

@[simp] theorem execMax_keeps (d a b : Reg) : Keeps (execMax d a b) :=
  keeps_issue fun s hs => by simp [hs]

@[simp] theorem execMinu_keeps (d a b : Reg) : Keeps (execMinu d a b) :=
  keeps_issue fun s hs => by simp [hs]

@[simp] theorem execMaxu_keeps (d a b : Reg) : Keeps (execMaxu d a b) :=
  keeps_issue fun s hs => by simp [hs]

@[simp] theorem execMul_keeps (d a b : Reg) : Keeps (execMul d a b) :=
  keeps_issue fun s hs => by simp [hs]

@[simp] theorem execMulh_keeps (d a b : Reg) : Keeps (execMulh d a b) :=
  keeps_issue fun s hs => by simp [hs]

@[simp] theorem execMulhu_keeps (d a b : Reg) : Keeps (execMulhu d a b) :=
  keeps_issue fun s hs => by simp [hs]

@[simp] theorem execDiv_keeps (d a b : Reg) : Keeps (execDiv d a b) :=
  keeps_issue fun s hs => by simp [hs]

@[simp] theorem execDivu_keeps (d a b : Reg) : Keeps (execDivu d a b) :=
  keeps_issue fun s hs => by simp [hs]

@[simp] theorem execRem_keeps (d a b : Reg) : Keeps (execRem d a b) :=
  keeps_issue fun s hs => by simp [hs]

@[simp] theorem execRemu_keeps (d a b : Reg) : Keeps (execRemu d a b) :=
  keeps_issue fun s hs => by simp [hs]

@[simp] theorem execClz_keeps (d a : Reg) : Keeps (execClz d a) :=
  keeps_issue fun s hs => by simp [hs]

@[simp] theorem execCtz_keeps (d a : Reg) : Keeps (execCtz d a) :=
  keeps_issue fun s hs => by simp [hs]

@[simp] theorem execPopc_keeps (d a : Reg) : Keeps (execPopc d a) :=
  keeps_issue fun s hs => by simp [hs]

@[simp] theorem execSextB_keeps (d a : Reg) : Keeps (execSextB d a) :=
  keeps_issue fun s hs => by simp [hs]

@[simp] theorem execSextH_keeps (d a : Reg) : Keeps (execSextH d a) :=
  keeps_issue fun s hs => by simp [hs]

@[simp] theorem execZextB_keeps (d a : Reg) : Keeps (execZextB d a) :=
  keeps_issue fun s hs => by simp [hs]

@[simp] theorem execZextH_keeps (d a : Reg) : Keeps (execZextH d a) :=
  keeps_issue fun s hs => by simp [hs]

@[simp] theorem execBfx_keeps (d a b : Reg) : Keeps (execBfx d a b) :=
  keeps_issue fun s hs => by simp [hs]

@[simp] theorem execBfi_keeps (d a b : Reg) : Keeps (execBfi d a b) :=
  keeps_issue fun s hs => by simp [hs]

@[simp] theorem execAddi_keeps (d a : Reg) (i : BitVec 16) : Keeps (execAddi d a i) :=
  keeps_issue fun s hs => by simp [hs]

@[simp] theorem execAndi_keeps (d a : Reg) (i : BitVec 16) : Keeps (execAndi d a i) :=
  keeps_issue fun s hs => by simp [hs]

@[simp] theorem execOri_keeps (d a : Reg) (i : BitVec 16) : Keeps (execOri d a i) :=
  keeps_issue fun s hs => by simp [hs]

@[simp] theorem execXori_keeps (d a : Reg) (i : BitVec 16) : Keeps (execXori d a i) :=
  keeps_issue fun s hs => by simp [hs]

@[simp] theorem execSlti_keeps (d a : Reg) (i : BitVec 16) : Keeps (execSlti d a i) :=
  keeps_issue fun s hs => by simp [hs]

@[simp] theorem execSltiu_keeps (d a : Reg) (i : BitVec 16) : Keeps (execSltiu d a i) :=
  keeps_issue fun s hs => by simp [hs]

@[simp] theorem execLui_keeps (d : Reg) (i : BitVec 16) : Keeps (execLui d i) :=
  keeps_issue fun s hs => by simp [hs]

@[simp] theorem execSlli_keeps (d a h : Reg) : Keeps (execSlli d a h) :=
  keeps_issue fun s hs => by simp [hs]

@[simp] theorem execSrli_keeps (d a h : Reg) : Keeps (execSrli d a h) :=
  keeps_issue fun s hs => by simp [hs]

@[simp] theorem execSrai_keeps (d a h : Reg) : Keeps (execSrai d a h) :=
  keeps_issue fun s hs => by simp [hs]

@[simp] theorem execAddpi_keeps (d a : Reg) (i : BitVec 16) : Keeps (execAddpi d a i) :=
  keeps_issue fun s hs => by simp [hs]

@[simp] theorem execAddp_keeps (d a b : Reg) : Keeps (execAddp d a b) :=
  keeps_issue fun s hs => by simp [hs]

@[simp] theorem execSubp_keeps (d a b : Reg) : Keeps (execSubp d a b) :=
  keeps_issue fun s hs => by simp [hs]

@[simp] theorem execMovp_keeps (d a : Reg) : Keeps (execMovp d a) :=
  keeps_issue fun s hs => by simp [hs]

@[simp] theorem execBeq_keeps (a b : Reg) (o : BitVec 16) : Keeps (execBeq a b o) :=
  keeps_issue fun s hs => by simp [hs]

@[simp] theorem execBne_keeps (a b : Reg) (o : BitVec 16) : Keeps (execBne a b o) :=
  keeps_issue fun s hs => by simp [hs]

@[simp] theorem execBlt_keeps (a b : Reg) (o : BitVec 16) : Keeps (execBlt a b o) :=
  keeps_issue fun s hs => by simp [hs]

@[simp] theorem execBge_keeps (a b : Reg) (o : BitVec 16) : Keeps (execBge a b o) :=
  keeps_issue fun s hs => by simp [hs]

@[simp] theorem execBltu_keeps (a b : Reg) (o : BitVec 16) : Keeps (execBltu a b o) :=
  keeps_issue fun s hs => by simp [hs]

@[simp] theorem execBgeu_keeps (a b : Reg) (o : BitVec 16) : Keeps (execBgeu a b o) :=
  keeps_issue fun s hs => by simp [hs]

@[simp] theorem execBkany_keeps (k : BitVec 3) (o : BitVec 16) : Keeps (execBkany k o) :=
  keeps_issue fun s hs => by simp [hs]

@[simp] theorem execBkall_keeps (k : BitVec 3) (o : BitVec 16) : Keeps (execBkall k o) :=
  keeps_issue fun s hs => by simp [hs]

@[simp] theorem execBknone_keeps (k : BitVec 3) (o : BitVec 16) :
    Keeps (execBknone k o) :=
  keeps_issue fun s hs => by simp [hs]

@[simp] theorem execBceos_keeps (v : Reg) (o : BitVec 16) : Keeps (execBceos v o) := by
  refine keeps_issue fun s hs => ?_
  grind [Res.Canonical, Res.state, branch_mem]

@[simp] theorem execJ_keeps (o : BitVec 25) : Keeps (execJ o) :=
  keeps_issue fun s hs => by simp [hs]

@[simp] theorem execJal_keeps (o : BitVec 25) : Keeps (execJal o) :=
  keeps_issue fun s hs => by simp [hs]

@[simp] theorem execJalr_keeps (d a : Reg) (o : BitVec 10) : Keeps (execJalr d a o) :=
  keeps_issue fun s hs => by simp [hs]

@[simp] theorem execJalrFar_keeps (d a : Reg) (o : BitVec 10) : Keeps (execJalrFar d a o) := by
  refine keeps_issue fun s hs => ?_
  split <;> simp [hs]

@[simp] theorem execDbnz_keeps (a : Reg) (o : BitVec 16) : Keeps (execDbnz a o) :=
  keeps_issue fun s hs => by simp [hs]

@[simp] theorem execLb_keeps (d : Reg) (b : BitVec 4) (o : BitVec 15) :
    Keeps (execLb d b o) :=
  keeps_issue fun s hs => load_wfMem hs _ _ _ _ fun l t ht => by simp [State.loadX, ht]

@[simp] theorem execLbu_keeps (d : Reg) (b : BitVec 4) (o : BitVec 15) :
    Keeps (execLbu d b o) :=
  keeps_issue fun s hs => load_wfMem hs _ _ _ _ fun l t ht => by simp [State.loadX, ht]

@[simp] theorem execLh_keeps (d : Reg) (b : BitVec 4) (o : BitVec 15) :
    Keeps (execLh d b o) :=
  keeps_issue fun s hs => load_wfMem hs _ _ _ _ fun l t ht => by simp [State.loadX, ht]

@[simp] theorem execLhu_keeps (d : Reg) (b : BitVec 4) (o : BitVec 15) :
    Keeps (execLhu d b o) :=
  keeps_issue fun s hs => load_wfMem hs _ _ _ _ fun l t ht => by simp [State.loadX, ht]

@[simp] theorem execLw_keeps (d : Reg) (b : BitVec 4) (o : BitVec 15) :
    Keeps (execLw d b o) :=
  keeps_issue fun s hs => load_wfMem hs _ _ _ _ fun l t ht => by simp [State.loadX, ht]

@[simp] theorem execLd_keeps (d : Reg) (b : BitVec 4) (o : BitVec 15) :
    Keeps (execLd d b o) :=
  keeps_issue fun s hs => load_wfMem hs _ _ _ _ fun l t ht => by simp [State.loadX, ht]

@[simp] theorem execSb_keeps (d : Reg) (b : BitVec 4) (o : BitVec 15) :
    Keeps (execSb d b o) :=
  keeps_issue fun s hs => by simp [hs]

@[simp] theorem execSh_keeps (d : Reg) (b : BitVec 4) (o : BitVec 15) :
    Keeps (execSh d b o) :=
  keeps_issue fun s hs => by simp [hs]

@[simp] theorem execSw_keeps (d : Reg) (b : BitVec 4) (o : BitVec 15) :
    Keeps (execSw d b o) :=
  keeps_issue fun s hs => by simp [hs]

@[simp] theorem execSd_keeps (d : Reg) (b : BitVec 4) (o : BitVec 15) :
    Keeps (execSd d b o) :=
  keeps_issue fun s hs => by simp [hs]

@[simp] theorem execVld_keeps (d : Reg) (b : BitVec 4) (k : BitVec 2) (o : BitVec 15) :
    Keeps (execVld d b k o) :=
  keeps_issue fun s hs => by simp [hs]

@[simp] theorem execVst_keeps (d : Reg) (b : BitVec 4) (k : BitVec 2) (o : BitVec 15) : Keeps (execVst d b k o) := by
  refine keeps_issue fun s hs => ?_
  split <;> simp [hs]

@[simp] theorem execPf_keeps (b : BitVec 4) (h : BitVec 2) (o : BitVec 15) : Keeps (execPf b h o) := by
  refine keeps_issue fun s hs => ?_
  split <;> simp [hs]

@[simp] theorem execAmoaddW_keeps (d p t : Reg) (c : BitVec 2) (a l : BitVec 1) :
    Keeps (execAmoaddW d p t c a l) :=
  keeps_issue fun s hs => by simp [hs]

@[simp] theorem execAmoaddD_keeps (d p t : Reg) (c : BitVec 2) (a l : BitVec 1) :
    Keeps (execAmoaddD d p t c a l) :=
  keeps_issue fun s hs => by simp [hs]

@[simp] theorem execAmoandW_keeps (d p t : Reg) (c : BitVec 2) (a l : BitVec 1) :
    Keeps (execAmoandW d p t c a l) :=
  keeps_issue fun s hs => by simp [hs]

@[simp] theorem execAmoandD_keeps (d p t : Reg) (c : BitVec 2) (a l : BitVec 1) :
    Keeps (execAmoandD d p t c a l) :=
  keeps_issue fun s hs => by simp [hs]

@[simp] theorem execAmoorW_keeps (d p t : Reg) (c : BitVec 2) (a l : BitVec 1) :
    Keeps (execAmoorW d p t c a l) :=
  keeps_issue fun s hs => by simp [hs]

@[simp] theorem execAmoorD_keeps (d p t : Reg) (c : BitVec 2) (a l : BitVec 1) :
    Keeps (execAmoorD d p t c a l) :=
  keeps_issue fun s hs => by simp [hs]

@[simp] theorem execAmoxorW_keeps (d p t : Reg) (c : BitVec 2) (a l : BitVec 1) :
    Keeps (execAmoxorW d p t c a l) :=
  keeps_issue fun s hs => by simp [hs]

@[simp] theorem execAmoxorD_keeps (d p t : Reg) (c : BitVec 2) (a l : BitVec 1) :
    Keeps (execAmoxorD d p t c a l) :=
  keeps_issue fun s hs => by simp [hs]

@[simp] theorem execAmominW_keeps (d p t : Reg) (c : BitVec 2) (a l : BitVec 1) :
    Keeps (execAmominW d p t c a l) :=
  keeps_issue fun s hs => by simp [hs]

@[simp] theorem execAmominD_keeps (d p t : Reg) (c : BitVec 2) (a l : BitVec 1) :
    Keeps (execAmominD d p t c a l) :=
  keeps_issue fun s hs => by simp [hs]

@[simp] theorem execAmomaxW_keeps (d p t : Reg) (c : BitVec 2) (a l : BitVec 1) :
    Keeps (execAmomaxW d p t c a l) :=
  keeps_issue fun s hs => by simp [hs]

@[simp] theorem execAmomaxD_keeps (d p t : Reg) (c : BitVec 2) (a l : BitVec 1) :
    Keeps (execAmomaxD d p t c a l) :=
  keeps_issue fun s hs => by simp [hs]

@[simp] theorem execAmominuW_keeps (d p t : Reg) (c : BitVec 2) (a l : BitVec 1) :
    Keeps (execAmominuW d p t c a l) :=
  keeps_issue fun s hs => by simp [hs]

@[simp] theorem execAmominuD_keeps (d p t : Reg) (c : BitVec 2) (a l : BitVec 1) :
    Keeps (execAmominuD d p t c a l) :=
  keeps_issue fun s hs => by simp [hs]

@[simp] theorem execAmomaxuW_keeps (d p t : Reg) (c : BitVec 2) (a l : BitVec 1) :
    Keeps (execAmomaxuW d p t c a l) :=
  keeps_issue fun s hs => by simp [hs]

@[simp] theorem execAmomaxuD_keeps (d p t : Reg) (c : BitVec 2) (a l : BitVec 1) :
    Keeps (execAmomaxuD d p t c a l) :=
  keeps_issue fun s hs => by simp [hs]

@[simp] theorem execAmoswapW_keeps (d p t : Reg) (c : BitVec 2) (a l : BitVec 1) :
    Keeps (execAmoswapW d p t c a l) :=
  keeps_issue fun s hs => by simp [hs]

@[simp] theorem execAmoswapD_keeps (d p t : Reg) (c : BitVec 2) (a l : BitVec 1) :
    Keeps (execAmoswapD d p t c a l) :=
  keeps_issue fun s hs => by simp [hs]

@[simp] theorem execAmofadd_keeps (d p t : Reg) (c : BitVec 2) (a l : BitVec 1) :
    Keeps (execAmofadd d p t c a l) :=
  keeps_issue fun s hs => by simp [hs]

@[simp] theorem execCasW_keeps (d p t : Reg) (c : BitVec 2) (a l : BitVec 1) :
    Keeps (execCasW d p t c a l) :=
  keeps_issue fun s hs => by simp [hs]

@[simp] theorem execCasD_keeps (d p t : Reg) (c : BitVec 2) (a l : BitVec 1) :
    Keeps (execCasD d p t c a l) :=
  keeps_issue fun s hs => by simp [hs]

@[simp] theorem execLrW_keeps (d p : Reg) (c : BitVec 2) (a l : BitVec 1) :
    Keeps (execLrW d p c a l) :=
  keeps_issue fun s hs => by simp [hs]

@[simp] theorem execLrD_keeps (d p : Reg) (c : BitVec 2) (a l : BitVec 1) :
    Keeps (execLrD d p c a l) :=
  keeps_issue fun s hs => by simp [hs]

@[simp] theorem execScW_keeps (d p t : Reg) (c : BitVec 2) (a l : BitVec 1) :
    Keeps (execScW d p t c a l) :=
  keeps_issue fun s hs => by simp [hs]

@[simp] theorem execScD_keeps (d p t : Reg) (c : BitVec 2) (a l : BitVec 1) :
    Keeps (execScD d p t c a l) :=
  keeps_issue fun s hs => by simp [hs]

@[simp] theorem execFence_keeps (p q c : BitVec 2) : Keeps (execFence p q c) := by
  refine keeps_issue fun s hs => ?_
  split <;> simp [hs]

@[simp] theorem execFencei_keeps : Keeps execFencei := by
  refine keeps_issue fun s hs => ?_
  split <;> simp [hs]

@[simp] theorem execBarv_keeps (d a : Reg) (c : BitVec 2) : Keeps (execBarv d a c) := by
  refine keeps_issue fun s hs => ?_
  dsimp only
  (repeat' split) <;> simp [hs]

@[simp] theorem execBarw_keeps (a t : Reg) (c : BitVec 2) : Keeps (execBarw a t c) := by
  refine keeps_issue fun s hs => ?_
  split <;> simp [hs]

@[simp] theorem execTrig_keeps : Keeps execTrig := by
  refine keeps_issue fun s hs => ?_
  split <;> simp [hs]

@[simp] theorem execWaitdep_keeps (d : Reg) : Keeps (execWaitdep d) := by
  refine keeps_issue fun s hs => ?_
  grind [Res.Canonical, Res.state, retX_mem]

@[simp] theorem execWrs_keeps (d a : Reg) : Keeps (execWrs d a) := by
  refine keeps_issue fun s hs => ?_
  grind [Res.Canonical, Res.state, retX_mem, modTh_mem]

@[simp] theorem execFput_keeps (d p t : Reg) : Keeps (execFput d p t) := by
  refine keeps_issue fun s hs => ?_
  grind [Res.Canonical, onCell_wfMem, futurePut_wfMem, retX_mem]

@[simp] theorem execFget_keeps (d p : Reg) : Keeps (execFget d p) := by
  refine keeps_issue fun s hs => ?_
  grind [Res.Canonical, Res.state, countRead_mem, retP_mem, onCell_wfMem, parkFuture_wfMem]

@[simp] theorem execFreset_keeps (d p : Reg) : Keeps (execFreset d p) := by
  refine keeps_issue fun s hs => ?_
  grind [Res.Canonical, onCell_wfMem, storeNat_wfMem, retX_mem]

@[simp] theorem execVadd_keeps (d a b : Reg) (k y : BitVec 3) (u : BitVec 1) :
    Keeps (execVadd d a b k y u) :=
  keeps_issue fun s hs => by simp [hs]

@[simp] theorem execVsub_keeps (d a b : Reg) (k y : BitVec 3) (u : BitVec 1) :
    Keeps (execVsub d a b k y u) :=
  keeps_issue fun s hs => by simp [hs]

@[simp] theorem execVmul_keeps (d a b : Reg) (k y : BitVec 3) (u : BitVec 1) :
    Keeps (execVmul d a b k y u) :=
  keeps_issue fun s hs => by simp [hs]

@[simp] theorem execVmin_keeps (d a b : Reg) (k y : BitVec 3) (u : BitVec 1) :
    Keeps (execVmin d a b k y u) :=
  keeps_issue fun s hs => by simp [hs]

@[simp] theorem execVmax_keeps (d a b : Reg) (k y : BitVec 3) (u : BitVec 1) :
    Keeps (execVmax d a b k y u) :=
  keeps_issue fun s hs => by simp [hs]

@[simp] theorem execVabs_keeps (d a : Reg) (k y : BitVec 3) : Keeps (execVabs d a k y) :=
  keeps_issue fun s hs => by simp [hs]

@[simp] theorem execVneg_keeps (d a : Reg) (k y : BitVec 3) : Keeps (execVneg d a k y) :=
  keeps_issue fun s hs => by simp [hs]

@[simp] theorem execVand_keeps (d a b : Reg) (k y : BitVec 3) :
    Keeps (execVand d a b k y) :=
  keeps_issue fun s hs => by simp [hs]

@[simp] theorem execVor_keeps (d a b : Reg) (k y : BitVec 3) :
    Keeps (execVor d a b k y) :=
  keeps_issue fun s hs => by simp [hs]

@[simp] theorem execVxor_keeps (d a b : Reg) (k y : BitVec 3) :
    Keeps (execVxor d a b k y) :=
  keeps_issue fun s hs => by simp [hs]

@[simp] theorem execVandn_keeps (d a b : Reg) (k y : BitVec 3) :
    Keeps (execVandn d a b k y) :=
  keeps_issue fun s hs => by simp [hs]

@[simp] theorem execVsll_keeps (d a b : Reg) (k y : BitVec 3) :
    Keeps (execVsll d a b k y) :=
  keeps_issue fun s hs => by simp [hs]

@[simp] theorem execVsrl_keeps (d a b : Reg) (k y : BitVec 3) :
    Keeps (execVsrl d a b k y) :=
  keeps_issue fun s hs => by simp [hs]

@[simp] theorem execVsra_keeps (d a b : Reg) (k y : BitVec 3) :
    Keeps (execVsra d a b k y) :=
  keeps_issue fun s hs => by simp [hs]

@[simp] theorem execVclamp_keeps (d a b : Reg) (k y : BitVec 3) (u : BitVec 1) :
    Keeps (execVclamp d a b k y u) :=
  keeps_issue fun s hs => by simp [hs]

@[simp] theorem execVdot_keeps (d a b : Reg) (k y : BitVec 3) (u : BitVec 1) :
    Keeps (execVdot d a b k y u) :=
  keeps_issue fun s hs => by simp [hs]

@[simp] theorem execVaddF_keeps (d a b : Reg) (k y : BitVec 3) :
    Keeps (execVaddF d a b k y) :=
  keeps_issue fun s hs => by simp [hs]

@[simp] theorem execVsubF_keeps (d a b : Reg) (k y : BitVec 3) :
    Keeps (execVsubF d a b k y) :=
  keeps_issue fun s hs => by simp [hs]

@[simp] theorem execVmulF_keeps (d a b : Reg) (k y : BitVec 3) :
    Keeps (execVmulF d a b k y) :=
  keeps_issue fun s hs => by simp [hs]

@[simp] theorem execVminF_keeps (d a b : Reg) (k y : BitVec 3) :
    Keeps (execVminF d a b k y) :=
  keeps_issue fun s hs => by simp [hs]

@[simp] theorem execVmaxF_keeps (d a b : Reg) (k y : BitVec 3) :
    Keeps (execVmaxF d a b k y) :=
  keeps_issue fun s hs => by simp [hs]

@[simp] theorem execVabsF_keeps (d a : Reg) (k y : BitVec 3) :
    Keeps (execVabsF d a k y) :=
  keeps_issue fun s hs => by simp [hs]

@[simp] theorem execVnegF_keeps (d a : Reg) (k y : BitVec 3) :
    Keeps (execVnegF d a k y) :=
  keeps_issue fun s hs => by simp [hs]

@[simp] theorem execVfma_keeps (d a b : Reg) (k y : BitVec 3) :
    Keeps (execVfma d a b k y) :=
  keeps_issue fun s hs => by simp [hs]

@[simp] theorem execVfms_keeps (d a b : Reg) (k y : BitVec 3) :
    Keeps (execVfms d a b k y) :=
  keeps_issue fun s hs => by simp [hs]

@[simp] theorem execVclampF_keeps (d a b : Reg) (k y : BitVec 3) :
    Keeps (execVclampF d a b k y) :=
  keeps_issue fun s hs => by simp [hs]

@[simp] theorem execVdotF_keeps (d a b : Reg) (k y : BitVec 3) :
    Keeps (execVdotF d a b k y) :=
  keeps_issue fun s hs => by simp [hs]

@[simp] theorem execVcmpEq_keeps (d : BitVec 3) (a b : Reg) (k y : BitVec 3) (u : BitVec 1) :
    Keeps (execVcmpEq d a b k y u) :=
  keeps_issue fun s hs => by simp [hs]

@[simp] theorem execVcmpNe_keeps (d : BitVec 3) (a b : Reg) (k y : BitVec 3) (u : BitVec 1) :
    Keeps (execVcmpNe d a b k y u) :=
  keeps_issue fun s hs => by simp [hs]

@[simp] theorem execVcmpLt_keeps (d : BitVec 3) (a b : Reg) (k y : BitVec 3) (u : BitVec 1) :
    Keeps (execVcmpLt d a b k y u) :=
  keeps_issue fun s hs => by simp [hs]

@[simp] theorem execVcmpLe_keeps (d : BitVec 3) (a b : Reg) (k y : BitVec 3) (u : BitVec 1) :
    Keeps (execVcmpLe d a b k y u) :=
  keeps_issue fun s hs => by simp [hs]

@[simp] theorem execVcmpGt_keeps (d : BitVec 3) (a b : Reg) (k y : BitVec 3) (u : BitVec 1) :
    Keeps (execVcmpGt d a b k y u) :=
  keeps_issue fun s hs => by simp [hs]

@[simp] theorem execVcmpGe_keeps (d : BitVec 3) (a b : Reg) (k y : BitVec 3) (u : BitVec 1) :
    Keeps (execVcmpGe d a b k y u) :=
  keeps_issue fun s hs => by simp [hs]

@[simp] theorem execVsel_keeps (d a b : Reg) (k y : BitVec 3) :
    Keeps (execVsel d a b k y) :=
  keeps_issue fun s hs => by simp [hs]

@[simp] theorem execKmovX_keeps (d : Reg) (a : BitVec 3) : Keeps (execKmovX d a) :=
  keeps_issue fun s hs => by simp [hs]

@[simp] theorem execKand_keeps (d a b : BitVec 3) : Keeps (execKand d a b) :=
  keeps_issue fun s hs => by simp [hs]

@[simp] theorem execKor_keeps (d a b : BitVec 3) : Keeps (execKor d a b) :=
  keeps_issue fun s hs => by simp [hs]

@[simp] theorem execKxor_keeps (d a b : BitVec 3) : Keeps (execKxor d a b) :=
  keeps_issue fun s hs => by simp [hs]

@[simp] theorem execKnot_keeps (d a : BitVec 3) : Keeps (execKnot d a) :=
  keeps_issue fun s hs => by simp [hs]

@[simp] theorem execKmovK_keeps (d a : BitVec 3) : Keeps (execKmovK d a) :=
  keeps_issue fun s hs => by simp [hs]

@[simp] theorem execKpopc_keeps (d : Reg) (a : BitVec 3) : Keeps (execKpopc d a) :=
  keeps_issue fun s hs => by simp [hs]

@[simp] theorem execKfirst_keeps (d : Reg) (a : BitVec 3) : Keeps (execKfirst d a) :=
  keeps_issue fun s hs => by simp [hs]

@[simp] theorem execKgen_keeps (d : BitVec 3) (a : Reg) : Keeps (execKgen d a) :=
  keeps_issue fun s hs => by simp [hs]

@[simp] theorem execVcvt_keeps (d a : Reg) (q : BitVec 4) (k : BitVec 3) (e : BitVec 4) :
    Keeps (execVcvt d a q k e) :=
  keeps_issue fun s hs => by simp [hs]

@[simp] theorem execVexp2_keeps (d a : Reg) (k y : BitVec 3) :
    Keeps (execVexp2 d a k y) :=
  keeps_issue fun s hs => by simp [hs]

@[simp] theorem execVlog2_keeps (d a : Reg) (k y : BitVec 3) :
    Keeps (execVlog2 d a k y) :=
  keeps_issue fun s hs => by simp [hs]

@[simp] theorem execVrcp_keeps (d a : Reg) (k y : BitVec 3) : Keeps (execVrcp d a k y) :=
  keeps_issue fun s hs => by simp [hs]

@[simp] theorem execVrsqrt_keeps (d a : Reg) (k y : BitVec 3) :
    Keeps (execVrsqrt d a k y) :=
  keeps_issue fun s hs => by simp [hs]

@[simp] theorem execVpopc_keeps (d a : Reg) (k y : BitVec 3) :
    Keeps (execVpopc d a k y) :=
  keeps_issue fun s hs => by simp [hs]

@[simp] theorem execVredsum_keeps (d a : Reg) (k y : BitVec 3) (u : BitVec 1) :
    Keeps (execVredsum d a k y u) :=
  keeps_issue fun s hs => by simp [hs]

@[simp] theorem execVredmax_keeps (d a : Reg) (k y : BitVec 3) (u : BitVec 1) :
    Keeps (execVredmax d a k y u) :=
  keeps_issue fun s hs => by simp [hs]

@[simp] theorem execVredmin_keeps (d a : Reg) (k y : BitVec 3) (u : BitVec 1) :
    Keeps (execVredmin d a k y u) :=
  keeps_issue fun s hs => by simp [hs]

@[simp] theorem execVargmax_keeps (d a : Reg) (k y : BitVec 3) (u : BitVec 1) :
    Keeps (execVargmax d a k y u) :=
  keeps_issue fun s hs => by simp [hs]

@[simp] theorem execVscan_keeps (d a : Reg) (k y : BitVec 3) :
    Keeps (execVscan d a k y) :=
  keeps_issue fun s hs => by simp [hs]

@[simp] theorem execVperm_keeps (d a b : Reg) (k y : BitVec 3) :
    Keeps (execVperm d a b k y) :=
  keeps_issue fun s hs => by simp [hs]

@[simp] theorem execVslide_keeps (d a t : Reg) (k y : BitVec 3) :
    Keeps (execVslide d a t k y) :=
  keeps_issue fun s hs => by simp [hs]

@[simp] theorem execVtopk_keeps (d a b : Reg) (k y : BitVec 3) (u : BitVec 1) :
    Keeps (execVtopk d a b k y u) :=
  keeps_issue fun s hs => by simp [hs]

@[simp] theorem execVbcast_keeps (d a : Reg) (k y : BitVec 3) :
    Keeps (execVbcast d a k y) :=
  keeps_issue fun s hs => by simp [hs]

@[simp] theorem execVmvx_keeps (d a t : Reg) (y : BitVec 3) : Keeps (execVmvx d a t y) :=
  keeps_issue fun s hs => by simp [hs]

@[simp] theorem execVins_keeps (d a t : Reg) (y : BitVec 3) : Keeps (execVins d a t y) := by
  refine keeps_issue fun s hs => ?_
  grind [Res.Canonical, Res.state, vector_mem, vput_mem]

@[simp] theorem execVmov_keeps (d a : Reg) (k y : BitVec 3) : Keeps (execVmov d a k y) :=
  keeps_issue fun s hs => by simp [hs]

@[simp] theorem execVldg_keeps (d p b : Reg) (k y : BitVec 3) :
    Keeps (execVldg d p b k y) :=
  keeps_issue fun s hs => by simp [hs]

@[simp] theorem execVsts_keeps (d p b : Reg) (k y : BitVec 3) :
    Keeps (execVsts d p b k y) :=
  keeps_issue fun s hs => by simp [hs]

@[simp] theorem execMma_keeps (a t : Reg) : Keeps (execMma a t) :=
  keeps_issue fun s hs => by simp [hs]

@[simp] theorem execMmv_keeps (a t : Reg) : Keeps (execMmv a t) :=
  keeps_issue fun s hs => by simp [hs]

@[simp] theorem execMldb_keeps (a t : Reg) : Keeps (execMldb a t) := by
  refine keeps_issue fun s hs => ?_
  dsimp only
  (repeat' split) <;> simp [hs]

@[simp] theorem execMldbS_keeps (v t : Reg) : Keeps (execMldbS v t) := by
  refine keeps_issue fun s hs => ?_
  have hf := claimFill_wfMem hs (.bound s.slot v.toNat) (s.x t).toNat
  dsimp only
  (repeat' split) <;> simp_all

@[simp] theorem execMst_keeps (a t : Reg) : Keeps (execMst a t) := by
  refine keeps_issue fun s hs => ?_
  dsimp only
  (repeat' split) <;> simp [hs]

@[simp] theorem execMrd_keeps (d a t : Reg) : Keeps (execMrd d a t) := by
  refine keeps_issue fun s hs => ?_
  dsimp only
  (repeat' split) <;> simp [hs]

@[simp] theorem execMzero_keeps (t : Reg) : Keeps (execMzero t) := by
  refine keeps_issue fun s hs => ?_
  dsimp only
  (repeat' split) <;> simp [hs]

@[simp] theorem execMring_keeps (d a t : Reg) : Keeps (execMring d a t) := by
  refine keeps_issue fun s hs => ?_
  dsimp only
  (repeat' split) <;> simp [hs]

@[simp] theorem execMvgo_keeps (d a : Reg) : Keeps (execMvgo d a) :=
  keeps_issue fun s hs => by simp [hs]

@[simp] theorem execMvred_keeps (d a : Reg) : Keeps (execMvred d a) :=
  keeps_issue fun s hs => by simp [hs]

@[simp] theorem execMvst_keeps (d a : Reg) : Keeps (execMvst d a) := by
  refine keeps_issue fun s hs => ?_
  split <;> simp [hs]

@[simp] theorem execMvkill_keeps (a : Reg) : Keeps (execMvkill a) := by
  refine keeps_issue fun s hs => ?_
  split <;> simp [hs]

@[simp] theorem execSbind_keeps (d a t : Reg) : Keeps (execSbind d a t) := by
  refine keeps_issue fun s hs => ?_
  dsimp only
  (repeat' split) <;> simp [hs]

@[simp] theorem execCbind_keeps (d a t : Reg) : Keeps (execCbind d a t) := by
  refine keeps_issue fun s hs => ?_
  dsimp only
  (repeat' split) <;> simp [hs]

@[simp] theorem execSunbind_keeps (d : Reg) : Keeps (execSunbind d) := by
  refine keeps_issue fun s hs => ?_
  dsimp only
  (repeat' split) <;> simp [hs]

@[simp] theorem execCret_keeps (d : Reg) : Keeps (execCret d) := by
  refine keeps_issue fun s hs => ?_
  dsimp only
  (repeat' split) <;> simp [hs]

@[simp] theorem execCeos_keeps (d : Reg) : Keeps (execCeos d) := by
  refine keeps_issue fun s hs => ?_
  grind [Res.Canonical, Res.state, sendBeat_mem, waitsOn_mem]

@[simp] theorem execCwait_keeps (d a t : Reg) : Keeps (execCwait d a t) := by
  refine keeps_issue fun s hs => ?_
  dsimp only
  (repeat' split) <;> simp [hs]

@[simp] theorem execCadd_keeps (a t : Reg) : Keeps (execCadd a t) := by
  refine keeps_issue fun s hs => ?_
  dsimp only
  (repeat' split) <;> simp [hs]

@[simp] theorem execCset_keeps (a t : Reg) : Keeps (execCset a t) := by
  refine keeps_issue fun s hs => ?_
  split <;> simp [hs]

@[simp] theorem execCrd_keeps (d a : Reg) : Keeps (execCrd d a) := by
  refine keeps_issue fun s hs => ?_
  split <;> simp [hs]

@[simp] theorem execMw_keeps (d : BitVec 3) (a : Reg) : Keeps (execMw d a) :=
  keeps_issue fun s hs => by simp [hs]

@[simp] theorem execSend_keeps (d a t : Reg) : Keeps (execSend d a t) :=
  keeps_issue fun s hs => by simp [hs]

@[simp] theorem execSendw_keeps (d a t : Reg) : Keeps (execSendw d a t) :=
  keeps_issue fun s hs => by simp [hs]

@[simp] theorem execExit_keeps (a t : Reg) : Keeps (execExit a t) := by
  refine keeps_issue fun s hs => ?_
  dsimp only
  (repeat' split) <;> simp [hs]

@[simp] theorem execBind_keeps (d p t : Reg) : Keeps (execBind d p t) := by
  refine keeps_issue fun s hs => ?_
  dsimp only
  (repeat' split) <;> simp -implicitDefEqProofs [hs]

@[simp] theorem execUnbind_keeps (d a : Reg) : Keeps (execUnbind d a) := by
  refine keeps_issue fun s hs => ?_
  dsimp only
  (repeat' split) <;> simp -implicitDefEqProofs [hs]

@[simp] theorem execYield_keeps : Keeps execYield :=
  keeps_issue fun s hs => by simp [hs]

@[simp] theorem execMbopen_keeps (d a : Reg) : Keeps (execMbopen d a) := by
  refine keeps_issue fun s hs => ?_
  dsimp only
  (repeat' split) <;> simp [hs]

@[simp] theorem execMbpub_keeps (d a t : Reg) : Keeps (execMbpub d a t) := by
  refine keeps_issue fun s hs => ?_
  dsimp only
  (repeat' split) <;> simp [hs]

@[simp] theorem execMbld_keeps (d a t : Reg) : Keeps (execMbld d a t) := by
  refine keeps_issue fun s hs => ?_
  dsimp only
  (repeat' split) <;> simp [hs]

@[simp] theorem execMbsnap_keeps (d a t : Reg) : Keeps (execMbsnap d a t) := by
  refine keeps_issue fun s hs => ?_
  dsimp only
  (repeat' split) <;> simp [hs]

@[simp] theorem execMbver_keeps (d a : Reg) : Keeps (execMbver d a) := by
  refine keeps_issue fun s hs => ?_
  dsimp only
  (repeat' split) <;> simp [hs]

@[simp] theorem execTnow_keeps (d : Reg) : Keeps (execTnow d) :=
  keeps_issue fun s hs => by simp [hs]

@[simp] theorem execTuntil_keeps (d p t : Reg) : Keeps (execTuntil d p t) := by
  refine keeps_issue fun s hs => ?_
  dsimp only
  (repeat' split) <;> simp [hs]

@[simp] theorem execSwget_keeps (d p t : Reg) : Keeps (execSwget d p t) := by
  refine keeps_issue fun s hs => ?_
  dsimp only
  (repeat' split) <;> simp [hs]

@[simp] theorem execSwadv_keeps (d p t : Reg) : Keeps (execSwadv d p t) := by
  refine keeps_issue fun s hs => ?_
  dsimp only
  (repeat' split) <;> simp [hs]

@[simp] theorem execGust_keeps (d a : Reg) : Keeps (execGust d a) := by
  refine keeps_issue fun s hs => ?_
  dsimp only
  (repeat' split) <;> simp [hs]

@[simp] theorem execGustrel_keeps (a : Reg) : Keeps (execGustrel a) := by
  refine keeps_issue fun s hs => ?_
  dsimp only
  split <;> simp [hs]

@[simp] theorem execGustq_keeps (d a : Reg) : Keeps (execGustq d a) := by
  refine keeps_issue fun s hs => ?_
  dsimp only
  split <;> simp [hs]

@[simp] theorem execQpost_keeps (d : Reg) : Keeps (execQpost d) := by
  refine keeps_issue fun s hs => ?_
  dsimp only
  split <;> simp [hs]

@[simp] theorem execQclaim_keeps (d a : Reg) : Keeps (execQclaim d a) := by
  refine keeps_issue fun s hs => ?_
  dsimp only
  (repeat' split) <;> simp [hs]

@[simp] theorem execHacc_keeps (a t : Reg) : Keeps (execHacc a t) := by
  refine keeps_issue fun s hs => ?_
  dsimp only
  (repeat' split) <;> simp [hs]

@[simp] theorem execLpin_keeps (d p : Reg) : Keeps (execLpin d p) := by
  refine keeps_issue fun s hs => ?_
  grind [Res.Canonical, lineOp_wfMem, pinLine_mem]

@[simp] theorem execLunpin_keeps (d p : Reg) : Keeps (execLunpin d p) := by
  refine keeps_issue fun s hs => ?_
  grind [Res.Canonical, lineOp_wfMem, unpinLine_mem]

@[simp] theorem execLfill_keeps (d p t : Reg) : Keeps (execLfill d p t) := by
  refine keeps_issue fun s hs => ?_
  grind [Res.Canonical, Res.state, lineOp_wfMem, fillLine_wfMem, accessTrap_wfMem]

@[simp] theorem execLdrop_keeps (d p t : Reg) : Keeps (execLdrop d p t) := by
  refine keeps_issue fun s hs => ?_
  grind [Res.Canonical, Res.state, lineOp_wfMem, discardLine_wfMem]

@[simp] theorem execLprobe_keeps (d p : Reg) : Keeps (execLprobe d p) := by
  refine keeps_issue fun s hs => ?_
  grind [Res.Canonical, lineOp_wfMem]

@[simp] theorem execGlaunch_keeps (d p : Reg) : Keeps (execGlaunch d p) :=
  keeps_issue fun s hs => by simp [hs]

@[simp] theorem execGabort_keeps (d a t : Reg) : Keeps (execGabort d a t) := by
  refine keeps_issue fun s hs => ?_
  dsimp only
  (repeat' split) <;> simp [hs]

@[simp] theorem execEcall_keeps : Keeps execEcall :=
  keeps_issue fun s hs => by simp [hs]

@[simp] theorem execEbreak_keeps : Keeps execEbreak := by
  refine keeps_issue fun s hs => ?_
  grind [Res.Canonical, Res.state, modTh_mem, debugStop_wfMem]

@[simp] theorem execEret_keeps : Keeps execEret :=
  keeps_issue fun s hs => by simp [hs]

@[simp] theorem execHalt_keeps : Keeps execHalt :=
  keeps_issue fun s hs => by simp [hs]

@[simp] theorem execTinv_keeps (p m : Reg) : Keeps (execTinv p m) := by
  refine keeps_issue fun s hs => ?_
  dsimp only
  (repeat' split) <;> simp [hs]

@[simp] theorem execCsrr_keeps (d : Reg) (c : BitVec 8) : Keeps (execCsrr d c) := by
  refine keeps_issue fun s hs => ?_
  split <;> simp [hs]

@[simp] theorem execCsrw_keeps (a : Reg) (c : BitVec 8) : Keeps (execCsrw a c) :=
  keeps_issue fun s hs => by simp [hs]

@[simp] theorem execCsrs_keeps (a : Reg) (c : BitVec 8) : Keeps (execCsrs a c) :=
  keeps_issue fun s hs => by simp [hs]

@[simp] theorem execCsrc_keeps (a : Reg) (c : BitVec 8) : Keeps (execCsrc a c) :=
  keeps_issue fun s hs => by simp [hs]

@[simp] theorem execEwr_keeps (p : Reg) (n : BitVec 6) : Keeps (execEwr p n) := by
  refine keeps_issue fun s hs => ?_
  split <;> simp [hs]

@[simp] theorem execErd_keeps (d : Reg) (n : BitVec 6) : Keeps (execErd d n) := by
  refine keeps_issue fun s hs => ?_
  split <;> simp [hs]

@[simp] theorem execSafe_keeps (h : BitVec 4) (n : BitVec 8) : Keeps (execSafe h n) := by
  refine keeps_issue fun s hs => ?_
  dsimp only
  split <;> simp [hs]

@[simp] theorem execPfxExt_keeps (p : BitVec 24) : Keeps (execPfxExt p) :=
  keeps_issue fun s hs => by simp [hs]

@[simp] theorem execPfxOpt_keeps (p : BitVec 24) : Keeps (execPfxOpt p) :=
  keeps_issue fun s hs => by simp [hs]

@[simp] theorem execIllegalEncoding_keeps (w : BitVec 32) : Keeps (execIllegalEncoding w) :=
  keeps_next fun s hs => ite_wfMem (pfxTrap_wfMem hs _) (finish_wfMem s hs)

@[simp] theorem execMessageArrival_keeps (i : Nat) : Keeps (execMessageArrival i) :=
  keeps_event fun s hs => by simp [hs]

@[simp] theorem execInboxPortAccept_keeps (core : Nat) :
    Keeps (execInboxPortAccept core) :=
  keeps_event fun s hs => by simp [hs]

@[simp] theorem execMessageDispatch_keeps (core : Nat) :
    Keeps (execMessageDispatch core) :=
  keeps_event fun s hs => by simp [hs]

@[simp] theorem execCreditReturn_keeps (i : Nat) : Keeps (execCreditReturn i) := by
  refine keeps_event fun s hs => ?_
  dsimp only
  (repeat' split) <;> simp [hs]

@[simp] theorem execSuccessorSend_keeps (core : Nat) : Keeps (execSuccessorSend core) := by
  refine keeps_event fun s hs => ?_
  dsimp only
  (repeat' split) <;> simp [hs]

@[simp] theorem execUnboundHoldExpiry_keeps (core : Nat) :
    Keeps (execUnboundHoldExpiry core) :=
  keeps_event fun s hs => by simp -implicitDefEqProofs [hs]

@[simp] theorem execGangRequestAccept_keeps : Keeps execGangRequestAccept :=
  keeps_event fun s hs => by simp [hs]

@[simp] theorem execPlacementPass_keeps : Keeps execPlacementPass :=
  keeps_event fun s hs => by simp [hs]

@[simp] theorem execGangMemberStart_keeps (core slot : Nat) : Keeps (execGangMemberStart core slot) := by
  refine keeps_event fun s hs => ?_
  split <;> simp [hs]

@[simp] theorem execTriggerNotice_keeps (i : Nat) : Keeps (execTriggerNotice i) := by
  refine keeps_event fun s hs => ?_
  split <;> simp [hs]

@[simp] theorem execL1ResizeComplete_keeps (core : Nat) :
    Keeps (execL1ResizeComplete core) :=
  keeps_event fun s hs => by simp [hs]

@[simp] theorem execPageWalkComplete_keeps (core slot : Nat) :
    Keeps (execPageWalkComplete core slot) :=
  keeps_event fun s hs => by simp [hs]

@[simp] theorem execTranslationReplay_keeps (t : FaultTarget) :
    Keeps (execTranslationReplay t) :=
  keeps_event fun s hs => by simp [hs]

@[simp] theorem execTranslationAbort_keeps (t : FaultTarget) :
    Keeps (execTranslationAbort t) :=
  keeps_event fun s hs => by simp [hs]

@[simp] theorem execStoreBufferPerform_keeps (core slot : Nat) :
    Keeps (execStoreBufferPerform core slot) :=
  keeps_event fun s hs => by simp [hs]

@[simp] theorem execHostMemoryAccess_keeps (a : HostAccess) :
    Keeps (execHostMemoryAccess a) :=
  keeps_event fun s hs => by simp [hs]

@[simp] theorem execMatrixCommandComplete_keeps (core : Nat) :
    Keeps (execMatrixCommandComplete core) :=
  keeps_event fun s hs => by simp [hs]

@[simp] theorem execLatchFillComplete_keeps (core buf : Nat) :
    Keeps (execLatchFillComplete core buf) :=
  keeps_event fun s hs => by simp [hs]

@[simp] theorem execHandoffClaim_keeps (core : Nat) : Keeps (execHandoffClaim core) :=
  keeps_event fun s hs => by simp [hs]

@[simp] theorem execHandoffComplete_keeps (core : Nat) :
    Keeps (execHandoffComplete core) :=
  keeps_event fun s hs => by simp [hs]

@[simp] theorem execMoverElement_keeps (core chan : Nat) :
    Keeps (execMoverElement core chan) :=
  keeps_event fun s hs => by simp [hs]

@[simp] theorem execChannelBeatArrival_keeps (i : Nat) : Keeps (execChannelBeatArrival i) := by
  refine keeps_event fun s hs => ?_
  split <;> simp [hs]

@[simp] theorem execChannelCreditReturn_keeps (i : Nat) : Keeps (execChannelCreditReturn i) := by
  refine keeps_event fun s hs => ?_
  split <;> simp [hs]

@[simp] theorem execRemoteCaddArrival_keeps (i : Nat) : Keeps (execRemoteCaddArrival i) := by
  refine keeps_event fun s hs => ?_
  split <;> simp [hs]

@[simp] theorem execSquallScan_keeps : Keeps execSquallScan :=
  keeps_event fun s hs => by simp [hs]

@[simp] theorem execTickDelivery_keeps (e : Nat) : Keeps (execTickDelivery e) :=
  keeps_event fun s hs => by simp [hs]

@[simp] theorem execTickStart_keeps (core slot : Nat) : Keeps (execTickStart core slot) := by
  refine keeps_event fun s hs => ?_
  split <;> simp [hs]

@[simp] theorem execBudgetExpiry_keeps (core slot : Nat) :
    Keeps (execBudgetExpiry core slot) :=
  keeps_event fun s hs => by simp [hs]

@[simp] theorem execBudgetKill_keeps (core slot : Nat) : Keeps (execBudgetKill core slot) := by
  refine keeps_event fun s hs => ?_
  grind [State.Canonical, budgetRecord_wfMem, mirrorKeep_mem, endThread_wfMem, swapBank_wfMem, gustOver_wfMem]

@[simp] theorem execMbsnapCopyComplete_keeps (i : Nat) :
    Keeps (execMbsnapCopyComplete i) :=
  keeps_event fun s hs => by simp [hs]

@[simp] theorem execGustCodeStart_keeps (core : Nat) : Keeps (execGustCodeStart core) := by
  refine keeps_event fun s hs => ?_
  split <;> simp [hs]

@[simp] theorem execGustHoldExpiry_keeps (p : Nat) : Keeps (execGustHoldExpiry p) := by
  refine keeps_event fun s hs => ?_
  split <;> simp [hs]

@[simp] theorem execGustRelocation_keeps (core : Nat) : Keeps (execGustRelocation core) := by
  refine keeps_event fun s hs => ?_
  split <;> simp [hs]

@[simp] theorem execHeartbeatSend_keeps : Keeps execHeartbeatSend :=
  keeps_event fun s hs => by simp [hs]

@[simp] theorem execHeartbeatReceive_keeps : Keeps execHeartbeatReceive :=
  keeps_event fun s hs => by simp [hs]

@[simp] theorem execHeartbeatWindowExpiry_keeps : Keeps execHeartbeatWindowExpiry := by
  refine keeps_event fun s hs => ?_
  dsimp only
  (repeat' split) <;> simp [hs]

@[simp] theorem execFatalErrorMessage_keeps : Keeps execFatalErrorMessage :=
  keeps_event fun s hs => by simp [hs]

@[simp] theorem execHsctlTake_keeps : Keeps execHsctlTake :=
  keeps_event fun s hs => by simp [hs]

@[simp] theorem execMirrorPublishReceive_keeps (p : MirrorPublish) : Keeps (execMirrorPublishReceive p) := by
  refine keeps_event fun s hs => ?_
  dsimp only
  split <;> simp [hs]

@[simp] theorem execKeepRegionMirrorReceive_keeps (k : KeepMirror) :
    Keeps (execKeepRegionMirrorReceive k) :=
  keeps_event fun s hs => by simp [hs]

@[simp] theorem execTimeSourceCorrection_keeps (ns : ℤ) :
    Keeps (execTimeSourceCorrection ns) :=
  keeps_event fun s hs => by simp [hs]

@[simp] theorem execStreamRecordArrival_keeps (mac : Nat) (r : Record) :
    Keeps (execStreamRecordArrival mac r) :=
  keeps_event fun s hs => by simp [hs]

@[simp] theorem execIngestRecordCommit_keeps (stream : Nat) :
    Keeps (execIngestRecordCommit stream) :=
  keeps_event fun s hs => by simp [hs]

@[simp] theorem execDecodeTick_keeps (stream : Nat) : Keeps (execDecodeTick stream) := by
  refine keeps_event fun s hs => ?_
  split <;> simp [hs]

@[simp] theorem execDecodeTickLate_keeps (stream : Nat) : Keeps (execDecodeTickLate stream) := by
  refine keeps_event fun s hs => ?_
  split <;> simp [hs]

@[simp] theorem execTuntilTimerExpiry_keeps (core i : Nat) : Keeps (execTuntilTimerExpiry core i) := by
  refine keeps_event fun s hs => ?_
  dsimp only
  (repeat' split) <;> simp -implicitDefEqProofs [hs]

@[simp] theorem execEgressLaunch_keeps (q : Nat) : Keeps (execEgressLaunch q) := by
  refine keeps_event fun s hs => ?_
  dsimp only
  split <;> simp [hs]

@[simp] theorem execServiceStepScheduler_keeps (r : ServiceReq) : Keeps (execServiceStepScheduler r) := by
  refine keeps_event fun s hs => ?_
  exact serviceEvent_wfMem hs fun t ht => by simp [ht]

@[simp] theorem execStepBoundary_keeps : Keeps execStepBoundary :=
  keeps_event fun s hs => by simp [hs]

@[simp] theorem execSamplingQueuePost_keeps (i : Nat) : Keeps (execSamplingQueuePost i) := by
  refine keeps_event fun s hs => ?_
  split <;> simp [hs]

@[simp] theorem execLineMissEvent_keeps (e : LineEvent) : Keeps (execLineMissEvent e) :=
  keeps_event fun s hs => by simp [hs]

@[simp] theorem execLineFillEvent_keeps (e : LineEvent) : Keeps (execLineFillEvent e) := by
  refine keeps_event fun s hs => ?_
  dsimp only
  split <;> simp [hs]

@[simp] theorem execLineEvictionEvent_keeps (e : LineEvent) : Keeps (execLineEvictionEvent e) := by
  refine keeps_event fun s hs => ?_
  dsimp only
  (repeat' split) <;> simp [hs]

@[simp] theorem execAgentBudgetExpiry_keeps (core slot : Nat) : Keeps (execAgentBudgetExpiry core slot) := by
  refine keeps_event fun s hs => ?_
  dsimp only
  (repeat' split) <;> simp [hs]

@[simp] theorem execLoaderStart_keeps (slice : Nat) : Keeps (execLoaderStart slice) := by
  refine keeps_event fun s hs => (State.canonical_iff _).mpr ?_
  rw [writeLdctl_mem]
  exact hs

@[simp] theorem execLoaderDescriptorComplete_keeps (slice : Nat) :
    Keeps (execLoaderDescriptorComplete slice) :=
  keeps_event fun s hs => by simp [hs]

@[simp] theorem execFgetParkRetry_keeps (core slot : Nat) :
    Keeps (execFgetParkRetry core slot) :=
  keeps_event fun s hs => by simp [hs]

@[simp] theorem execFutureWake_keeps (core slot : Nat) :
    Keeps (execFutureWake core slot) :=
  keeps_event fun s hs => by simp [hs]

@[simp] theorem execQueuePacketStart_keeps (core slot : Nat) :
    Keeps (execQueuePacketStart core slot) :=
  keeps_event fun s hs => by simp [hs]

@[simp] theorem execDoorbellWrite_keeps (q : Nat) (v : BitVec 64) :
    Keeps (execDoorbellWrite q v) :=
  keeps_event fun s hs => by simp [hs]

@[simp] theorem execReconcilePass_keeps : Keeps execReconcilePass :=
  keeps_event fun s hs => by simp [hs]

@[simp] theorem execServiceInstallContext_keeps (r : ServiceReq) : Keeps (execServiceInstallContext r) := by
  refine keeps_event fun s hs => ?_
  exact serviceEvent_wfMem hs fun t ht => by simp [ht]

@[simp] theorem execServiceShootdown_keeps (r : ServiceReq) : Keeps (execServiceShootdown r) := by
  refine keeps_event fun s hs => ?_
  exact serviceEvent_wfMem hs fun t ht => by simp [ht]

@[simp] theorem execShootdownComplete_keeps : Keeps execShootdownComplete := by
  refine keeps_event fun s hs => ?_
  split <;> simp [hs]

@[simp] theorem execServiceCreateQueue_keeps (r : ServiceReq) : Keeps (execServiceCreateQueue r) := by
  refine keeps_event fun s hs => ?_
  exact serviceEvent_wfMem hs fun t ht => by simp [ht]

@[simp] theorem execServiceDestroyQueue_keeps (r : ServiceReq) : Keeps (execServiceDestroyQueue r) := by
  refine keeps_event fun s hs => ?_
  exact serviceEvent_wfMem hs fun t ht => by simp [ht]

@[simp] theorem execQueueDestroyComplete_keeps (q : Nat) : Keeps (execQueueDestroyComplete q) := by
  refine keeps_event fun s hs => ?_
  split <;> simp [hs]

@[simp] theorem execServiceLoadCodeObject_keeps (r : ServiceReq) (o : CodeObject) : Keeps (execServiceLoadCodeObject r o) :=
  keeps_event fun _ hs => ite_wfMem hs (serviceEvent_wfMem hs fun _ ht => loadCode_wfMem ht _ _)

@[simp] theorem execServiceMigratePage_keeps (r : ServiceReq) : Keeps (execServiceMigratePage r) :=
  keeps_event fun _ hs => (State.canonical_iff _).mpr
    (serviceEvent_wfMem hs fun _ ht => (State.canonical_iff _).mpr (migratePage_wfMem ht _))

@[simp] theorem execServiceSetFrameOwner_keeps (r : ServiceReq) :
    Keeps (execServiceSetFrameOwner r) :=
  keeps_event fun s hs => by simp [hs]

@[simp] theorem execServiceUnknown_keeps (r : ServiceReq) : Keeps (execServiceUnknown r) := by
  refine keeps_event fun s hs => ?_
  grind [State.Canonical, takeService_mem, refuse_wfMem]

@[simp] theorem execThermalControlTick_keeps (temp power : Nat) :
    Keeps (execThermalControlTick temp power) :=
  keeps_event fun s hs => by simp [hs]

@[simp] theorem execPartitionEntryWrite_keeps (n : Nat) (v : BitVec 512) :
    Keeps (execPartitionEntryWrite n v) :=
  keeps_event fun s hs => by simp [hs]

@[simp] theorem execPartitionHalt_keeps (n : Nat) : Keeps (execPartitionHalt n) :=
  keeps_event fun s hs => by simp [hs]

@[simp] theorem execPartitionResume_keeps (n : Nat) : Keeps (execPartitionResume n) :=
  keeps_event fun s hs => by simp [hs]

@[simp] theorem execPartitionSave_keeps (n : Nat) : Keeps (execPartitionSave n) :=
  keeps_event fun s hs => by simp [hs]

@[simp] theorem execPartitionRestore_keeps (n : Nat) : Keeps (execPartitionRestore n) :=
  keeps_event fun s hs => by simp [hs]

@[simp] theorem execPartitionSpill_keeps (n : Nat) : Keeps (execPartitionSpill n) :=
  keeps_event fun s hs => by simp [hs]

@[simp] theorem execPartitionFill_keeps (n : Nat) : Keeps (execPartitionFill n) :=
  keeps_event fun s hs => by simp [hs]

@[simp] theorem execPartitionCommandComplete_keeps (n : Nat) :
    Keeps (execPartitionCommandComplete n) :=
  keeps_event fun s hs => by simp [hs]

@[simp] theorem execCorrectableError_keeps (u : ErrUnit) (addr : Nat) :
    Keeps (execCorrectableError u addr) :=
  keeps_event fun s hs => by simp [hs]

@[simp] theorem execUncorrectableError_keeps (u : ErrUnit) (addr : Nat) : Keeps (execUncorrectableError u addr) := by
  refine keeps_event fun s hs => ?_
  dsimp only
  (repeat' split) <;> simp [hs]

@[simp] theorem execFatalError_keeps (u : ErrUnit) (addr : Nat) :
    Keeps (execFatalError u addr) :=
  keeps_event fun s hs => by simp [hs]

@[simp] theorem execErrqWrite_keeps (v : BitVec 256) : Keeps (execErrqWrite v) :=
  keeps_event fun s hs => by simp [hs]

@[simp] theorem execMsixWindowExpiry_keeps (vec : Nat) :
    Keeps (execMsixWindowExpiry vec) :=
  keeps_event fun s hs => by simp [hs]

@[simp] theorem execDbgHaltreq_keeps (core : Nat) : Keeps (execDbgHaltreq core) :=
  keeps_event fun _ hs => (State.canonical_iff _).mpr (dbgCommand_wfMem hs _ _)

@[simp] theorem execDbgResume_keeps (core : Nat) : Keeps (execDbgResume core) :=
  keeps_event fun _ hs => (State.canonical_iff _).mpr (dbgCommand_wfMem hs _ _)

@[simp] theorem execDbgStep_keeps (core : Nat) : Keeps (execDbgStep core) :=
  keeps_event fun _ hs => (State.canonical_iff _).mpr (dbgCommand_wfMem hs _ _)

@[simp] theorem execDbgBksync_keeps (core : Nat) : Keeps (execDbgBksync core) :=
  keeps_event fun _ hs => (State.canonical_iff _).mpr (dbgCommand_wfMem hs _ _)

@[simp] theorem execBksyncComplete_keeps (core : Nat) :
    Keeps (execBksyncComplete core) :=
  keeps_event fun s hs => by simp [hs]

@[simp] theorem execDbgdatAccess_keeps (core : Nat) (w : Option (BitVec 64)) : Keeps (execDbgdatAccess core w) := by
  refine keeps_event fun s hs => ?_
  split <;> simp [hs]

@[simp] theorem execLogDwellExpiry_keeps (core slot : Nat) :
    Keeps (execLogDwellExpiry core slot) :=
  keeps_event fun s hs => by simp [hs]

@[simp] theorem execLogctlWrite_keeps (core : Nat) (v : BitVec 64) :
    Keeps (execLogctlWrite core v) :=
  keeps_event fun s hs => by simp [hs]

@[simp] theorem execPmselWrite_keeps (core : Nat) (v : BitVec 64) :
    Keeps (execPmselWrite core v) :=
  keeps_event fun s hs => by simp [hs]

@[simp] theorem execTickEntryWrite_keeps (e : Nat) (v : BitVec 256) :
    Keeps (execTickEntryWrite e v) :=
  keeps_event fun s hs => by simp [hs]

@[simp] theorem execMailboxSlotWrite_keeps (n : Nat) (v : BitVec 128) :
    Keeps (execMailboxSlotWrite n v) :=
  keeps_event fun s hs => by simp [hs]

@[simp] theorem execGustPoolWrite_keeps (v : BitVec 256) : Keeps (execGustPoolWrite v) :=
  keeps_event fun s hs => by simp [hs]

@[simp] theorem execGustProfileWrite_keeps (p : Nat) (v : BitVec 128) :
    Keeps (execGustProfileWrite p v) :=
  keeps_event fun s hs => by simp [hs]

@[simp] theorem execTmctlWrite_keeps (v : BitVec 32) : Keeps (execTmctlWrite v) :=
  keeps_event fun s hs => by simp [hs]

@[simp] theorem execTimedStreamWrite_keeps (stream : Nat) (v : BitVec 512) :
    Keeps (execTimedStreamWrite stream v) :=
  keeps_event fun s hs => by simp [hs]

@[simp] theorem execTreeTemplateWrite_keeps (j : Nat) (v : BitVec 2048) :
    Keeps (execTreeTemplateWrite j v) :=
  keeps_event fun s hs => by simp [hs]

@[simp] theorem execEventTableRowWrite_keeps (slice r : Nat) (v : BitVec 128) :
    Keeps (execEventTableRowWrite slice r v) :=
  keeps_event fun s hs => by simp [hs]

@[simp] theorem execSqcfgWrite_keeps (v : BitVec 32) : Keeps (execSqcfgWrite v) :=
  keeps_event fun s hs => by simp [hs]

@[simp] theorem execShedctlWrite_keeps (v : BitVec 32) : Keeps (execShedctlWrite v) :=
  keeps_event fun s hs => by simp [hs]

@[simp] theorem execFeataccWrite_keeps (v : BitVec 256) : Keeps (execFeataccWrite v) :=
  keeps_event fun s hs => by simp [hs]

@[simp] theorem execPerstRelease_keeps : Keeps execPerstRelease :=
  keeps_event fun s hs => by simp [hs]

@[simp] theorem execBootGo_keeps : Keeps execBootGo :=
  keeps_event fun s hs => by simp [hs]

@[simp] theorem execBootVerifyComplete_keeps (i : BootImage) : Keeps (execBootVerifyComplete i) := by
  refine keeps_event fun s hs => ?_
  grind [State.Canonical, bootCopy_wfMem, bootFail_mem, measure_wfMem]

@[simp] theorem execAttestRequest_keeps : Keeps execAttestRequest :=
  keeps_event fun s hs => by simp [hs]

@[simp] theorem execAttestComplete_keeps : Keeps execAttestComplete :=
  keeps_event fun s hs => by simp [hs]

@[simp] theorem execRegisterWrite_keeps (off size v : Nat) :
    Keeps (execRegisterWrite off size v) :=
  keeps_event fun s hs => by simp [hs]

@[simp] theorem execRequestResponse_keeps (core slot : Nat) :
    Keeps (execRequestResponse core slot) :=
  keeps_event fun s hs => by simp [hs]

@[simp] theorem execWrsTimeout_keeps (core slot : Nat) :
    Keeps (execWrsTimeout core slot) :=
  keeps_event fun s hs => by simp [hs]

@[simp] theorem execBarrierArrival_keeps (i : Nat) : Keeps (execBarrierArrival i) := by
  refine keeps_event fun s hs => ?_
  split <;> simp [hs]

@[simp] theorem execPerstAssert_keeps : Keeps execPerstAssert :=
  keeps_event fun s hs => by simp [hs]

@[simp] theorem execSourceLockLoss_keeps : Keeps execSourceLockLoss :=
  keeps_event fun s hs => by simp [hs]

/-- No instruction and no event takes memory out of its form. -/
theorem exec_keeps (i : Instr) : Keeps (exec i) := by
  cases i with
  | add _ _ _ => exact execAdd_keeps _ _ _
  | sub _ _ _ => exact execSub_keeps _ _ _
  | and _ _ _ => exact execAnd_keeps _ _ _
  | or _ _ _ => exact execOr_keeps _ _ _
  | xor _ _ _ => exact execXor_keeps _ _ _
  | andn _ _ _ => exact execAndn_keeps _ _ _
  | sll _ _ _ => exact execSll_keeps _ _ _
  | srl _ _ _ => exact execSrl_keeps _ _ _
  | sra _ _ _ => exact execSra_keeps _ _ _
  | rol _ _ _ => exact execRol_keeps _ _ _
  | slt _ _ _ => exact execSlt_keeps _ _ _
  | sltu _ _ _ => exact execSltu_keeps _ _ _
  | min _ _ _ => exact execMin_keeps _ _ _
  | max _ _ _ => exact execMax_keeps _ _ _
  | minu _ _ _ => exact execMinu_keeps _ _ _
  | maxu _ _ _ => exact execMaxu_keeps _ _ _
  | mul _ _ _ => exact execMul_keeps _ _ _
  | mulh _ _ _ => exact execMulh_keeps _ _ _
  | mulhu _ _ _ => exact execMulhu_keeps _ _ _
  | div _ _ _ => exact execDiv_keeps _ _ _
  | divu _ _ _ => exact execDivu_keeps _ _ _
  | rem _ _ _ => exact execRem_keeps _ _ _
  | remu _ _ _ => exact execRemu_keeps _ _ _
  | clz _ _ => exact execClz_keeps _ _
  | ctz _ _ => exact execCtz_keeps _ _
  | popc _ _ => exact execPopc_keeps _ _
  | sextB _ _ => exact execSextB_keeps _ _
  | sextH _ _ => exact execSextH_keeps _ _
  | zextB _ _ => exact execZextB_keeps _ _
  | zextH _ _ => exact execZextH_keeps _ _
  | bfx _ _ _ => exact execBfx_keeps _ _ _
  | bfi _ _ _ => exact execBfi_keeps _ _ _
  | addi _ _ _ => exact execAddi_keeps _ _ _
  | andi _ _ _ => exact execAndi_keeps _ _ _
  | ori _ _ _ => exact execOri_keeps _ _ _
  | xori _ _ _ => exact execXori_keeps _ _ _
  | slti _ _ _ => exact execSlti_keeps _ _ _
  | sltiu _ _ _ => exact execSltiu_keeps _ _ _
  | lui _ _ => exact execLui_keeps _ _
  | slli _ _ _ => exact execSlli_keeps _ _ _
  | srli _ _ _ => exact execSrli_keeps _ _ _
  | srai _ _ _ => exact execSrai_keeps _ _ _
  | addpi _ _ _ => exact execAddpi_keeps _ _ _
  | addp _ _ _ => exact execAddp_keeps _ _ _
  | subp _ _ _ => exact execSubp_keeps _ _ _
  | movp _ _ => exact execMovp_keeps _ _
  | beq _ _ _ => exact execBeq_keeps _ _ _
  | bne _ _ _ => exact execBne_keeps _ _ _
  | blt _ _ _ => exact execBlt_keeps _ _ _
  | bge _ _ _ => exact execBge_keeps _ _ _
  | bltu _ _ _ => exact execBltu_keeps _ _ _
  | bgeu _ _ _ => exact execBgeu_keeps _ _ _
  | bkany _ _ => exact execBkany_keeps _ _
  | bkall _ _ => exact execBkall_keeps _ _
  | bknone _ _ => exact execBknone_keeps _ _
  | bceos _ _ => exact execBceos_keeps _ _
  | j _ => exact execJ_keeps _
  | jal _ => exact execJal_keeps _
  | jalr _ _ _ => exact execJalr_keeps _ _ _
  | jalrFar _ _ _ => exact execJalrFar_keeps _ _ _
  | dbnz _ _ => exact execDbnz_keeps _ _
  | lb _ _ _ => exact execLb_keeps _ _ _
  | lbu _ _ _ => exact execLbu_keeps _ _ _
  | lh _ _ _ => exact execLh_keeps _ _ _
  | lhu _ _ _ => exact execLhu_keeps _ _ _
  | lw _ _ _ => exact execLw_keeps _ _ _
  | ld _ _ _ => exact execLd_keeps _ _ _
  | sb _ _ _ => exact execSb_keeps _ _ _
  | sh _ _ _ => exact execSh_keeps _ _ _
  | sw _ _ _ => exact execSw_keeps _ _ _
  | sd _ _ _ => exact execSd_keeps _ _ _
  | vld _ _ _ _ => exact execVld_keeps _ _ _ _
  | vst _ _ _ _ => exact execVst_keeps _ _ _ _
  | pf _ _ _ => exact execPf_keeps _ _ _
  | amoaddW _ _ _ _ _ _ => exact execAmoaddW_keeps _ _ _ _ _ _
  | amoaddD _ _ _ _ _ _ => exact execAmoaddD_keeps _ _ _ _ _ _
  | amoandW _ _ _ _ _ _ => exact execAmoandW_keeps _ _ _ _ _ _
  | amoandD _ _ _ _ _ _ => exact execAmoandD_keeps _ _ _ _ _ _
  | amoorW _ _ _ _ _ _ => exact execAmoorW_keeps _ _ _ _ _ _
  | amoorD _ _ _ _ _ _ => exact execAmoorD_keeps _ _ _ _ _ _
  | amoxorW _ _ _ _ _ _ => exact execAmoxorW_keeps _ _ _ _ _ _
  | amoxorD _ _ _ _ _ _ => exact execAmoxorD_keeps _ _ _ _ _ _
  | amominW _ _ _ _ _ _ => exact execAmominW_keeps _ _ _ _ _ _
  | amominD _ _ _ _ _ _ => exact execAmominD_keeps _ _ _ _ _ _
  | amomaxW _ _ _ _ _ _ => exact execAmomaxW_keeps _ _ _ _ _ _
  | amomaxD _ _ _ _ _ _ => exact execAmomaxD_keeps _ _ _ _ _ _
  | amominuW _ _ _ _ _ _ => exact execAmominuW_keeps _ _ _ _ _ _
  | amominuD _ _ _ _ _ _ => exact execAmominuD_keeps _ _ _ _ _ _
  | amomaxuW _ _ _ _ _ _ => exact execAmomaxuW_keeps _ _ _ _ _ _
  | amomaxuD _ _ _ _ _ _ => exact execAmomaxuD_keeps _ _ _ _ _ _
  | amoswapW _ _ _ _ _ _ => exact execAmoswapW_keeps _ _ _ _ _ _
  | amoswapD _ _ _ _ _ _ => exact execAmoswapD_keeps _ _ _ _ _ _
  | amofadd _ _ _ _ _ _ => exact execAmofadd_keeps _ _ _ _ _ _
  | casW _ _ _ _ _ _ => exact execCasW_keeps _ _ _ _ _ _
  | casD _ _ _ _ _ _ => exact execCasD_keeps _ _ _ _ _ _
  | lrW _ _ _ _ _ => exact execLrW_keeps _ _ _ _ _
  | lrD _ _ _ _ _ => exact execLrD_keeps _ _ _ _ _
  | scW _ _ _ _ _ _ => exact execScW_keeps _ _ _ _ _ _
  | scD _ _ _ _ _ _ => exact execScD_keeps _ _ _ _ _ _
  | fence _ _ _ => exact execFence_keeps _ _ _
  | fencei => exact execFencei_keeps
  | barv _ _ _ => exact execBarv_keeps _ _ _
  | barw _ _ _ => exact execBarw_keeps _ _ _
  | trig => exact execTrig_keeps
  | waitdep _ => exact execWaitdep_keeps _
  | wrs _ _ => exact execWrs_keeps _ _
  | fput _ _ _ => exact execFput_keeps _ _ _
  | fget _ _ => exact execFget_keeps _ _
  | freset _ _ => exact execFreset_keeps _ _
  | vadd _ _ _ _ _ _ => exact execVadd_keeps _ _ _ _ _ _
  | vsub _ _ _ _ _ _ => exact execVsub_keeps _ _ _ _ _ _
  | vmul _ _ _ _ _ _ => exact execVmul_keeps _ _ _ _ _ _
  | vmin _ _ _ _ _ _ => exact execVmin_keeps _ _ _ _ _ _
  | vmax _ _ _ _ _ _ => exact execVmax_keeps _ _ _ _ _ _
  | vabs _ _ _ _ => exact execVabs_keeps _ _ _ _
  | vneg _ _ _ _ => exact execVneg_keeps _ _ _ _
  | vand _ _ _ _ _ => exact execVand_keeps _ _ _ _ _
  | vor _ _ _ _ _ => exact execVor_keeps _ _ _ _ _
  | vxor _ _ _ _ _ => exact execVxor_keeps _ _ _ _ _
  | vandn _ _ _ _ _ => exact execVandn_keeps _ _ _ _ _
  | vsll _ _ _ _ _ => exact execVsll_keeps _ _ _ _ _
  | vsrl _ _ _ _ _ => exact execVsrl_keeps _ _ _ _ _
  | vsra _ _ _ _ _ => exact execVsra_keeps _ _ _ _ _
  | vclamp _ _ _ _ _ _ => exact execVclamp_keeps _ _ _ _ _ _
  | vdot _ _ _ _ _ _ => exact execVdot_keeps _ _ _ _ _ _
  | vaddF _ _ _ _ _ => exact execVaddF_keeps _ _ _ _ _
  | vsubF _ _ _ _ _ => exact execVsubF_keeps _ _ _ _ _
  | vmulF _ _ _ _ _ => exact execVmulF_keeps _ _ _ _ _
  | vminF _ _ _ _ _ => exact execVminF_keeps _ _ _ _ _
  | vmaxF _ _ _ _ _ => exact execVmaxF_keeps _ _ _ _ _
  | vabsF _ _ _ _ => exact execVabsF_keeps _ _ _ _
  | vnegF _ _ _ _ => exact execVnegF_keeps _ _ _ _
  | vfma _ _ _ _ _ => exact execVfma_keeps _ _ _ _ _
  | vfms _ _ _ _ _ => exact execVfms_keeps _ _ _ _ _
  | vclampF _ _ _ _ _ => exact execVclampF_keeps _ _ _ _ _
  | vdotF _ _ _ _ _ => exact execVdotF_keeps _ _ _ _ _
  | vcmpEq _ _ _ _ _ _ => exact execVcmpEq_keeps _ _ _ _ _ _
  | vcmpNe _ _ _ _ _ _ => exact execVcmpNe_keeps _ _ _ _ _ _
  | vcmpLt _ _ _ _ _ _ => exact execVcmpLt_keeps _ _ _ _ _ _
  | vcmpLe _ _ _ _ _ _ => exact execVcmpLe_keeps _ _ _ _ _ _
  | vcmpGt _ _ _ _ _ _ => exact execVcmpGt_keeps _ _ _ _ _ _
  | vcmpGe _ _ _ _ _ _ => exact execVcmpGe_keeps _ _ _ _ _ _
  | vsel _ _ _ _ _ => exact execVsel_keeps _ _ _ _ _
  | kmovX _ _ => exact execKmovX_keeps _ _
  | kand _ _ _ => exact execKand_keeps _ _ _
  | kor _ _ _ => exact execKor_keeps _ _ _
  | kxor _ _ _ => exact execKxor_keeps _ _ _
  | knot _ _ => exact execKnot_keeps _ _
  | kmovK _ _ => exact execKmovK_keeps _ _
  | kpopc _ _ => exact execKpopc_keeps _ _
  | kfirst _ _ => exact execKfirst_keeps _ _
  | kgen _ _ => exact execKgen_keeps _ _
  | vcvt _ _ _ _ _ => exact execVcvt_keeps _ _ _ _ _
  | vexp2 _ _ _ _ => exact execVexp2_keeps _ _ _ _
  | vlog2 _ _ _ _ => exact execVlog2_keeps _ _ _ _
  | vrcp _ _ _ _ => exact execVrcp_keeps _ _ _ _
  | vrsqrt _ _ _ _ => exact execVrsqrt_keeps _ _ _ _
  | vpopc _ _ _ _ => exact execVpopc_keeps _ _ _ _
  | vredsum _ _ _ _ _ => exact execVredsum_keeps _ _ _ _ _
  | vredmax _ _ _ _ _ => exact execVredmax_keeps _ _ _ _ _
  | vredmin _ _ _ _ _ => exact execVredmin_keeps _ _ _ _ _
  | vargmax _ _ _ _ _ => exact execVargmax_keeps _ _ _ _ _
  | vscan _ _ _ _ => exact execVscan_keeps _ _ _ _
  | vperm _ _ _ _ _ => exact execVperm_keeps _ _ _ _ _
  | vslide _ _ _ _ _ => exact execVslide_keeps _ _ _ _ _
  | vtopk _ _ _ _ _ _ => exact execVtopk_keeps _ _ _ _ _ _
  | vbcast _ _ _ _ => exact execVbcast_keeps _ _ _ _
  | vmvx _ _ _ _ => exact execVmvx_keeps _ _ _ _
  | vins _ _ _ _ => exact execVins_keeps _ _ _ _
  | vmov _ _ _ _ => exact execVmov_keeps _ _ _ _
  | vldg _ _ _ _ _ => exact execVldg_keeps _ _ _ _ _
  | vsts _ _ _ _ _ => exact execVsts_keeps _ _ _ _ _
  | mma _ _ => exact execMma_keeps _ _
  | mmv _ _ => exact execMmv_keeps _ _
  | mldb _ _ => exact execMldb_keeps _ _
  | mldbS _ _ => exact execMldbS_keeps _ _
  | mst _ _ => exact execMst_keeps _ _
  | mrd _ _ _ => exact execMrd_keeps _ _ _
  | mzero _ => exact execMzero_keeps _
  | mring _ _ _ => exact execMring_keeps _ _ _
  | mvgo _ _ => exact execMvgo_keeps _ _
  | mvred _ _ => exact execMvred_keeps _ _
  | mvst _ _ => exact execMvst_keeps _ _
  | mvkill _ => exact execMvkill_keeps _
  | sbind _ _ _ => exact execSbind_keeps _ _ _
  | cbind _ _ _ => exact execCbind_keeps _ _ _
  | sunbind _ => exact execSunbind_keeps _
  | cret _ => exact execCret_keeps _
  | ceos _ => exact execCeos_keeps _
  | cwait _ _ _ => exact execCwait_keeps _ _ _
  | cadd _ _ => exact execCadd_keeps _ _
  | cset _ _ => exact execCset_keeps _ _
  | crd _ _ => exact execCrd_keeps _ _
  | mw _ _ => exact execMw_keeps _ _
  | send _ _ _ => exact execSend_keeps _ _ _
  | sendw _ _ _ => exact execSendw_keeps _ _ _
  | exit _ _ => exact execExit_keeps _ _
  | bind _ _ _ => exact execBind_keeps _ _ _
  | unbind _ _ => exact execUnbind_keeps _ _
  | yield => exact execYield_keeps
  | mbopen _ _ => exact execMbopen_keeps _ _
  | mbpub _ _ _ => exact execMbpub_keeps _ _ _
  | mbld _ _ _ => exact execMbld_keeps _ _ _
  | mbsnap _ _ _ => exact execMbsnap_keeps _ _ _
  | mbver _ _ => exact execMbver_keeps _ _
  | tnow _ => exact execTnow_keeps _
  | tuntil _ _ _ => exact execTuntil_keeps _ _ _
  | swget _ _ _ => exact execSwget_keeps _ _ _
  | swadv _ _ _ => exact execSwadv_keeps _ _ _
  | gust _ _ => exact execGust_keeps _ _
  | gustrel _ => exact execGustrel_keeps _
  | gustq _ _ => exact execGustq_keeps _ _
  | qpost _ => exact execQpost_keeps _
  | qclaim _ _ => exact execQclaim_keeps _ _
  | hacc _ _ => exact execHacc_keeps _ _
  | lpin _ _ => exact execLpin_keeps _ _
  | lunpin _ _ => exact execLunpin_keeps _ _
  | lfill _ _ _ => exact execLfill_keeps _ _ _
  | ldrop _ _ _ => exact execLdrop_keeps _ _ _
  | lprobe _ _ => exact execLprobe_keeps _ _
  | glaunch _ _ => exact execGlaunch_keeps _ _
  | gabort _ _ _ => exact execGabort_keeps _ _ _
  | ecall => exact execEcall_keeps
  | ebreak => exact execEbreak_keeps
  | eret => exact execEret_keeps
  | halt => exact execHalt_keeps
  | tinv _ _ => exact execTinv_keeps _ _
  | csrr _ _ => exact execCsrr_keeps _ _
  | csrw _ _ => exact execCsrw_keeps _ _
  | csrs _ _ => exact execCsrs_keeps _ _
  | csrc _ _ => exact execCsrc_keeps _ _
  | ewr _ _ => exact execEwr_keeps _ _
  | erd _ _ => exact execErd_keeps _ _
  | safe _ _ => exact execSafe_keeps _ _
  | pfxExt _ => exact execPfxExt_keeps _
  | pfxOpt _ => exact execPfxOpt_keeps _
  | illegalEncoding _ => exact execIllegalEncoding_keeps _
  | messageArrival _ => exact execMessageArrival_keeps _
  | inboxPortAccept _ => exact execInboxPortAccept_keeps _
  | messageDispatch _ => exact execMessageDispatch_keeps _
  | creditReturn _ => exact execCreditReturn_keeps _
  | successorSend _ => exact execSuccessorSend_keeps _
  | unboundHoldExpiry _ => exact execUnboundHoldExpiry_keeps _
  | gangRequestAccept => exact execGangRequestAccept_keeps
  | placementPass => exact execPlacementPass_keeps
  | gangMemberStart _ _ => exact execGangMemberStart_keeps _ _
  | triggerNotice _ => exact execTriggerNotice_keeps _
  | l1ResizeComplete _ => exact execL1ResizeComplete_keeps _
  | pageWalkComplete _ _ => exact execPageWalkComplete_keeps _ _
  | translationReplay _ => exact execTranslationReplay_keeps _
  | translationAbort _ => exact execTranslationAbort_keeps _
  | storeBufferPerform _ _ => exact execStoreBufferPerform_keeps _ _
  | hostMemoryAccess _ => exact execHostMemoryAccess_keeps _
  | matrixCommandComplete _ => exact execMatrixCommandComplete_keeps _
  | latchFillComplete _ _ => exact execLatchFillComplete_keeps _ _
  | handoffClaim _ => exact execHandoffClaim_keeps _
  | handoffComplete _ => exact execHandoffComplete_keeps _
  | moverElement _ _ => exact execMoverElement_keeps _ _
  | channelBeatArrival _ => exact execChannelBeatArrival_keeps _
  | channelCreditReturn _ => exact execChannelCreditReturn_keeps _
  | remoteCaddArrival _ => exact execRemoteCaddArrival_keeps _
  | squallScan => exact execSquallScan_keeps
  | tickDelivery _ => exact execTickDelivery_keeps _
  | tickStart _ _ => exact execTickStart_keeps _ _
  | budgetExpiry _ _ => exact execBudgetExpiry_keeps _ _
  | budgetKill _ _ => exact execBudgetKill_keeps _ _
  | mbsnapCopyComplete _ => exact execMbsnapCopyComplete_keeps _
  | gustCodeStart _ => exact execGustCodeStart_keeps _
  | gustHoldExpiry _ => exact execGustHoldExpiry_keeps _
  | gustRelocation _ => exact execGustRelocation_keeps _
  | heartbeatSend => exact execHeartbeatSend_keeps
  | heartbeatReceive => exact execHeartbeatReceive_keeps
  | heartbeatWindowExpiry => exact execHeartbeatWindowExpiry_keeps
  | fatalErrorMessage => exact execFatalErrorMessage_keeps
  | hsctlTake => exact execHsctlTake_keeps
  | mirrorPublishReceive _ => exact execMirrorPublishReceive_keeps _
  | keepRegionMirrorReceive _ => exact execKeepRegionMirrorReceive_keeps _
  | timeSourceCorrection _ => exact execTimeSourceCorrection_keeps _
  | streamRecordArrival _ _ => exact execStreamRecordArrival_keeps _ _
  | ingestRecordCommit _ => exact execIngestRecordCommit_keeps _
  | decodeTick _ => exact execDecodeTick_keeps _
  | decodeTickLate _ => exact execDecodeTickLate_keeps _
  | tuntilTimerExpiry _ _ => exact execTuntilTimerExpiry_keeps _ _
  | egressLaunch _ => exact execEgressLaunch_keeps _
  | serviceStepScheduler _ => exact execServiceStepScheduler_keeps _
  | stepBoundary => exact execStepBoundary_keeps
  | samplingQueuePost _ => exact execSamplingQueuePost_keeps _
  | lineMissEvent _ => exact execLineMissEvent_keeps _
  | lineFillEvent _ => exact execLineFillEvent_keeps _
  | lineEvictionEvent _ => exact execLineEvictionEvent_keeps _
  | agentBudgetExpiry _ _ => exact execAgentBudgetExpiry_keeps _ _
  | loaderStart _ => exact execLoaderStart_keeps _
  | loaderDescriptorComplete _ => exact execLoaderDescriptorComplete_keeps _
  | fgetParkRetry _ _ => exact execFgetParkRetry_keeps _ _
  | futureWake _ _ => exact execFutureWake_keeps _ _
  | queuePacketStart _ _ => exact execQueuePacketStart_keeps _ _
  | doorbellWrite _ _ => exact execDoorbellWrite_keeps _ _
  | reconcilePass => exact execReconcilePass_keeps
  | serviceInstallContext _ => exact execServiceInstallContext_keeps _
  | serviceShootdown _ => exact execServiceShootdown_keeps _
  | shootdownComplete => exact execShootdownComplete_keeps
  | serviceCreateQueue _ => exact execServiceCreateQueue_keeps _
  | serviceDestroyQueue _ => exact execServiceDestroyQueue_keeps _
  | queueDestroyComplete _ => exact execQueueDestroyComplete_keeps _
  | serviceLoadCodeObject _ _ => exact execServiceLoadCodeObject_keeps _ _
  | serviceMigratePage _ => exact execServiceMigratePage_keeps _
  | serviceSetFrameOwner _ => exact execServiceSetFrameOwner_keeps _
  | serviceUnknown _ => exact execServiceUnknown_keeps _
  | thermalControlTick _ _ => exact execThermalControlTick_keeps _ _
  | partitionEntryWrite _ _ => exact execPartitionEntryWrite_keeps _ _
  | partitionHalt _ => exact execPartitionHalt_keeps _
  | partitionResume _ => exact execPartitionResume_keeps _
  | partitionSave _ => exact execPartitionSave_keeps _
  | partitionRestore _ => exact execPartitionRestore_keeps _
  | partitionSpill _ => exact execPartitionSpill_keeps _
  | partitionFill _ => exact execPartitionFill_keeps _
  | partitionCommandComplete _ => exact execPartitionCommandComplete_keeps _
  | correctableError _ _ => exact execCorrectableError_keeps _ _
  | uncorrectableError _ _ => exact execUncorrectableError_keeps _ _
  | fatalError _ _ => exact execFatalError_keeps _ _
  | errqWrite _ => exact execErrqWrite_keeps _
  | msixWindowExpiry _ => exact execMsixWindowExpiry_keeps _
  | dbgHaltreq _ => exact execDbgHaltreq_keeps _
  | dbgResume _ => exact execDbgResume_keeps _
  | dbgStep _ => exact execDbgStep_keeps _
  | dbgBksync _ => exact execDbgBksync_keeps _
  | bksyncComplete _ => exact execBksyncComplete_keeps _
  | dbgdatAccess _ _ => exact execDbgdatAccess_keeps _ _
  | logDwellExpiry _ _ => exact execLogDwellExpiry_keeps _ _
  | logctlWrite _ _ => exact execLogctlWrite_keeps _ _
  | pmselWrite _ _ => exact execPmselWrite_keeps _ _
  | tickEntryWrite _ _ => exact execTickEntryWrite_keeps _ _
  | mailboxSlotWrite _ _ => exact execMailboxSlotWrite_keeps _ _
  | gustPoolWrite _ => exact execGustPoolWrite_keeps _
  | gustProfileWrite _ _ => exact execGustProfileWrite_keeps _ _
  | tmctlWrite _ => exact execTmctlWrite_keeps _
  | timedStreamWrite _ _ => exact execTimedStreamWrite_keeps _ _
  | treeTemplateWrite _ _ => exact execTreeTemplateWrite_keeps _ _
  | eventTableRowWrite _ _ _ => exact execEventTableRowWrite_keeps _ _ _
  | sqcfgWrite _ => exact execSqcfgWrite_keeps _
  | shedctlWrite _ => exact execShedctlWrite_keeps _
  | feataccWrite _ => exact execFeataccWrite_keeps _
  | perstRelease => exact execPerstRelease_keeps
  | bootGo => exact execBootGo_keeps
  | bootVerifyComplete _ => exact execBootVerifyComplete_keeps _
  | attestRequest => exact execAttestRequest_keeps
  | attestComplete => exact execAttestComplete_keeps
  | registerWrite _ _ _ => exact execRegisterWrite_keeps _ _ _
  | requestResponse _ _ => exact execRequestResponse_keeps _ _
  | wrsTimeout _ _ => exact execWrsTimeout_keeps _ _
  | barrierArrival _ => exact execBarrierArrival_keeps _
  | perstAssert => exact execPerstAssert_keeps
  | sourceLockLoss => exact execSourceLockLoss_keeps

/-! The turn of a thread, the events that come by themselves, and the step. -/

/-- What stands before a fetch keeps the form of memory, whether the slot goes on or settles. -/
theorem before_wfMem {s : State} (hs : WfMem s.mem) (c n : Nat) {t : State} :
    (s.before c n = .go t → WfMem t.mem) ∧ (s.before c n = .settle t → WfMem t.mem) := by
  have go : (Before.go s = .go t → WfMem t.mem) ∧ (Before.go s = .settle t → WfMem t.mem) :=
    ⟨fun h => Before.go.inj h ▸ hs, fun h => nomatch h⟩
  have settle {u : State} (hu : WfMem u.mem) :
      (Before.settle u = .go t → WfMem t.mem) ∧ (Before.settle u = .settle t → WfMem t.mem) :=
    ⟨fun h => (nomatch h), fun h => Before.settle.inj h ▸ hu⟩
  simp only [State.before]
  split
  · exact settle (debugStop_wfMem hs _ _ _)
  · split
    · exact settle (settleTrap_wfMem hs _ _)
    · split
      · exact settle (budgetTrap_wfMem hs _ _)
      · split
        · split
          · exact settle (faultQueue_wfMem hs _ _ _ _)
          · exact go
        · exact go

theorem fetch_wfMem {s : State} (hs : WfMem s.mem) (c n : Nat) {w : FetchedWord} {t : State} (h : s.fetch c n = .word w t) :
    WfMem t.mem := by
  simp only [State.fetch] at h
  split at h
  · cases h
  · cases h
  next u hu =>
    have hm : WfMem u.mem := by
      rw [fetchHeader_mem _ _ _ hu]
      exact hs
    split at h
    · cases h
    · cases h
    · cases h
      exact fetchWord_wfMem (ite_wfMem (by simpa using hm) hm) _ _ _ _

theorem execWord_keeps (w : Word) : Keeps (execWord w) := by
  intro s t hs h
  unfold execWord at h
  split at h <;> exact exec_keeps _ hs h

theorem retry_wfMem {s : State} (hs : WfMem s.mem) (c n : Nat) {r : Out} (hr : ∀ u, r = .next u → WfMem u.mem) {t : State}
    (h : s.retry c n r = .next t) : WfMem t.mem := by
  unfold State.retry at h
  split at h
  next u =>
    have hu : WfMem u.mem := hr u rfl
    split at h
    · cases h
      exact hu
    · cases h
      exact hu
    · split at h <;> cases h
      · exact hu
      · exact hs
  next => exact hr t h

theorem runThread_keeps (c n : Nat) : Keeps (runThread c n) := by
  intro s t hs h
  unfold runThread at h
  split at h
  · cases h
  · split at h
    · cases h
      exact hs
    · extract_lets u at h
      have hu : WfMem u.mem := hs
      split at h
      next v hb =>
        cases h
        exact (before_wfMem hu c n).2 hb
      next v hb =>
        have hv : WfMem v.mem := (before_wfMem hu c n).1 hb
        split at h
        · cases h
          simp [hv]
        · cases h
          simpa using hv
        next w x hf =>
          have hx : WfMem x.mem := fetch_wfMem hv c n hf
          split at h
          · cases h
            exact debugStop_wfMem hx _ _ _
          · split at h
            · exact execWord_keeps _ (by simpa using hx) h
            · exact retry_wfMem hx c n (fun _ hw => execWord_keeps _ hx hw) h

theorem runTurn_keeps (r : Turn) : Keeps (runTurn r) := by
  intro s t hs h
  cases r with
  | thread c n => exact runThread_keeps c n hs h
  | event i =>
    simp only [runTurn] at h
    split at h
    · exact exec_keeps i hs h
    · cases h
      exact hs

theorem slotChances_keep (c n : Nat) : ∀ f ∈ slotChances c n, Keeps f := by
  simp [slotChances]

theorem coreChances_keep (s : State) (c : Nat) : ∀ f ∈ s.coreChances c, Keeps f := by
  have hslot : ∀ n, ∀ f ∈ slotChances c n, Keeps f := slotChances_keep c
  simp only [State.coreChances, List.forall_mem_append, List.forall_mem_cons, List.forall_mem_map, List.forall_mem_flatMap]
  simpa using fun n _ => hslot n

theorem serve_wfMem {s : State} (hs : WfMem s.mem) (r : ServiceReq) : WfMem (s.serve r).mem := by
  simp only [State.serve]
  split
  · exact hs
  · split
    · exact hs
    next t h =>
      have ht : WfMem t.mem := by
        rw [takeService_mem _ _ h]
        exact hs
      (repeat' split) <;> simp [ht]

theorem flightChances_keep (s : State) : ∀ f ∈ s.flightChances, Keeps f := by
  simp only [State.flightChances, List.forall_mem_append, List.forall_mem_map, List.forall_mem_flatMap]
  simp

theorem sliceChances_keep (s : State) (n : Nat) : ∀ f ∈ s.sliceChances n, Keeps f := by
  simp only [State.sliceChances, List.cons_append, List.forall_mem_append, List.forall_mem_cons, List.forall_mem_map]
  simp

theorem unitChances_keep (s : State) : ∀ f ∈ s.unitChances, Keeps f := by
  have flush : Keeps fun s => .next s.flushKeeps := keeps_next fun _ hs => flushKeeps_wfMem hs
  have serves (r : ServiceReq) : Keeps fun s => .next (s.serve r) := keeps_next fun _ hs => serve_wfMem hs r
  have slices (n : Nat) : ∀ f ∈ s.sliceChances n, Keeps f := sliceChances_keep s n
  simp only [State.unitChances, List.forall_mem_append, List.forall_mem_cons, List.forall_mem_map, List.forall_mem_flatMap]
  simpa [flush, serves] using fun n _ _ => slices n

theorem chances_keep (s : State) : ∀ f ∈ s.chances, Keeps f := by
  simp only [State.chances, List.forall_mem_append, List.forall_mem_flatMap]
  exact ⟨⟨flightChances_keep s, unitChances_keep s⟩, fun e _ => coreChances_keep s e.1⟩

theorem duty_wfMem {s : State} (hs : WfMem s.mem) {t : State} (h : s.duty = some t) : WfMem t.mem := by
  obtain ⟨f, hf, ht⟩ := List.exists_of_findSome?_eq_some h
  have keeps : Keeps f := chances_keep s f (by
    simp only [turned, List.mem_append] at hf
    exact hf.elim List.mem_of_mem_drop List.mem_of_mem_take)
  split at ht
  next u hu =>
    split at ht <;> cases ht
    exact keeps hs hu
  · cases ht

theorem periodic_wfMem {s : State} (hs : WfMem s.mem) {t : State} (h : s.periodic = some (.next t)) : WfMem t.mem := by
  simp only [State.periodic] at h
  split at h
  · exact execSquallScan_keeps hs (Option.some.inj h)
  · split at h
    · exact execHeartbeatSend_keeps hs (Option.some.inj h)
    · split at h
      · exact execReconcilePass_keeps hs (Option.some.inj h)
      · split at h
        · exact execHeartbeatWindowExpiry_keeps hs (Option.some.inj h)
        · cases h

theorem idleTurn_keeps : Keeps State.idleTurn := by
  intro s t hs h
  simp only [State.idleTurn] at h
  split at h
  next hp => exact periodic_wfMem hs (h ▸ hp)
  · split at h
    · split at h
      next hd =>
        cases h
        exact duty_wfMem hs hd
      · exact runTurn_keeps _ hs h
      · cases h
        exact hs
    · split at h
      · exact runTurn_keeps _ hs h
      · cases h
        exact hs

theorem step_keeps : Keeps step := by
  intro s t hs h
  unfold step at h
  split at h
  · exact runTurn_keeps _ (by simpa using hs) h
  · exact idleTurn_keeps (by simpa using hs) h

end Sys2Proof.Machine

open Sys2Proof Sys2Proof.Machine

/-- Settles O56, by an invariant of every operation that a step can reach. -/
theorem stepKeepsMemoryForm : Obligations.StepKeepsMemoryForm :=
  fun _ _ hs h => step_keeps hs h

end
